-- ==== Sys2Proof/Word.lean ====
section
/-! DEFINITION. The plain words the model is made of: bytes, handles, identifiers, sparse tables. -/

namespace Sys2Proof

/-- One byte. -/
abbrev Byte := BitVec 8

/-- A run of bytes, first byte at the lowest address (R2, R3). -/
abbrev Bytes := List (BitVec 8)

/-- A 32-bit object handle (R8): type [31:28], index [27:8], generation [7:0]. -/
abbrev Handle := BitVec 32

/-- One 64-byte line of memory as a number, byte 0 lowest. -/
abbrev Line := BitVec 512

/-- A logical port LP000 to LP255 (R26). -/
abbrev LpId := Fin 256

/-- A port P000 to P127 (R25). -/
abbrev PortId := Fin 128

/-- A Brock slice (R289). -/
abbrev SliceId := Fin 16

/-- A 512-bit digest (R545). -/
abbrev Digest := BitVec 512

/-- A sparse table: the keys rise strictly and no entry holds the default, so that equal tables are equal data. -/
abbrev Tab (α : Type) := List (Nat × α)

end Sys2Proof
end

