-- ==== Sys2Proof/Config.lean ====
section
/-! DEFINITION. What one device fixes and what the manual leaves open: constants with no body, so that no proof can lean on a value. -/

namespace Sys2Proof.Config

/-- A free value: the n-th value the manual does not fix, drawn with the state's counter (DESIGN CHOICE, assumption 2). -/
opaque freeNat : Nat → Nat

/-- SHA3-512 of FIPS 202 (R545), whose text the manual does not restate (DESIGN CHOICE, assumption 3). -/
opaque sha3 : Bytes → Digest

/-- ML-DSA-87 verification (R545, R546): public key, message, signature (DESIGN CHOICE, assumption 3). -/
opaque verify : Bytes → Bytes → Bytes → Bool

/-- ML-DSA-87 signing in hedged mode (R546): private seed, message, entropy (DESIGN CHOICE, assumption 3). -/
opaque sign : Bytes → Bytes → Nat → Bytes

/-- ML-DSA-87 key generation (R551, R553): seed to public key (DESIGN CHOICE, assumption 3). -/
opaque pubKey : Bytes → Bytes

/-- The root-key signature of the identity certificate, which Snimar writes into the flash at manufacture (R551, R578, DESIGN CHOICE, assumption 3). -/
opaque idCert : Bytes

/-- A range of a CXL memory target, by its DID, base and length, lies within one range that this Dizal programmed into the target's HDM decoders (R444, DESIGN CHOICE, assumption 11). -/
opaque hdmDecoded : Nat → Nat → Nat → Bool

/-- The logical port that a CXL.cache message of a port goes to, by its CacheID: the standard's routing, which the manual does not restate (R158, DESIGN CHOICE, assumption 25). -/
opaque cachePeer : Nat → Nat → Nat

/-- The fixed built-in receiver settings of a CXL lane at 8 GT/s and 16 GT/s, whose values the manual does not give (R61, DESIGN CHOICE, assumption 122). -/
opaque builtinCoeffs : Nat → List Int

/-- The JEDEC serial number of a fitted HBM stack, which is a fact of the module (R603, DESIGN CHOICE, assumption 124). -/
opaque hbmSerial : Nat → BitVec 64

/-- What full training of a stack finds, drawn with the state's counter: the manual gives no content (R602, DESIGN CHOICE, assumption 124). -/
opaque hbmTraining : Nat → Nat → Bytes

/-- The four Reed–Solomon check symbols of a stored word's 64 data bytes and its metadata, whose generator the manual does not give (R334, DESIGN CHOICE, assumption 131). -/
opaque rsCheck : Line → BitVec 32 → BitVec 32

end Sys2Proof.Config
end

