-- ==== Sys2Proof/Syntax.lean ====
section
/-! DEFINITION. The commands the block takes from outside: one constructor per row of the opcode table, with the operands the rules give it. -/

namespace Sys2Proof

/-- Where a Ubind request came from (R496) and where its completion goes. -/
inductive Route where
  | pe (slot : Fin 16)
  | i3c (eid : Byte) (tag : Byte)
  | tenant (binding : Handle)
  | firmware (block : Byte)
deriving DecidableEq, Repr

/-- The request header fields that a running command uses (R510). -/
structure Req where
  route : Route
  flags : Byte := 0
  seq : BitVec 32 := 0
  lease : Handle := 0
  deadline : BitVec 64 := 0
  cap : BitVec 32 := 0
deriving DecidableEq, Repr

/-- A Dizal frame: the transaction header of R183 and its payload. `rsv` keeps the reserved bits that HCHK covers (R184): those of byte 3, of the DID's word and of the SID's. -/
structure Frame where
  opcode : Byte := 0
  colour : BitVec 2 := 0
  prio : BitVec 3 := 0
  hops : BitVec 4 := 15
  copy : Bool := false
  marked : Bool := false
  chan : BitVec 3 := 0
  cls : BitVec 2 := 0
  priv : Bool := false
  did : BitVec 12 := 0
  sid : BitVec 12 := 0
  binding : Handle := 0
  tag : BitVec 16 := 0
  length : BitVec 16 := 0
  addr : BitVec 64 := 0
  status : BitVec 4 := 0
  epoch : BitVec 16 := 0
  hchk : BitVec 32 := 0
  rsv : BitVec 10 := 0
  data : Bytes := []
deriving DecidableEq, Repr, Inhabited

/-- The body of an INIT flit (R109). -/
structure InitMsg where
  subtype : Byte
  version : Byte := 1
  lp : Byte := 0
  width : Byte := 8
  twin : Byte := 0
  twinPartner : Byte := 0
  twinNamed : Bool := false
  partnerNamed : Bool := false
  resume : Bool := false
  serial : BitVec 64 := 0
  sendStamp : BitVec 64 := 0
  echoed : BitVec 64 := 0
  residence : BitVec 64 := 0
  credits : List Nat := []
  resumeAck : BitVec 16 := 0
  resumeSeq : BitVec 16 := 0
deriving DecidableEq, Repr, Inhabited

/-- The body of a CTRL flit (R138). -/
structure CtrlMsg where
  subtype : Byte
  subject : Byte := 0
  width : Byte := 0
  serial : BitVec 64 := 0
  lastDelivered : BitVec 16 := 0
deriving DecidableEq, Repr, Inhabited

/-- The body of a TIME flit (R389). -/
structure TimeMsg where
  subtype : Byte
  traceable : Bool := false
  holdover : Bool := false
  leaving : Bool := false
  changePending : Bool := false
  steps : Nat := 0
  gmPrio : Nat := 128
  exchange : Nat := 0
  gmSerial : Nat := 0
  senderSerial : Nat := 0
  sendTime : Nat := 0
  t1 : Nat := 0
  t2 : Nat := 0
  epoch : Nat := 0
  epochStart : Nat := 0
  period : Nat := 0
  pendingPeriod : Nat := 0
  base : Nat := 0
  changeTime : Nat := 0
  durable : Nat := 0
  subtree : Nat := 0
  floor : Nat := 0
deriving DecidableEq, Repr, Inhabited

/-- One module entry of a discovery message (R607). -/
structure ModEntry where
  serial : Nat
  did : Nat
  didValid : Bool
  depth : Nat
  fabricPorts : Nat
  endpoints : Nat
  state : Nat
deriving DecidableEq, Repr, Inhabited

/-- A discovery message (R607). -/
structure DiscMsg where
  subtype : Byte
  depth : Nat := 0
  child : Bool := false
  booting : Bool := false
  round : Nat := 0
  gmSerial : Nat := 0
  senderSerial : Nat := 0
  roundStart : Nat := 0
  entries : List ModEntry := []
deriving DecidableEq, Repr, Inhabited

/-- The MetaValue of a CXL.mem message (R310). -/
inductive Meta where
  | i | s | a
deriving DecidableEq, Repr

/-- The kinds of M2S Req that R310 maps, and any other. -/
inductive ReqKind where
  | memRd | memRdData | memInv | memClnEvct | other
deriving DecidableEq, Repr

/-- The kinds of CXL.io request that the chapter on CXL ports tells apart (R160, R162, R172, R465). -/
inductive IoKind where
  | read | writeNP | writeP | atomic (op : Byte) | message
deriving DecidableEq, Repr

/-- A CXL message as it arrives at a port or leaves it (R162, R172, R176, R310, DESIGN CHOICE, assumption 50). -/
inductive CxlMsg where
  | req (k : ReqKind) (m : Meta) (addr : Nat) (tag : Nat)
  | rwd (partialWr : Bool) (m : Meta) (addr : Nat) (tag : Nat) (mask : BitVec 64) (data : Line) (poison : Bool)
  | birsp (keepsS : Bool) (exclusive : Bool) (tag : Nat)
  | biconflict (addr : Nat) (tag : Nat)
  | bisnp (inv : Bool) (addr : Nat) (tag : Nat)
  | biconflictAck (addr : Nat) (tag : Nat)
  | ndr (exclusive : Bool) (tag : Nat) (devLoad : Nat)
  | drs (m : Meta) (nxm : Bool) (tag : Nat) (data : Line) (poison : Bool) (devLoad : Nat)
  | cache (chan : Nat) (h2d : Bool) (cacheId cqid : Nat) (last : Bool) (data : Bytes)
  | goErr
  | errFatal
  | io (k : IoKind) (pasid : BitVec 20) (addr : Nat) (tag : Nat) (len : Nat) (data : Bytes)
  | ioCpl (tag : Nat) (ok : Bool) (data : Bytes)
  | malformedTlp
  | reserved
  | unsupportedIo (tag : Nat)
  | viral
  | linkError (uncorrectable : Bool)
  | creditReturn (chan : Nat) (n : Nat)
  | ack (seq : Nat)
  | nak (seq : Nat) (only : Bool)
  | linkCapsRead
  | linkCaps (l1 l11 : Bool) (l1Ns l11Ns : Nat)
  | linkControl (aspm l11 : Bool)
  | pmL1
  | pbr (f : Frame)
deriving DecidableEq, Repr

/-- A CXL message with the sequence number of the flit that carried it (R166). -/
structure CxlArrival where
  seq : Nat := 0
  msg : CxlMsg
deriving DecidableEq, Repr

/-- A host access to one binding page (R462): where it came from and the page. -/
structure PageRef where
  lp : LpId
  pasid : BitVec 20
  page : Nat
deriving DecidableEq, Repr

/-- An access inside a binding page (R462). -/
inductive PageAcc where
  | read (off : Nat) (len : Nat)
  | write (off : Nat) (v : BitVec 32) (posted : Bool)
deriving DecidableEq, Repr

/-- The agents that may reach memory for debug (R490). -/
inductive DebugMaster where
  | jtag
  | core (n : Fin 4)
deriving DecidableEq, Repr

/-- What a debug access touches (R490): fabric memory, or a word of a stack. -/
inductive DebugTarget where
  | fabric (addr : Nat)
  | hbm (stack : Fin 4) (addr : Nat)
deriving DecidableEq, Repr

/-- What reaches a flow that waits for data (R316): the Drey's answer, or the memory device's. -/
inductive MemRet where
  | drey
  | memory (data : Line) (poison : Bool)
deriving DecidableEq, Repr

/-- A wrong HBM word that a reader finds (R361): its stack address, its pseudo-channel, bank and row, and which of its 72 symbols are wrong (R334, R335). -/
structure WordError where
  addr : Nat
  pc : Nat
  bank : Nat
  row : Nat
  symbols : List (Fin 72)
deriving DecidableEq, Repr

/-- How one target answered the global flush of H4 (R428). -/
inductive FlushOutcome where
  | flushed | timeout | portDown | error
deriving DecidableEq, Repr

/-- How a start-up step ended (R599), with what the step found: failing row indexes for K9; for K2, whether each ledger copy verified, as `primary` and `mirror`; readable journal devices and damaged records for K12; for K2, K4, K5 and K6, whether what they check passed, as `ok`. -/
structure StepEnd where
  ok : Bool := true
  failed : List Nat := []
  primary : Bool := true
  mirror : Bool := true
  damaged : List Nat := []
deriving DecidableEq, Repr

/-- The crossbar arbiters (R215): each output port has one in its own half and one for the other half's slices, and each slice input has one. -/
inductive ArbId where
  | port (p : PortId)
  | portFar (p : PortId)
  | slice (i : SliceId)
deriving DecidableEq, Repr

/-- The reason of a notice (R476). -/
inductive Reason where
  | refused | unavailable | flushFailed
deriving DecidableEq, Repr

/-- One block header that a lane receives, by the mode's kind of block (R41): a Den codeword by its number since the last alignment marker, with how many symbols were corrected, or none when it did not decode; a 128b/130b sync header; an ordered set; a lane's share of a flit with the outcomes of its FEC and CRC. -/
inductive Header where
  | codeword (idx : Nat) (fixed : Option Nat)
  | sync (bits : BitVec 2)
  | orderedSet (wellFormed : Bool)
  | flitShare (fec crc : Bool)
deriving DecidableEq, Repr

/-- The rates of a CXL link in GT/s (R40, R61). -/
inductive Rate where
  | r2 | r5 | r8 | r16 | r32 | r64
deriving DecidableEq, Repr, Inhabited

/-- What a partner asks of a lane's transmitter at a rate while it equalises (R59): a preset, or pre-cursor, main and post-cursor coefficients. -/
inductive EqAsk where
  | preset (k : Nat)
  | coeffs (pre main post : Nat)
deriving DecidableEq, Repr

/-- What the training of a CXL link finds (R30, R32, R35, R59 to R62, R158): the lanes in use, which of the port's lanes arrive inverted, a partner that trains only as a restricted CXL device, the flit modes that both ends may use, whether the partner takes selective NAKs and supports the bypass of equalisation, its logical devices, and its equalisation requests by lane of the port and rate. -/
structure CxlTrain where
  lanes : Nat := 8
  inv : BitVec 8 := 0
  rcd : Bool := false
  latency : Bool := true
  standard : Bool := true
  selNak : Bool := true
  bypass : Bool := true
  lds : Nat := 1
  asks : List (Nat × Rate × EqAsk) := []
deriving DecidableEq, Repr, Inhabited

/-- What a CXL partner asks of Lane Margining at the Receiver (R76): to start on a lane of the port, to stop, or to step the sampler of the lane under test in timing or in voltage. -/
inductive MarginOp where
  | start (lane : Fin 8)
  | stop
  | step (voltage negative : Bool) (n : Nat)
deriving DecidableEq, Repr

/-- The 264 operations and events of spec/opcode_table.json, in the table's order. A Ubind command takes its header and the bytes of its request payload. -/
inductive Instr where
  | deviceIdentify (q : Req) (p : Bytes)
  | deviceStatus (q : Req) (p : Bytes)
  | deviceTransition (q : Req) (p : Bytes)
  | deviceReset (q : Req) (p : Bytes)
  | deviceGpio (q : Req) (p : Bytes)
  | portConfigure (q : Req) (p : Bytes)
  | portEnable (q : Req) (p : Bytes)
  | portDisable (q : Req) (p : Bytes)
  | portStatus (q : Req) (p : Bytes)
  | portRetrain (q : Req) (p : Bytes)
  | portPower (q : Req) (p : Bytes)
  | portFreeze (q : Req) (p : Bytes)
  | portRouteSet (q : Req) (p : Bytes)
  | portMcastCreate (q : Req) (p : Bytes)
  | portMcastUpdate (q : Req) (p : Bytes)
  | portMcastDestroy (q : Req) (p : Bytes)
  | bindTenantCreate (q : Req) (p : Bytes)
  | bindTenantSet (q : Req) (p : Bytes)
  | bindTenantDestroy (q : Req) (p : Bytes)
  | bindTenantRead (q : Req) (p : Bytes)
  | bindCreate (q : Req) (p : Bytes)
  | bindDestroy (q : Req) (p : Bytes)
  | bindRead (q : Req) (p : Bytes)
  | bindMode (q : Req) (p : Bytes)
  | bindApprove (q : Req) (p : Bytes)
  | bindRefuse (q : Req) (p : Bytes)
  | bindReinstate (q : Req) (p : Bytes)
  | sliceCreate (q : Req) (p : Bytes)
  | sliceSet (q : Req) (p : Bytes)
  | sliceDestroy (q : Req) (p : Bytes)
  | sliceRead (q : Req) (p : Bytes)
  | gateSetCreate (q : Req) (p : Bytes)
  | gateSetDestroy (q : Req) (p : Bytes)
  | gateRuleWrite (q : Req) (p : Bytes)
  | gateCommit (q : Req) (p : Bytes)
  | gateConfigure (q : Req) (p : Bytes)
  | gateDefaultSet (q : Req) (p : Bytes)
  | gateStatus (q : Req) (p : Bytes)
  | gateLeaseTake (q : Req) (p : Bytes)
  | gateLeaseCommit (q : Req) (p : Bytes)
  | gateLeaseRelease (q : Req) (p : Bytes)
  | trafficQueueMap (q : Req) (p : Bytes)
  | trafficBufferSet (q : Req) (p : Bytes)
  | trafficRedSet (q : Req) (p : Bytes)
  | trafficMeterCreate (q : Req) (p : Bytes)
  | trafficMeterSet (q : Req) (p : Bytes)
  | trafficMeterDestroy (q : Req) (p : Bytes)
  | trafficMeterAttach (q : Req) (p : Bytes)
  | trafficShaperSet (q : Req) (p : Bytes)
  | trafficShaperClear (q : Req) (p : Bytes)
  | trafficGateWrite (q : Req) (p : Bytes)
  | trafficGateCommit (q : Req) (p : Bytes)
  | cohConfigure (q : Req) (p : Bytes)
  | cohEntryRead (q : Req) (p : Bytes)
  | cohDreyPolicy (q : Req) (p : Bytes)
  | cohDreyFlush (q : Req) (p : Bytes)
  | cohHbmScrub (q : Req) (p : Bytes)
  | cohHbmStatus (q : Req) (p : Bytes)
  | cohRegionRetire (q : Req) (p : Bytes)
  | hoardConfigure (q : Req) (p : Bytes)
  | hoardStatus (q : Req) (p : Bytes)
  | hoardDirtyCap (q : Req) (p : Bytes)
  | hoardJournalSet (q : Req) (p : Bytes)
  | hoardJournalRead (q : Req) (p : Bytes)
  | timeConfigure (q : Req) (p : Bytes)
  | timeSet (q : Req) (p : Bytes)
  | timeStatus (q : Req) (p : Bytes)
  | powerDomainSet (q : Req) (p : Bytes)
  | powerDomainStatus (q : Req) (p : Bytes)
  | powerClkobs (q : Req) (p : Bytes)
  | logRead (q : Req) (p : Bytes)
  | logStatus (q : Req) (p : Bytes)
  | logSubscribe (q : Req) (p : Bytes)
  | counterGroupCreate (q : Req) (p : Bytes)
  | counterGroupDestroy (q : Req) (p : Bytes)
  | counterRead (q : Req) (p : Bytes)
  | secureTableLoad (q : Req) (p : Bytes)
  | secureFwStage (q : Req) (p : Bytes)
  | secureFwActivate (q : Req) (p : Bytes)
  | secureAttest (q : Req) (p : Bytes)
  | secureUnlock (q : Req) (p : Bytes)
  | secureOwnerKey (q : Req) (p : Bytes)
  | diagPrbs (q : Req) (p : Bytes)
  | diagPrbsStop (q : Req) (p : Bytes)
  | diagEyescan (q : Req) (p : Bytes)
  | diagSurvey (q : Req) (p : Bytes)
  | diagSurveyRead (q : Req) (p : Bytes)
  | cageSet (q : Req) (p : Bytes)
  | cageStatus (q : Req) (p : Bytes)
  | mbxDoorbellWrite (v : BitVec 32)
  | mbxDoneClear (v : BitVec 32)
  | mbxIgnoredRead
  | mbxEvtConsWrite (v : BitVec 32)
  | mbxNtcConsWrite (r : PageRef) (v : BitVec 32)
  | mbxTenDbWrite (r : PageRef) (v : BitVec 32)
  | mbxTenDoneClear (r : PageRef) (v : BitVec 32)
  | ftNowLoRead
  | ftEpochLoRead
  | sicGraveTimeLoRead
  | registerWrite (bar2 : Bool) (off : Nat) (v : BitVec 32)
  | recoveryModeDoorbell (v : BitVec 32)
  | msixUnmask (vec : Fin 64)
  | durableEpochBlockRead (r : PageRef) (off : Nat)
  | messageWindowWrite (r : PageRef) (data : Bytes)
  | bindingPageAccess (r : PageRef) (a : PageAcc)
  | commandDispatch
  | commandDeadline (r : Route)
  | mctpRequest (eid tag : Byte) (body : Bytes)
  | journalDeltaDurable (seq : Nat) (primary mirror : Bool)
  | flashSummaryWrite
  | mediatedRequestTimeout (ev : Nat)
  | leaseLapse (h : Handle)
  | evidenceExpiry (r : Route)
  | challengeExpiry
  | unlockExpiry
  | takeoverStepDone
  | warmReset
  | offEntry
  | drainRecordWritten
  | porstNAssert (lowNs : Nat)
  | coldStart
  | startStepDone (k : Fin 14) (e : StepEnd)
  | portWave (d : Fin 8)
  | startQuarantineRetry (p : PortId)
  | selfGrandmaster
  | discoveryRoundStart
  | probe (lp : LpId) (m : DiscMsg)
  | report (lp : LpId) (m : DiscMsg)
  | discoveryDeadline
  | ready (lp : LpId) (m : DiscMsg)
  | pfailNFall
  | pfailNShortPulse
  | hibernate
  | hibernateStepDone (targets : List (LpId × FlushOutcome))
  | hibernateRecordCommitted (primary mirror : Bool)
  | pfailNRise
  | vin12PowerFail
  | vin12Undervoltage
  | graveClear
  | vin12Return
  | vaonLoss
  | pePerstNAssert
  | functionLevelReset
  | trstNChange (level : Bool)
  | debugAccess (m : DebugMaster) (t : DebugTarget) (write : Option Line)
  | prsntNChange (p : PortId) (level : Bool)
  | intNLevel (p : PortId) (level : Bool)
  | laneLock (lane : Fin 1024) (headers : List Header)
  | laneLockLoss (lane : Fin 1024) (headers : List Header)
  | laneRelockTimeout (lane : Fin 1024)
  | alignmentMarker (lp : LpId)
  | codewordUncorrectable (lane : Fin 1024) (idx : Nat)
  | denLinkUp (lp : LpId) (marks : List (Option Nat)) (inv : BitVec 8) (skewNs : Nat)
  | hello (lp : LpId) (m : InitMsg)
  | echo (lp : LpId) (m : InitMsg)
  | done (lp : LpId) (m : InitMsg)
  | initTimeout (lp : LpId)
  | flitTransmit (lp : LpId)
  | flitReceive (lp : LpId) (first : Bytes) (others : List Bytes)
  | replayTimeout (lp : LpId)
  | ackStallTimeout (lp : LpId)
  | linkDown (lp : LpId)
  | electricalIdleEnd (lp : LpId)
  | probationEnd (lp : LpId)
  | failover (lp : LpId) (m : CtrlMsg)
  | failoverAbandon (lp : LpId)
  | failback (lp : LpId) (m : CtrlMsg)
  | failbackDone (lp : LpId) (m : CtrlMsg)
  | failbackDestMove (lp : LpId) (did : BitVec 12)
  | retrainReq (lp : LpId) (m : CtrlMsg)
  | retrainAccept (lp : LpId) (m : CtrlMsg)
  | widthReq (lp : LpId) (m : CtrlMsg)
  | widthAccept (lp : LpId) (m : CtrlMsg)
  | withdraw (lp : LpId) (m : CtrlMsg)
  | retrainHoldRelease (lp : LpId)
  | dl1IdleTimeout (lp : LpId)
  | dl1Req (lp : LpId) (m : CtrlMsg)
  | dl1Ack (lp : LpId) (m : CtrlMsg)
  | dl1Refuse (lp : LpId) (m : CtrlMsg)
  | dl2Req (lp : LpId) (m : CtrlMsg)
  | dl2Ack (lp : LpId) (m : CtrlMsg)
  | dlExitDone (lp : LpId)
  | announceSend
  | announce (lp : LpId) (m : TimeMsg)
  | announceTimeout
  | delayReqSend
  | delayReq (lp : LpId) (m : TimeMsg)
  | delayRsp (lp : LpId) (m : TimeMsg)
  | ftrefPpsEdge
  | ftrefLoss (pps : Bool)
  | ftrefRestored
  | epochBoundary
  | epochFlushDone (failed : List LpId)
  | noticePost (b : Handle) (why : Reason) (ruleSet : Handle)
  | postedWriteAck (b : Handle) (epoch : Nat)
  | requestClassify (lp : LpId) (f : Frame) (arrived : Nat)
  | cxlMessageIngress (lp : LpId) (m : CxlArrival)
  | cxlLinkTrained (lp : LpId) (rate : Rate) (t : CxlTrain)
  | cxlMemTimeout (lp : LpId) (tag : BitVec 16)
  | denResponseTimeout (lp : LpId) (tag : BitVec 16)
  | responseIngress (lp : LpId) (f : Frame)
  | crossbarGrant (a : ArbId)
  | throttle (f : Frame)
  | mergeTimeout (id : Nat)
  | freezeHoldExpiry (p : PortId)
  | routeHoldRelease (did : BitVec 12)
  | egressDequeue (lp : LpId)
  | shaperRefill
  | throttleRecovery (b : Handle)
  | timeGateSlot (lp : LpId)
  | gateSwap (lp : LpId)
  | ruleSwap (ruleSet : Handle)
  | gateCommitDrained (ruleSet : Handle)
  | bindDestroyProgress (b : Handle)
  | brockRequest (i : SliceId) (lp : LpId) (f : Frame)
  | wbM (i : SliceId) (lp : LpId) (f : Frame)
  | evictE (i : SliceId) (lp : LpId) (f : Frame)
  | evictS (i : SliceId) (lp : LpId) (f : Frame)
  | snoopAnswer (i : SliceId) (lp : LpId) (f : Frame)
  | snoopTimeout (i : SliceId) (lp : LpId) (trk : Fin 2048)
  | memoryDataReturn (i : SliceId) (trk : Fin 2048) (r : MemRet)
  | memoryWriteComplete (i : SliceId) (line : BitVec 46)
  | lostAgentSweepDone (i : SliceId) (lp : LpId)
  | setCacheFill (i : SliceId) (set : BitVec 23) (ok : Bool)
  | dreyCleaner (k : Fin 4)
  | dirtyCapHold (k : Fin 4)
  | patrolScrub (stack : Fin 4) (errors : List WordError)
  | domainReady (d : Fin 157)
  | domainDwellEnd (d : Fin 157)
  | domainReadyTimeout (d : Fin 157)
  | coreWfi (pair : Fin 2) (mode : BitVec 2)
  | clockLoss (c : Fin 25)
  | clockSwitchHung (c : Fin 25)
  | observedClockStop
  | graveFault (code : BitVec 16) (block : Byte)
  | thermalSample (junctions : List Int) (lids : List Int) (hbms : List Int)
  | heartbeatKick
  | firmwareStall
  | hbeatStop
  | watchdogWarmStart
  | lockstepError (pair : Fin 2)
  | standbyReloadDone
  | sicSourceEdge (src : Fin 2048)
  | sicCoalesceTimeout (src : Fin 2048)
  | sicArbitration
  | sicClaim (pair : Fin 2)
  | sicComplete (pair : Fin 2) (src : Fin 2048)
  | sicConfigWrite (src : Fin 2048) (w : BitVec 64)
  | bandwidthWindowEnd (lp : LpId)
  | cageSample (c : PortId) (mA mV : Nat)
  | cageFaultTimer (c : PortId)
  | cageHardTrip (c : PortId) (mA : Nat)
  | cageRampTimeout (c : PortId)
  | cageAttemptWindow (c : PortId)
  | cageRetry (c : PortId)
  | hbeatPeriod
  | ftoutPpsPulse
  | clkreqNChange (p : PortId) (level : Bool)
  | aspmL1Request (lp : LpId) (enter : Bool)
  | laneMargining (lp : LpId) (m : MarginOp)
  | peLinkDown
  | cxlStartLinkUpTimeout (p : PortId)
  | relocationStepDone (stack : Fin 4)
  | dynamicAddressAssignment (addr : BitVec 7)
deriving DecidableEq, Repr

end Sys2Proof
end

