-- ==== Sys2Proof/Decode.lean ====
section
/-! DEFINITION. The opcode table gives no row any bits, so no word spells a command (DEDUCED, assumption 4). -/

namespace Sys2Proof

/-- The command that a word spells by the table's bits: the table gives none (DEDUCED, assumption 4). -/
def decodeTableWord (_nbits _w : Nat) : Option Instr := none

end Sys2Proof
end

