-- ==== Sys2Proof/Machine/Bits.lean ====
section
/-! DEFINITION. Bytes, fields, check codes and sparse tables: the bit-field and byte-order helpers that every other file uses. -/

namespace Sys2Proof.Machine

/-- The little-endian number that a run of bytes holds (R2). -/
def leNat : Bytes → Nat
  | [] => 0
  | b :: r => b.toNat + 256 * leNat r

/-- The `n` little-endian bytes of a number (R2). -/
def leBytes : Nat → Nat → Bytes
  | 0, _ => []
  | n + 1, v => BitVec.ofNat 8 v :: leBytes n (v / 256)

/-- The field of `n` bytes at byte offset `off` of a layout (R512); bytes beyond the end read 0. -/
def fieldAt (p : Bytes) (off n : Nat) : Nat := leNat ((p.drop off).take n)

/-- The same field as a two's-complement number. -/
def sfieldAt (p : Bytes) (off n : Nat) : Int :=
  let v := fieldAt p off n
  if v < 2 ^ (8 * n - 1) then (v : Int) else (v : Int) - (2 ^ (8 * n) : Nat)

/-- The handle field at byte offset `off`. -/
def handleAt (p : Bytes) (off : Nat) : Handle := BitVec.ofNat 32 (fieldAt p off 4)

/-- The two's-complement bytes of an integer. -/
def sBytes (n : Nat) (v : Int) : Bytes := leBytes n (v.emod ((2 ^ (8 * n) : Nat) : Int)).toNat

/-- `n` zero bytes. -/
def zeros (n : Nat) : Bytes := List.replicate n 0

/-- Bit `i` of a number. -/
def bitOf (v i : Nat) : Bool := Nat.testBit v i

/-- A truth value as 0 or 1. -/
def b2n (b : Bool) : Nat := if b then 1 else 0

/-- Bits [hi:lo] of a number. -/
def bitsOf (v lo n : Nat) : Nat := (v / 2 ^ lo) % 2 ^ n

/-- One step of a reflected CRC over one bit position. -/
def crcBit32 (c : BitVec 32) : BitVec 32 :=
  if c.getLsbD 0 then (c >>> 1) ^^^ 0x82F63B78#32 else c >>> 1

/-- CRC-32C over one byte (R184): polynomial 0x1EDC6F41, reflected. -/
def crcByte32 (c : BitVec 32) (b : Byte) : BitVec 32 :=
  let c := c ^^^ b.zeroExtend 32
  crcBit32 (crcBit32 (crcBit32 (crcBit32 (crcBit32 (crcBit32 (crcBit32 (crcBit32 c)))))))

/-- CRC-32C of a run of bytes (R184): initial value and final inversion all ones. -/
def crc32c (p : Bytes) : BitVec 32 := ~~~ (p.foldl crcByte32 0xFFFFFFFF#32)

/-- One byte step of a CRC sent most significant bit first. -/
def crcByteMsb (w : Nat) (poly : BitVec w) (c : BitVec w) (b : Byte) : BitVec w :=
  let c := c ^^^ ((b.zeroExtend w) <<< (w - 8))
  (List.range 8).foldl (fun c _ => if c.getMsbD 0 then (c <<< 1) ^^^ poly else c <<< 1) c

/-- Read a sparse table. -/
def tget {α : Type} [Inhabited α] : Tab α → Nat → α
  | [], _ => default
  | (k', v) :: r, k => if k' = k then v else tget r k

/-- Write a sparse table, keeping its canonical form: writing the default removes the entry, wherever it stands. -/
def tset {α : Type} [Inhabited α] [DecidableEq α] : Tab α → Nat → α → Tab α
  | [], k, v => if v = default then [] else [(k, v)]
  | (k', v') :: r, k, v =>
    if k < k' then (if v = default then (k', v') :: r.filter (fun e => decide (e.1 ≠ k)) else (k, v) :: (k', v') :: r)
    else if k = k' then (if v = default then r.filter (fun e => decide (e.1 ≠ k)) else (k, v) :: r)
    else (k', v') :: tset r k v

/-- Change one entry of a sparse table. -/
def tmod {α : Type} [Inhabited α] [DecidableEq α] (t : Tab α) (k : Nat) (f : α → α) : Tab α :=
  tset t k (f (tget t k))

/-- The keys of a list rise strictly above a bound. -/
def keysRise {α : Type} : Option Nat → List (Nat × α) → Bool
  | _, [] => true
  | none, (k, _) :: r => keysRise (some k) r
  | some b, (k, _) :: r => decide (b < k) && keysRise (some k) r

/-- The canonical form of a sparse table: keys strictly rising, no entry equal to the default. -/
def tabWf {α : Type} [Inhabited α] [DecidableEq α] (t : Tab α) : Bool :=
  keysRise none t && t.all (fun e => decide (e.2 ≠ default))

/-- The least number below `n` that satisfies a test. -/
def firstBelow (n : Nat) (f : Nat → Bool) : Option Nat := (List.range n).find? f

/-- The least number from `k` on, within `fuel` numbers, that satisfies a test. -/
def firstFrom (f : Nat → Bool) : Nat → Nat → Option Nat
  | 0, _ => none
  | fuel + 1, k => if f k then some k else firstFrom f fuel (k + 1)

/-- Replace element `i` of a list. -/
def listSet {α : Type} (l : List α) (i : Nat) (v : α) : List α := l.set i v

/-- The numbers from `a` up to but not including `a + n`. -/
def rangeFrom (a n : Nat) : List Nat := (List.range n).map (a + ·)

/-- Round `t` up to a multiple of `m`. -/
def roundUp (t m : Nat) : Nat := if m = 0 then t else ((t + m - 1) / m) * m

/-- The lowest bit set among the low `n` bits of a number. -/
def lowestBit (n v : Nat) : Option Nat := firstBelow n (fun i => bitOf v i)

/-- How many of the low `n` bits of a number are set. -/
def popCount (n v : Nat) : Nat := ((List.range n).filter (fun i => bitOf v i)).length

end Sys2Proof.Machine
end

