-- ==== Sys2Proof/Machine/State.lean ====
section
/-! DEFINITION. The state of one Dizal as plain data: every register, table, buffer, counter, mode and pin the manual gives it, and the queue of waiting commands. -/

namespace Sys2Proof.Machine

/-- The eight device states (R503). -/
inductive DevState where
  | off | boot | test | recovery | service | drain | hibernate | grave
deriving DecidableEq, Repr, Inhabited

/-- Fault classes (R652). -/
inductive EvClass where
  | notice | degraded | severe | grave
deriving DecidableEq, Repr, Inhabited

/-- Status codes of a completion (R514). -/
inductive Status where
  | ok | busy | badHandle | staleHandle | noResource | denied | badState | conflict
  | timeout | partialDone | unsupported | invalidArg | authFail | locked
deriving DecidableEq, Repr, Inhabited

/-- A Spoor record (R535). -/
structure SpoorRec where
  stamp : Nat := 0
  seq : Nat := 0
  iface : Nat := 0
  kind : Nat := 0
  code : Nat := 0
  identity : Nat := 0
  h1 : Handle := 0
  h2 : Handle := 0
  outcome : Nat := 0
  flags : Nat := 0
  detail : Nat := 0
  arg : Nat := 0
  chain : Digest := 0
  damaged : Bool := false
deriving DecidableEq, Repr, Inhabited

/-- A seal (R537). -/
structure Seal where
  lastSeq : Nat := 0
  stamp : Nat := 0
  chainIn : Digest := 0
  chainOut : Digest := 0
  keyHash : Digest := 0
  sig : Bytes := []
deriving DecidableEq, Repr, Inhabited

/-- The Spoor log, its seals, the event rings and the flash summary (R534 to R541, R654, R658). Lists run newest first. `deferred` holds what the runtime records once it runs; `open_` says that it runs; `skips` are the runs of sequences that no record of this start takes (R541). -/
structure LogSt where
  nextSeq : Nat := 0
  chain : Digest := 0
  blockIn : Digest := 0
  brk : Bool := false
  ring0 : List SpoorRec := []
  seals : List Seal := []
  ring1 : List SpoorRec := []
  ring2 : List SpoorRec := []
  sub1 : EvClass := .notice
  sub2 : EvClass := .notice
  flashSeals : List Seal := []
  flashRecs : List SpoorRec := []
  waitSeals : List Seal := []
  waitRecs : List SpoorRec := []
  lastFlashSeal : Option Nat := none
  times : Tab (List Nat) := []
  notices : Nat := 0
  degraded : Nat := 0
  severe : Nat := 0
  lastEvent : Nat := 0
  limited : Nat := 0
  deferred : List SpoorRec := []
  open_ : Bool := false
  skips : List (Nat × Nat) := []
deriving DecidableEq, Repr, Inhabited

/-- A first-error record (R659). -/
structure FirstErr where
  valid : Bool := false
  overflow : Bool := false
  count : Nat := 0
  code : Nat := 0
  masterKind : Nat := 0
  access : Nat := 0
  master : Nat := 0
  addr : Nat := 0
  stamp : Nat := 0
  last : Nat := 0
deriving DecidableEq, Repr, Inhabited

/-- One interrupt source (R670, R672, R674, R678). -/
structure SicSrc where
  word : BitVec 64 := 0
  line : Bool := false
  pend : Bool := false
  merged : Nat := 0
  held : Nat := 0
  firstHeld : Nat := 0
  due : Nat := 0
  active : Option (Fin 2) := none
deriving DecidableEq, Repr, Inhabited

/-- One target pair of the interrupt controller (R671 to R674): what its claim register holds. -/
structure SicPair where
  committed : Option Nat := none
deriving DecidableEq, Repr, Inhabited

/-- The interrupt controller (R669 to R680). -/
structure SicSt where
  srcs : Tab SicSrc := []
  pair0 : SicPair := {}
  pair1 : SicPair := {}
  spurious : Nat := 0
deriving DecidableEq, Repr, Inhabited

/-- A performance slot (R685, R690): the counter it follows, its filter and its sampling. -/
structure PerfSlot where
  port : Option Nat := none
  slot : Nat := 0
  group : Handle := 0
  key : Option Nat := none
  coreEvent : Nat := 0
  filterKind : Nat := 0
  filterValue : Nat := 0
  period : Nat := 0
  value : Nat := 0
  wrap : Bool := false
deriving DecidableEq, Repr, Inhabited

/-- A sample (R687). -/
structure Sample where
  stamp : Nat := 0
  slot : Nat := 0
  kind : Nat := 1
  opcode : Nat := 0
  classChan : Nat := 0
  binding : Handle := 0
  addr : Nat := 0
  did : Nat := 0
  sid : Nat := 0
deriving DecidableEq, Repr, Inhabited

/-- A counter group (R690): its scope, its ring of samples (newest first) and, for scope 2, its bandwidth monitor. -/
structure CtrGroup where
  scope : Nat := 0
  unit : Nat := 0
  samples : List Sample := []
  lost : Nat := 0
deriving DecidableEq, Repr, Inhabited

/-- The bandwidth monitor of a logical port (R688). -/
structure BwMon where
  group : Handle := 0
  window : Nat := 0
  start : Nat := 0
  inBytes : Nat := 0
  outBytes : Nat := 0
  lastStart : Nat := 0
  lastShort : Bool := false
  lastIn : Nat := 0
  lastOut : Nat := 0
  peakIn : Nat := 0
  peakOut : Nat := 0
deriving DecidableEq, Repr, Inhabited

/-- The heartbeat, the device watchdog and the lockstep pairs (R662 to R668, HB_ registers of R502). `lockstep` says that the fault in hand is a lockstep error. -/
structure HbSt where
  count : BitVec 32 := 0
  running : Bool := false
  level : Bool := false
  standbyHealthy : Bool := false
  stallSeen : Bool := false
  lastKick : Nat := 0
  stallAt : Option Nat := none
  handover : Bool := false
  lockstep : Bool := false
  stopAt : Option Nat := none
  activePair : Fin 2 := 0
  reloadAt : Option Nat := none
deriving DecidableEq, Repr, Inhabited

/-- The Grave registers (R656, R682) and the time of g0. -/
structure GraveSt where
  code : BitVec 16 := 0
  block : Byte := 0
  valid : Bool := false
  time : BitVec 64 := 0
  latched : BitVec 64 := 0
  ignoredResets : Nat := 0
deriving DecidableEq, Repr, Inhabited

/-- The modes of the fabric-time unit (R379). -/
inductive FtMode where
  | boot | external | inband | free | holdover
deriving DecidableEq, Repr, Inhabited

/-- What `time.configure` sets for one logical port (R391), as the ledger keeps it (R597). -/
structure TimeEntry where
  en : Bool := false
  asym : Int := 0
deriving DecidableEq, Repr, Inhabited

/-- The last ANNOUNCE heard on a port and when (R386). -/
structure Heard where
  msg : TimeMsg := { subtype := 0 }
  at_ : Nat := 0
  valid : Bool := false
deriving DecidableEq, Repr, Inhabited

/-- The fabric-time unit (R374 to R394). The count is bits [79:16] of `acc`; the 16 bits below are the servo's. -/
structure FtSt where
  acc : BitVec 80 := 0
  inc : Nat := 2 ^ 32
  slew : Int := 0
  mode : FtMode := .boot
  gm : Bool := false
  traceable : Bool := false
  steps : Nat := 0
  stepped : Bool := false
  offset : Int := 0
  delay : Nat := 0
  lastStep : Int := 0
  acquired : Bool := false
  parent : Option LpId := none
  gmPrio : Nat := 128
  gmSerial : Nat := 0
  heard : Tab Heard := []
  exchange : Nat := 0
  waiting : Option (Nat × Nat) := none
  lastAnnounce : Nat := 0
  lastDelayReq : Nat := 0
deriving DecidableEq, Repr, Inhabited

/-- The FTREF inputs, the FTOUT_PPS pin, the latched register halves and the stored settings (R378, R380 to R384). -/
structure FtIo where
  lastPps : Option Nat := none
  ppsOk : Bool := false
  tenMOk : Bool := false
  okSince : Option Nat := none
  pendingSet : Option Nat := none
  ppsOut : Bool := false
  prio : Nat := 128
  extRef : Bool := false
  ppsEn : Bool := false
  entries : Tab TimeEntry := []
  nowHi : BitVec 32 := 0
  epochHi : BitVec 32 := 0
  durLo : BitVec 32 := 0
  durHi : BitVec 32 := 0
  gmSince : Option Nat := none
deriving DecidableEq, Repr, Inhabited

/-- A lost-write or refusal notice as it stands open or queued (R476 to R478); `late` marks one that a start delivered. -/
structure Notice where
  binding : Handle := 0
  why : Reason := .refused
  ruleSet : Handle := 0
  addr : Nat := 0
  len : Nat := 0
  count : Nat := 0
  first : Nat := 0
  epoch : Nat := 0
  late : Bool := false
deriving DecidableEq, Repr, Inhabited

/-- The flush of one closed epoch (R402): the epoch, the boundary that closed it, when its flush started, the lines that E2 wrote back, and the step it has reached: 2 or 3. -/
structure Flush where
  epoch : Nat := 0
  boundary : Nat := 0
  started : Nat := 0
  lines : Nat := 0
  stage : Nat := 2
deriving DecidableEq, Repr, Inhabited

/-- Hoard epochs (R395 to R411, R416, R420). -/
structure HoardSt where
  period : Nat := 100000
  ownPeriod : Nat := 100000
  base : Nat := 0
  epoch : Nat := 0
  start : Nat := 0
  pendingPeriod : Option (Nat × Nat) := none
  floor : Nat := 0
  durable : Nat := 0
  durableAt : Nat := 0
  fabricDurable : Nat := 0
  flushing : Option Flush := none
  waiting : List Flush := []
  lastF : Nat := 0
  maxF : Nat := 0
  lagging : Bool := false
  lagNoticeAt : Option Nat := none
  restart : Nat := 0
  unclean : Bool := false
deriving DecidableEq, Repr, Inhabited

/-- Durability settings and what waits for a flush (R401, R406, R416, R420, R434): `failedTo` names the ports whose flush, or a write-back towards which, has just failed. -/
structure DurSt where
  tDev : Nat := 5000000
  holdup : Nat := 0
  exceeded : Bool := false
  dirtyCap : Nat := 8
  targets : List Nat := []
  failedTo : List (Nat × FlushOutcome) := []
  queued : List Notice := []
deriving DecidableEq, Repr, Inhabited

/-- The steps of Hibernate (R414) and the PFAIL_N pin (R413). -/
structure HibSt where
  pfailLow : Bool := false
  lowSince : Nat := 0
  step : Nat := 0
  t0 : Nat := 0
  dAt0 : Nat := 0
  eF : Nat := 0
  flushDone : Nat := 0
  lines : Nat := 0
  lost : Nat := 0
  allFlushed : Bool := false
  exceeded : Bool := false
  holdover : Bool := false
  fromDrain : Bool := false
  outcomes : List (Nat × FlushOutcome × Nat × Nat) := []
  failed : List (Nat × FlushOutcome) := []
deriving DecidableEq, Repr, Inhabited

/-- The types of a boot-ledger alternative (R599). -/
abbrev Alt := Nat

/-- A step record of the boot ledger (R599). -/
structure StepRec where
  start : Nat := 0
  step : Nat := 0
  alt : Alt := 0
  detail : Nat := 0
  began : Nat := 0
  duration : Nat := 0xFFFFFFFF
  outcome : Nat := 0xFF
deriving DecidableEq, Repr, Inhabited

/-- A soft repair (R597). -/
structure Repair where
  stack : Nat := 0
  pc : Nat := 0
  bank : Nat := 0
  row : Nat := 0
deriving DecidableEq, Repr, Inhabited

/-- A state block of the boot ledger (R597) but for the copies of what the state holds elsewhere. -/
structure Block where
  bank : Nat := 0
  pair : Fin 2 := 0
  tableCopy : Nat := 0
  generation : Nat := 0
  reservation : Nat := 0
  startNumber : Nat := 0
  lastReady : Nat := 0
  training : Nat := 0
  journalSet : Bool := false
  repairs : List Repair := []
  primRoute : Nat := 0
  mirrRoute : Nat := 0
  primDid : Nat := 0
  mirrDid : Nat := 0
  primAddr : Nat := 0
  mirrAddr : Nat := 0
  ports : Nat := 0
  prio : Nat := 128
  timeFlags : Nat := 0
  entries : Tab TimeEntry := []
deriving DecidableEq, Repr, Inhabited

/-- How far a start-up step has come (R587). -/
inductive KState where
  | idle | running | done | failed
deriving DecidableEq, Repr, Inhabited

/-- One start-up step of this start. -/
structure KStep where
  st : KState := .idle
  began : Nat := 0
  alt : Alt := 0
  ended : Nat := 0
deriving DecidableEq, Repr, Inhabited

/-- A port in start quarantine (R592, R593). -/
structure StartQ where
  quarantined : Bool := false
  trying : Bool := false
  attempts : Nat := 0
  nextAt : Nat := 0
deriving DecidableEq, Repr, Inhabited

/-- The stored training result of an HBM stack in the management die's flash (R603). -/
structure TrainSt where
  serial : BitVec 64 := 0
  result : Bytes := []
  hash : Digest := 0
deriving DecidableEq, Repr, Inhabited

/-- The present start (R584 to R604, R613). `warm` says that it is a warm start, or that recovery mode followed one; `trigger` is when it began; `triedBanks` has a bit for each bank that failed; `byCmd` holds the interface, identity, opcode and Sequence of the command that will end it (R751). -/
structure StartSt where
  kind : Nat := 0
  warm : Bool := false
  number : Nat := 0
  trigger : Nat := 0
  readyAt : Nat := 0
  duration : Nat := 0
  clean : Bool := false
  alts : Nat := 0
  triedBanks : Nat := 0
  steps : Tab KStep := []
  prevFailed : List (Nat × Nat) := []
  wave : Nat := 0
  waveEnd : Tab Nat := []
  quar : Tab StartQ := []
  recovMode : Nat := 0
  records : List StepRec := []
  copyBad : Bool := false
  warmAt : Option Nat := none
  offAt : Option Nat := none
  resetRecord : Bool := false
  byCmd : Nat × Nat × Nat × Nat := (0, 0, 0, 0)
  train : Tab TrainSt := []
deriving DecidableEq, Repr, Inhabited

/-- The round of fabric discovery that a module takes part in (R606 to R610). -/
structure DiscSt where
  round : Nat := 0
  highest : Nat := 0
  inRound : Bool := false
  gmSerial : Nat := 0
  roundStart : Nat := 0
  depth : Nat := 0
  from_ : Option LpId := none
  awaiting : List Nat := []
  entries : List ModEntry := []
  booting : Bool := false
  ready : Bool := false
  readyRound : Nat := 0
  readyEntries : List ModEntry := []
  endedAt : Option Nat := none
  children : List Nat := []
  newModule : Bool := false
  upPorts : List Nat := []
deriving DecidableEq, Repr, Inhabited

/-- The fuse array (R547). -/
structure Fuses where
  root : Digest := 0
  owners : Tab Digest := []
  programmed : Nat := 0
  revoked : Nat := 0
  rollback : Nat := 0
  serial : BitVec 64 := 0
  vendor : BitVec 16 := 0x1F5B
  policy : Byte := 0
  secret : BitVec 256 := 0
deriving DecidableEq, Repr, Inhabited

/-- One firmware part held in flash (R555, R557, R564). -/
structure Part where
  bytes : Bytes := []
  complete : Bool := false
  valid : Bool := false
  stager : Option Route := none
deriving DecidableEq, Repr, Inhabited

/-- One copy of the board table in flash (R49, R555, R566). -/
structure TableCopy where
  bytes : Bytes := []
  complete : Bool := false
  stager : Option Route := none
deriving DecidableEq, Repr, Inhabited

/-- Evidence held for one origin (R577). -/
structure Evidence where
  origin : Route := .firmware 0
  nonce : Bytes := []
  bytes : Bytes := []
  until_ : Nat := 0
deriving DecidableEq, Repr, Inhabited

/-- The security engine, the flash images, the takeover and the debug unlock (R550 to R582). -/
structure SecSt where
  measFs : Digest := 0
  measRt : Digest := 0
  measTbl : Digest := 0
  locked : Bool := false
  aliasSeed : Digest := 0
  newSeed : Option Digest := none
  parts : Tab Part := []
  tables : Tab TableCopy := []
  tableOk : Bool := false
  activeBank : Nat := 0
  fwActive : BitVec 32 := 0
  fwStandby : BitVec 32 := 0
  updating : Bool := false
  paused : Bool := false
  pausedAt : Nat := 0
  takeover : Nat := 0
  evidence : List Evidence := []
  challenge : Option (Bytes × Nat) := none
  unlock : Option (Nat × Nat) := none
deriving DecidableEq, Repr, Inhabited

/-- The state of a mailbox slot (R507). -/
inductive SlotState where
  | free | posted | running | done
deriving DecidableEq, Repr, Inhabited

/-- A tenant mailbox (R530 to R532): its bytes at page offsets 0x2000 to 0x2FFF and its two registers. -/
structure TenMbx where
  cells : List Host.Cell := []
  db : Bool := false
  run : Bool := false
  done : Bool := false
  origin : Handle := 0
  ignored : Nat := 0
deriving DecidableEq, Repr, Inhabited

/-- The mailbox registers of BAR0 and BAR2's memory (R502, R506). -/
structure MbxSt where
  slots : Tab SlotState := []
  irqEn : BitVec 16 := 0xFFFF
  ignored : BitVec 32 := 0
  evtProd : BitVec 32 := 0
  evtCons : BitVec 32 := 0
  evtLost : BitVec 32 := 0
  bar2 : List Host.Cell := []
  masked : BitVec 64 := 0xFFFFFFFFFFFFFFFF
  pba : BitVec 64 := 0
  msixTable : List Host.Cell := []
deriving DecidableEq, Repr, Inhabited

/-- A waiting request that came over I3C (R528). -/
structure I3cReq where
  eid : Byte := 0
  tag : Byte := 0
  bytes : Bytes := []
deriving DecidableEq, Repr, Inhabited

/-- The I3C target (R497, R527 to R529). -/
structure I3cSt where
  dynAddr : Option (BitVec 7) := none
  queue : List I3cReq := []
  times : List Nat := []
  lastIbi : Option Nat := none
deriving DecidableEq, Repr, Inhabited

/-- What a running command waits for before its completion is written (R509). -/
inductive Wait where
  | delta (seq : Nat)
  | drain
  | resetDrain
  | dreyFlush
  | dirtyCap
  | gateDrain (ruleSet : Handle)
  | bindGone (b : Handle)
  | domain (d : Nat) (queued : Bool)
  | takeover
  | openScope (scope minutes : Nat)
  | journalSet (seq : Nat)
  | timeGate (lp : Nat)
  | eyescan (session : Handle)
  | mediated (ev : Nat)
  | gateLease (h : Handle)
  | ruleSwap (ruleSet : Handle)
  | ruleRecall (ruleSet : Handle)
deriving DecidableEq, Repr, Inhabited

/-- A command that runs and whose completion is not written yet (R498, R509, R511). -/
structure Running where
  req : Req
  opcode : Nat
  accepted : Nat
  waits : List Wait
  status : Status := .ok
  related : Handle := 0
  detail : Nat := 0
  payload : Bytes := []
  h1 : Handle := 0
  h2 : Handle := 0
  reads : Bool := false
  staged : Bool := false
  discard : Bool := false
deriving DecidableEq, Repr

/-- The command engine of the Sett (R498): the acceptance order of the three queues, the turn, and what runs. -/
structure CmdSt where
  peQueue : List Nat := []
  tenQueue : List Nat := []
  turn : Nat := 0
  running : List Running := []
deriving DecidableEq, Repr, Inhabited

/-- What leaves the device or reaches its outside: the model's own record, newest first (DESIGN CHOICE, assumption 100). -/
inductive Out where
  | flit (lp : Nat) (lanes : List (Nat × Bytes))
  | frame (lp : Nat) (f : Frame)
  | cxl (lp : Nat) (m : CxlMsg)
  | msix (vec : Nat)
  | hostIrq (lp : Nat) (vec : Nat)
  | i3c (eid tag : Byte) (body : Bytes)
  | ibi (data : Byte)
  | sicLine (pair : Nat)
  | hbm (stack : Nat) (addr : Nat) (write : Line) (side : BitVec 64)
  | debug (data : Option Line)
  | regRead (v : Nat)
  | page (data : Bytes)
  | marker (lane num : Nat) (inv : Bool)
  | eqAdvert (lp fs lf : Nat) (bypass : Bool)
  | eqPreset (lane gts preset : Nat)
  | eqReply (lane : Nat) (accepted : Bool)
  | cxlAgain (lp seq : Nat) (m : CxlMsg)
  | margin (lp lane : Nat) (ready : Bool)
  | marginErrors (lp lane errors : Nat)
  | gpf (lp phase : Nat)
deriving DecidableEq, Repr
/-- The table of `port.configure` (R521). Mode 1 is Den and 2 CXL; role 1 host-facing, 2 device-facing, 3 fabric (DEDUCED, assumption 28). -/
structure PortCfg where
  mode : Nat := 1
  width : Nat := 8
  role : Nat := 1
  twin : Nat := 0
  twinNamed : Bool := false
  failback : Bool := true
  ignorePresent : Bool := false
  fwd : Nat := 2
  crcLimit : Nat := 65
  cwLimit : Nat := 4
  protoLimit : Nat := 8
  window : Nat := 1000000
  thresholds : List Nat := [8, 8, 16, 16, 8, 1024, 4, 8]
  respTimeout : Nat := 2000000
  mergeTimeout : Nat := 2000000
  freezeLimit : Nat := 10000000
  credits : List Nat := [640, 640, 256, 640, 768, 768, 128, 256]
deriving DecidableEq, Repr, Inhabited

/-- The link states that `port.status` reports (R520). -/
inductive Link where
  | disabled | training | up | probation | quarantined | outOfService
deriving DecidableEq, Repr, Inhabited

/-- The Den power states (R77). -/
inductive Dl where
  | dl0 | dl1 | dl2
deriving DecidableEq, Repr, Inhabited

/-- One lane (R31, R33 to R35, R41 to R44, R46, R54 to R56, R59, R65): its lock, its last headers (newest first), whether its transmitter and its receiver invert, the number that its partner's lane bears modulo the width, its frozen coefficients, what a CXL partner's preset or coefficient request set its transmitter to, and what the survey wrote of it into the table draft, by set × 3 + point. -/
structure LaneSt where
  txInv : Bool := false
  rxInv : Bool := false
  num : Nat := 0
  txPreset : Option Nat := none
  txCoeffs : List Nat := []
  locked : Bool := false
  streak : Nat := 0
  headers : List Bool := []
  huntSince : Option Nat := none
  coeffs : List Int := []
  draft : Tab (List Int) := []
deriving DecidableEq, Repr, Inhabited

/-- A port's contacts and its arbiter-side settings (R84 to R90, R220). -/
structure PortSt where
  prsntHigh : Bool := true
  prsntSince : Nat := 0
  present : Bool := false
  intLow : Bool := false
  clkreqLow : Bool := false
  clkreqOut : Bool := false
  rstLow : Bool := true
  lpmode : Bool := true
  freeze : Bool := false
deriving DecidableEq, Repr, Inhabited

/-- One sequenced flit held for replay (R115, R121): its type, its payload, when it may be retransmitted again, the frames that end in it with the place of each SOF, and whether it also holds a segment of a frame that has not ended (R140). -/
structure RepSlot where
  seq : Nat := 0
  ctrl : Bool := false
  payload : Bytes := []
  holdoff : Nat := 0
  sofs : List (Nat × Nat) := []
  frames : List Frame := []
  open_ : Bool := false
deriving DecidableEq, Repr, Inhabited

/-- A frame on its way into flits: its channel, the bytes not yet placed, whether a segment of it was placed and where its SOF stands, and, while it crosses under cut-through and is not whole, how many of its bytes are there, from which logical port, and which original (R100, R140, R204, R208). -/
structure TxFrame where
  f : Frame := {}
  rest : Bytes := []
  begun : Bool := false
  sof : Nat × Nat := (0, 0)
  early : Bool := false
  avail : Nat := 0
  src : Nat := 0
  orig : Nat := 0
deriving DecidableEq, Repr, Inhabited

/-- The sending side of a Den link (R45, R114 to R118, R121 to R123): `lastTo` is when the replay timer last expired, `ackSent` the last ACK that a flit carried, `on` that the transmitter runs, and `pos` the flits sent since the last alignment marker. -/
structure DenTx where
  next : Nat := 0
  unacked : Nat := 0
  replay : List RepSlot := []
  retx : List Nat := []
  lastAdv : Nat := 0
  lastTo : Nat := 0
  ackSent : Nat := 0xFFFF
  on : Bool := false
  pos : Nat := 0
  frames : List TxFrame := []
  ctrls : List CtrlMsg := []
  times : List TimeMsg := []
  credOwed : List Nat := [0, 0, 0, 0, 0, 0, 0, 0]
  credits : List Nat := [0, 0, 0, 0, 0, 0, 0, 0]
  rtt : Nat := 0
  fullSince : Option Nat := none
deriving DecidableEq, Repr, Inhabited

/-- A flit held for resequencing (R119). -/
structure RxFlit where
  seq : Nat := 0
  ctrl : Bool := false
  payload : Bytes := []
deriving DecidableEq, Repr, Inhabited

/-- The receiving side of a Den link (R119, R120, R100, R107): ACK, the highest number known sent, the resequencing buffer, the frames in progress by channel, and the credits still open by channel; `pos` counts the flits since the partner's last alignment marker, and `bad` holds the ranges of those that an uncorrectable codeword condemned (R97); `early` names the frames that were taken before they were whole, with their originals (R204). -/
structure DenRx where
  pos : Nat := 0
  bad : List (Nat × Nat) := []
  ack : Nat := 0xFFFF
  known : Nat := 0xFFFF
  held : List RxFlit := []
  partials : Tab Bytes := []
  active : Nat := 0
  early : List (Nat × Nat) := []
  open_ : List Nat := [0, 0, 0, 0, 0, 0, 0, 0]
deriving DecidableEq, Repr, Inhabited

/-- Den initialisation (R109 to R112, R145): `retrain` is 1 or 2 while this end asks for a retrain or a width change and 3 or 4 while one runs; `want` is the width that the partner's WIDTH_REQ asked for (R138). -/
structure DenInit where
  step : Nat := 0
  began : Nat := 0
  hellos : Nat := 0
  attempts : Nat := 0
  resume : Bool := false
  peer : InitMsg := { subtype := 0 }
  gotDone : Bool := false
  retrain : Nat := 0
  want : Nat := 0
  reqAt : Option Nat := none
  held : Bool := false
  holdFor : Bool := false
deriving DecidableEq, Repr, Inhabited

/-- Which input a crossbar request comes from (R215). -/
inductive XIn where
  | port (lp : Nat)
  | slice (i : Nat)
  | sett
deriving DecidableEq, Repr, Inhabited

/-- A frame in an egress queue: whether all of it has arrived, how many bytes have, what it started as (R205, R207), and the original in the ingress buffer. -/
structure QFrame where
  f : Frame := {}
  whole : Bool := true
  avail : Nat := 0
  sf : Bool := false
  src : XIn := .sett
  since : Nat := 0
  id : Nat := 0
  crossing : Bool := false
  deferred : Bool := false
  orig : Nat := 0
deriving DecidableEq, Repr, Inhabited

/-- A failover of a Den port (R139 to R143, R753 to R755): which step it has reached and what was frozen. -/
structure Failover where
  step : Nat := 0
  t0 : Nat := 0
  via : Nat := 0
  sentAt : Nat := 0
  lastDelivered : Nat := 0
  frozen : List RepSlot := []
  frozenUna : Nat := 0
  rest : List TxFrame := []
  frozenNext : Nat := 0
  held : List QFrame := []
  moved : List Nat := []
  returning : Bool := false
  sentFailback : Bool := false
deriving DecidableEq, Repr, Inhabited

/-- The link of one logical port: configuration, the twin, twin flag and credits that wait for the next link-up (R521), link state, power state and error windows (R57, R77 to R83, R88 to R90, R126 to R136, R149). `dlReq` is 1 or 2 while this end asks for DL1 or DL2, 3 while a DL2 request waits for an exit, and 4 once DL1 is agreed; `rate` is the code of `port.status`; `pooled` says that the credits of a checked pair form one pool (R108); `huntFrom` is since when some lane has hunted without a break. -/
structure LpSt where
  cfg : PortCfg := {}
  next : Option (Nat × Bool × List Nat) := none
  link : Link := .disabled
  width4 : Option (Fin 2) := none
  lidAtUp : Int := 0
  driftRaised : Bool := false
  dl : Dl := .dl0
  dlExit : Option Nat := none
  dlReq : Nat := 0
  dl1Barred : Bool := false
  idle : Nat := 50000
  lastFlit : Nat := 0
  downs : List Nat := []
  sinceUpDown : Bool := true
  wentDown : Bool := false
  probation : Option Nat := none
  twinBad : Bool := false
  pooled : Bool := false
  partner : Nat := 0
  rate : Nat := 0
  aspmEn : Bool := false
  l11En : Bool := false
  l1 : Bool := false
  l11 : Bool := false
  huntFrom : Option Nat := none
  idleUntil : Option Nat := none
deriving DecidableEq, Repr, Inhabited

/-- The error and violation windows of a logical port (R126, R131, R176): the times of what each counted, newest first. -/
structure WinSt where
  crc : List Nat := []
  cw : List Nat := []
  proto : List Nat := []
  viol : Tab (List Nat) := []
  lastEvent : Tab Nat := []
  viral : Bool := false
deriving DecidableEq, Repr, Inhabited

/-- Who asked for what went out on a port (R131, R177). -/
inductive Asker where
  | frame (f : Frame)
  | slice (i : Nat) (trk : Nat)
  | sliceWrite (i : Nat) (line : Nat)
  | posted (f : Frame)
  | flush
  | none_
deriving DecidableEq, Repr, Inhabited

/-- A request that is outstanding towards a partner (R131, R177): its tag, when it was sent, whether it reads, who asked, and whether it went as CXL.io. -/
structure OutReq where
  tag : Nat := 0
  sid : Nat := 0
  at_ : Nat := 0
  read : Bool := false
  asker : Asker := .none_
  binding : Handle := 0
  addr : Nat := 0
  since : Nat := 0
  io : Bool := false
deriving DecidableEq, Repr, Inhabited

/-- The flit modes of a CXL link (R158, R167). -/
inductive FlitMode where
  | standard | latencyOptimised | flit68
deriving DecidableEq, Repr, Inhabited

/-- The CXL side of a logical port (R158, R163 to R171, R176): the flit mode and whether the partner takes selective NAKs; the number of the next flit, the flits kept for replay and the messages that wait for a place there or for credits, oldest first; the number of the last flit received in order and the flits held out of order; the partner's logical devices in use; the CXL.cache transactions outstanding by CacheID and CQID; the credits of each channel, the requests outstanding towards a device, the next tag, a host's requests by tag and kind, and the BISnp outstanding to a host by tag and opcode. -/
structure CxlSt where
  mode : FlitMode := .standard
  selNak : Bool := false
  txSeq : Nat := 1
  replay : List (Nat × CxlMsg) := []
  waiting : List CxlMsg := []
  rxSeq : Nat := 0
  held : List (Nat × CxlMsg) := []
  lds : Nat := 0
  cq : List (Nat × Nat) := []
  credits : Tab Nat := []
  used : Tab Nat := []
  out : List OutReq := []
  nextTag : Nat := 0
  hostReqs : List (Nat × Nat) := []
  bisnp : List (Nat × Nat) := []
deriving DecidableEq, Repr, Inhabited

/-- Where a crossbar request goes: an output logical port or a slice input (R215). -/
inductive XOut where
  | lp (n : Nat)
  | slice (i : Nat)
deriving DecidableEq, Repr, Inhabited

/-- A frame that asks for the crossbar (R204, R205, R212, R219, R221); `off` is where the part of a write that passed a gate starts in its original's payload (R474). -/
structure XReq where
  id : Nat := 0
  f : Frame := {}
  src : XIn := .sett
  dst : XOut := .lp 0
  arrived : Nat := 0
  sf : Bool := false
  revoked : Nat := 0
  since : Nat := 0
  orig : Nat := 0
  off : Nat := 0
deriving DecidableEq, Repr, Inhabited

/-- A crossbar arbiter (R215 to R219, R291): the requester after the last one granted at each level, the transfer in progress, and when it was granted. -/
structure ArbSt where
  next : Tab Nat := []
  lastHalf : Bool := false
  cur : Option XReq := none
  at_ : Nat := 0
deriving DecidableEq, Repr, Inhabited

/-- A RED profile (R231). -/
structure RedProfile where
  minT : Nat := 0
  maxT : Nat := 0
  p : Nat := 0
deriving DecidableEq, Repr, Inhabited

/-- One egress queue (R199 to R202, R228 to R234). The average depth has 16 fractional bits. -/
structure QueueSt where
  frames : List QFrame := []
  avg : Nat := 0
  emptySince : Nat := 0
  deficit : Nat := 0
  w : Nat := 9
  green : RedProfile := ⟨1024, 2048, 32⟩
  yellow : RedProfile := ⟨512, 1536, 64⟩
  red : RedProfile := ⟨128, 768, 128⟩
  minCells : Nat := 128
  k : Int := 0
deriving DecidableEq, Repr, Inhabited

/-- The egress scheduler of a logical port (R199, R202): its queue map (nibble 8k + p) and the queue it serves next. -/
structure EgressSt where
  qmap : List Nat := []
  next : Nat := 6
  visited : Bool := false
deriving DecidableEq, Repr, Inhabited

/-- A multicast group (R210). -/
structure McastSt where
  members : List (Nat × Nat) := []
deriving DecidableEq, Repr, Inhabited

/-- A completion merge of a replicated BWRITE (R213). -/
structure Merge where
  id : Nat := 0
  req : Frame := {}
  lp : Nat := 0
  members : List Nat := []
  statuses : List Nat := []
  epoch : Nat := 0
  deadline : Nat := 0
deriving DecidableEq, Repr, Inhabited

/-- An original that waits in the ingress buffer until its last copy has crossed (R212, R227). -/
structure OrigSt where
  left : Nat := 0
  lp : Nat := 0
  chan : Nat := 0
  cells : Nat := 0
  cxl : Bool := false
deriving DecidableEq, Repr, Inhabited

/-- What holds the new frames of a destination: an ordered route change (R198), step F1 of a failover (R139), a failback (R142), whose frames wait in their egress queues, or a retrain that `port.retrain` asks for (R148). -/
inductive HoldWhy where
  | route | failover | failback | retrain
deriving DecidableEq, Repr, Inhabited

/-- The hold of a destination: why, until when an ordered route change waits at most, from which logical port, and the frames held, the oldest first. -/
structure RouteHold where
  why : Option HoldWhy := none
  until_ : Nat := 0
  oldLp : Nat := 0
  frames : List XReq := []
deriving DecidableEq, Repr, Inhabited

/-- The switch core (R183 to R237). -/
structure SwSt where
  routes : Tab Nat := []
  holds : Tab RouteHold := []
  groups : Tab McastSt := []
  merges : List Merge := []
  origs : Tab OrigSt := []
  reqs : List XReq := []
  nextId : Nat := 1
  arbs : Tab ArbSt := []
  queues : Tab QueueSt := []
  egress : Tab EgressSt := []
  notices : Tab (Option Nat) := []
deriving DecidableEq, Repr, Inhabited

/-- A meter (R242, R246). The buckets are in bytes with 24 fractional bits. -/
structure MeterSt where
  cir : Nat := 0
  pir : Nat := 0
  cbs : Nat := 0
  pbs : Nat := 0
  aware : Bool := false
  die : Nat := 0
  tc : Nat := 0
  tp : Nat := 0
  last : Nat := 0
deriving DecidableEq, Repr, Inhabited

/-- What a meter is attached to (R243): a binding by index, or a fabric logical port. -/
inductive MeterOn where
  | binding (h : Handle)
  | lp (n : Nat)
deriving DecidableEq, Repr, Inhabited

/-- Shaper parameters (R254). -/
structure ShaperPar where
  rate : Nat := 0
  burst : Nat := 0
  toFull : Bool := false
  throttle : Bool := true
  d : Nat := 3
  f : Nat := 6
  recov : Nat := 50000
deriving DecidableEq, Repr, Inhabited

/-- A shaper (R252 to R268). Tokens are bytes with 24 fractional bits; Re is kbit/s with 24 fractional bits. -/
structure ShaperSt where
  configured : Bool := false
  par : ShaperPar := {}
  tokens : Int := 0
  re : Nat := 0
  started : Bool := false
  lastDec : Option Nat := none
  lastNotice : Nat := 0
  pendingPar : Option ShaperPar := none
deriving DecidableEq, Repr, Inhabited

/-- A request on a binding's hold list (R263). -/
structure HeldReq where
  f : Frame := {}
  lp : Nat := 0
  arrived : Nat := 0
  len : Nat := 0
  at_ : Nat := 0
  orig : Nat := 0
deriving DecidableEq, Repr, Inhabited

/-- One copy of a slot table (R270). -/
structure SlotTab where
  base : Nat := 0
  slots : List (Nat × Nat) := []
deriving DecidableEq, Repr, Inhabited

/-- The time gates of a logical port (R270 to R283): which copy is active, copy 0 from reset (DESIGN CHOICE, assumption 77), and whether a committed table runs yet (R275). -/
structure TgSt where
  copy0 : SlotTab := {}
  copy1 : SlotTab := {}
  active : Bool := false
  live : Bool := false
  committed : Option Nat := none
  openUntil : Option Nat := none
deriving DecidableEq, Repr, Inhabited

/-- Meters, shapers, hold lists and time gates (R238 to R288, R756). -/
structure TmSt where
  meters : Tab MeterSt := []
  attached : List (MeterOn × Nat × Handle) := []
  shapers : Tab ShaperSt := []
  held : Tab (List HeldReq) := []
  gates : Tab TgSt := []
  suspended : Bool := false
  refilled : Nat := 0
deriving DecidableEq, Repr, Inhabited

/-- The ports, lanes and links (chapters on lanes, Den and CXL). `fallen` lists the links that this step takes down, with the reason, until the step's end carries it out. -/
structure NetSt where
  ports : Tab PortSt := []
  lanes : Tab LaneSt := []
  lps : Tab LpSt := []
  wins : Tab WinSt := []
  tx : Tab DenTx := []
  rx : Tab DenRx := []
  init : Tab DenInit := []
  fail : Tab Failover := []
  cxl : Tab CxlSt := []
  denOut : Tab (List OutReq) := []
  fallen : List (Nat × Nat) := []
deriving DecidableEq, Repr, Inhabited
/-- A directory entry as stored (R301); `echk` is the stored check. -/
structure DirEntry where
  la : Nat := 0
  st : Nat := 0
  coarse : Bool := false
  nptr : Nat := 0
  fidx : Nat := 0
  fv : Bool := false
  px : Bool := false
  ref : Bool := false
  shr : BitVec 32 := 0
  trk : Nat := 0
  echk : BitVec 16 := 0
deriving DecidableEq, Repr, Inhabited

/-- A snoop answer that is still due (R306, R319, R325): from which logical port, to which snoop, until when, and whether a notice of that agent was applied during the flow. -/
structure Due where
  lp : Nat := 0
  op : Nat := 0
  deadline : Nat := 0
  noticed : Bool := false
deriving DecidableEq, Repr, Inhabited

/-- What a tracker's flow is doing (R293, R303, R307, R316, R324, R329, R350, R365, R370): it waits on a conflict list, for its directory set, a way, the cap, a flush or a region; it recalls a victim, its own line's holders or a failed entry; it runs; or it waits for a write to memory. -/
inductive Phase where
  | conflict | waitSet | waitWay | waitCap | waitFlush | waitRegion | victim | recover | holders | run | memWrite
deriving DecidableEq, Repr, Inhabited

/-- A tracker (R296) with its flow: the request, the way its entry holds, the answers due, and the data it needs, asked for and has. `grant` is what the home of a proxied line granted: 0 nothing, 1 S, 2 ownership. `asked` is 0 nothing, 1 the Drey, 2 waiting for a write to memory, 3 memory. -/
structure Trk where
  used : Bool := false
  line : Nat := 0
  lp : Nat := 0
  f : Frame := {}
  phase : Phase := .conflict
  way : Option Nat := none
  due : List Due := []
  need : Bool := false
  asked : Nat := 0
  data : Option Line := none
  poison : Bool := false
  goE : Bool := false
  bulk : Bool := false
  wthru : Bool := false
  fwd : Bool := false
  recLine : Nat := 0
  recWay : Nat := 0
  recOwn : Bool := false
  grant : Nat := 0
  gotDirty : Bool := false
  old : Bytes := []
  since : Nat := 0
deriving DecidableEq, Repr, Inhabited

/-- A snoop from the home of a proxied line that waits for the proxy's own holders (R300): the snoop, the tag of the local snoops, the holders that still owe an answer, and what the answers brought. -/
structure PxSnoop where
  f : Frame := {}
  lp : Nat := 0
  tag : Nat := 0
  due : List Nat := []
  held : Bool := false
  data : Option Line := none
  dirty : Bool := false
  keptS : Bool := false
deriving DecidableEq, Repr, Inhabited

/-- A Brock slice (R289 to R329, R353 to R357): its trackers, the conflict lists in order, its directory store by set × 16 + way, the sets its SRAM holds (most recent first), the sets whose read is outstanding with the trackers that wait, the lines held for a memory write, the write-backs whose CMP waits for memory, its lost mask, the sweeps under way, the trackers ready to start, the recalls of a line from one agent that wait for a tracker (R455, R485), and the snoops that it answers as a proxy (R300). -/
structure SliceSt where
  trks : Tab Trk := []
  conflicts : List (Nat × Nat) := []
  dir : Tab DirEntry := []
  cached : Tab (List Nat) := []
  misses : List (Nat × List Nat) := []
  memHold : List Nat := []
  wbWait : List (Nat × Nat × Frame) := []
  lost : BitVec 256 := 0
  sweeps : List Nat := []
  fullSince : Option Nat := none
  ready : List Nat := []
  recalls : List (Nat × Nat) := []
  px : List PxSnoop := []
  pxNext : Nat := 0
deriving DecidableEq, Repr, Inhabited

/-- What `coh.configure` sets (R298, R325) and the windows of the snoop timeouts. -/
structure CohCfg where
  snoopTimeout : Nat := 1000000
  enabled : Tab Bool := []
  threshold : Tab Nat := []
  winTimes : Tab (List Nat) := []
  lastEvent : Tab Nat := []
  flushHold : Bool := false
deriving DecidableEq, Repr, Inhabited

/-- A Drey way (R339) with its line. -/
structure DreyWay where
  tag : Nat := 0
  v : Bool := false
  d : Bool := false
  p : Bool := false
  x : Bool := false
  age : Nat := 0
  data : Line := 0
deriving DecidableEq, Repr, Inhabited

/-- One stack region (R332, R363, R365): 0 live, 1 failing, 2 retired to bypass, 3 relocated, 4 holding a relocated region; and the region that holds its content plus one when it was moved. -/
structure Region where
  st : Nat := 0
  mapped : Nat := 0
deriving DecidableEq, Repr, Inhabited

/-- A Drey controller and its stack (R332 to R373). -/
structure DreySt where
  ways : Tab DreyWay := []
  cleaning : Bool := false
  cleanPos : Nat := 0
  capHold : Bool := false
  capSince : Nat := 0
  issued : List Nat := []
  regions : Tab Region := []
  rowErrs : Tab Nat := []
  spares : Tab Nat := []
  relocs : Nat := 0
  moving : Option (Nat × Nat × Nat) := none
  periodStart : Nat := 0
  moveQueue : List Nat := []
deriving DecidableEq, Repr, Inhabited

/-- A tenant (R439). -/
structure Tenant where
  live : Bool := false
  prio : Nat := 0
  strict : Bool := false
  bindQuota : Nat := 64
  ruleQuota : Nat := 256
  setQuota : Nat := 4
  leaseQuota : Nat := 1
  rate : Nat := 100
  times : List Nat := []
deriving DecidableEq, Repr, Inhabited

/-- A slice of fabric memory (R443) with its read-fill flag (R341). -/
structure SliceRec where
  live : Bool := false
  owner : Handle := 0
  base : Nat := 0
  len : Nat := 0
  target : Nat := 0
  coherent : Bool := false
  persistent : Bool := false
  locked : Bool := false
  readFill : Bool := true
deriving DecidableEq, Repr, Inhabited

/-- The control registers of a binding's notice ring and the ring (R463, R476). -/
structure NtcRing where
  prod : BitVec 32 := 0
  cons : BitVec 32 := 0
  drop : BitVec 32 := 0
  ring : Tab Notice := []
  lostWrites : Nat := 0
deriving DecidableEq, Repr, Inhabited

/-- A binding (R447) with what the ingress module keeps for it (R410, R455) and its marks (R170). -/
structure Binding where
  live : Bool := false
  tenant : Handle := 0
  slice : Handle := 0
  lp : Nat := 0
  pasid : Nat := 0
  wbase : Nat := 0
  len : Nat := 0
  off : Nat := 0
  recv : Nat := 0
  peer : Nat := 0
  page : Nat := 0
  irq : Bool := false
  faulted : Bool := false
  restored : Bool := false
  step : Nat := 0
  lastEpoch : Nat := 0
  highEpoch : Nat := 0
  posted : Nat := 0
  lightMark : Option Nat := none
  redMark : Option Nat := none
deriving DecidableEq, Repr, Inhabited

/-- A rule set (R479 to R485, R757): committed and staged rules, and its commit that waits for a swap tick. -/
structure RuleSet where
  live : Bool := false
  owner : Handle := 0
  committed : List (BitVec 128) := []
  staged : List (BitVec 128) := []
  next : List (BitVec 128) := []
  swapAt : Option Nat := none
  withRecall : Bool := false
  destroying : Bool := false
  lastSwap : Nat := 0
  awaitDrain : Bool := false
  recallLps : List Nat := []
deriving DecidableEq, Repr, Inhabited

/-- An access gate (R466, R475, R484): its mode, the swap ticks whose older accesses are still in flight, and its last swap tick. -/
structure GateSt where
  firstByte : Bool := false
  inFlight : List Nat := []
  lastSwap : Nat := 0
deriving DecidableEq, Repr, Inhabited

/-- One staged command of a lease (R487): the request and the handle that a staged creation reserves. -/
structure Staged where
  req : Req
  opcode : Nat
  payload : Bytes
  reserved : Handle := 0
deriving DecidableEq, Repr

/-- A lease (R486 to R488). -/
structure Lease where
  live : Bool := false
  owner : Route := .firmware 0
  objects : List Handle := []
  term : Nat := 1000000000
  named : Nat := 0
  lostAt : Option Nat := none
  staged : List Staged := []
  committing : Bool := false
  tenant : Handle := 0
deriving DecidableEq, Repr, Inhabited

/-- The life of one handle index (R8, R11): whether an object holds it, whether one ever did, and its generation. -/
structure ObjSt where
  live : Bool := false
  used : Bool := false
  gen : Byte := 0
deriving DecidableEq, Repr, Inhabited

/-- What a session holds (R524). -/
inductive SessRes where
  | prbs (lp mask pattern : Nat) (gen chk : Bool)
  | eyescan (die : Nat)
  | margin (die lp lane : Nat)
  | clkobs
  | gpio (pin : Nat)
  | group
deriving DecidableEq, Repr, Inhabited

/-- A session (R524): its owner and its resource. -/
structure Session where
  live : Bool := false
  owner : Route := .firmware 0
  res : SessRes := .group
  until_ : Nat := 0
deriving DecidableEq, Repr, Inhabited

/-- A `bind.create` passed to the fabric manager in mediated mode (R458). -/
structure MedReq where
  ev : Nat := 0
  tenant : Handle := 0
  deadline : Nat := 0
  payload : Bytes := []
  open_ : Bool := true
deriving DecidableEq, Repr, Inhabited

/-- A mediated-mode translation entry (R459) by bucket × 16 + index (DEDUCED, assumption 99). -/
structure XlatEntry where
  lp : Nat := 0
  pasid : Nat := 0
  hg : Nat := 0
  v : Bool := false
  f : Bool := false
  bind : Nat := 0
  fg : Nat := 0
deriving DecidableEq, Repr, Inhabited

/-- Who reads a binding page: the operation BINDING_PAGE_ACCESS or DURABLE_EPOCH_BLOCK_READ, a Den request, or a CXL.io request by its port and tag. -/
inductive PageReader where
  | host | den (f : Frame) | cxl (lp tag : Nat)
deriving DecidableEq, Repr, Inhabited

/-- A read of a durable-epoch block that waits for the binding's earlier posted writes (R410): the binding index, who reads, the offset and the length. -/
structure PageRead where
  idx : Nat := 0
  who : PageReader := .host
  off : Nat := 0
  len : Nat := 0
deriving DecidableEq, Repr, Inhabited

/-- Tenants, slices, bindings, rule sets, gates, leases and sessions. -/
structure TenSt where
  objs : Tab ObjSt := []
  tenants : Tab Tenant := []
  slices : Tab SliceRec := []
  bindings : Tab Binding := []
  rings : Tab NtcRing := []
  ruleSets : Tab RuleSet := []
  leases : Tab Lease := []
  sessions : Tab Session := []
  mediated : Bool := false
  medReqs : List MedReq := []
  xlat : Tab XlatEntry := []
  xcache : Tab (List Nat) := []
  gates : Tab GateSt := []
  defaultMap : List (Nat × Nat) := [(0, 2 ^ 52)]
  open_ : List Notice := []
  mbxs : Tab TenMbx := []
  pageReads : List PageRead := []
  debugTimes : List Nat := []
deriving DecidableEq, Repr, Inhabited

/-- The configuration image (R427): what a checkpoint holds. -/
structure CfgImage where
  objs : Tab ObjSt := []
  tenants : Tab Tenant := []
  slices : Tab SliceRec := []
  bindings : Tab Binding := []
  ruleSets : Tab RuleSet := []
  mediated : Bool := false
  meters : Tab MeterSt := []
  attached : List (MeterOn × Nat × Handle) := []
  shapers : Tab ShaperSt := []
deriving DecidableEq, Repr, Inhabited

/-- The object's image in a delta (R426): its type's record as stored after the command, by handle index. -/
inductive DeltaObj where
  | tenant (idx : Nat) (r : Tenant) (o : ObjSt)
  | slice (idx : Nat) (r : SliceRec) (o : ObjSt)
  | binding (idx : Nat) (r : Binding) (o : ObjSt)
  | ruleSet (idx : Nat) (r : RuleSet) (o : ObjSt)
  | none_
deriving DecidableEq, Repr, Inhabited

/-- The body of a drain or hibernate record (R428). -/
structure DrainBody where
  pfail : Nat := 0
  flushDone : Nat := 0
  finalEpoch : Nat := 0
  finalDurable : Nat := 0
  dAt0 : Nat := 0
  lines : Nat := 0
  lost : Nat := 0
  checkpoint : Nat := 0
  dirtyCap : Nat := 0
  flags : Nat := 0
  targets : List (Nat × FlushOutcome × Nat × Nat) := []
  notices : List Notice := []
  overflow : Nat := 0
deriving DecidableEq, Repr, Inhabited

/-- The body of a journal record by its type (R425 to R428). -/
inductive JBody where
  | mark
  | delta (opcode : Nat) (obj : DeltaObj)
  | checkpoint (area : Nat) (image : CfgImage)
  | drain (b : DrainBody)
  | hibernate (b : DrainBody)
deriving DecidableEq, Repr, Inhabited

/-- A journal record (R423), which devices hold it durably, and whether reading found it damaged. -/
structure JRec where
  seq : Nat := 0
  blocks : Nat := 1
  written : Nat := 0
  epoch : Nat := 0
  durable : Nat := 0
  prev : Digest := 0
  hash : Digest := 0
  trailer : Bytes := []
  body : JBody := .mark
  bad : Bool := false
  prim : Bool := false
  mirr : Bool := false
deriving DecidableEq, Repr, Inhabited

/-- The durability journal (R421 to R431), records newest first. -/
structure JournalSt where
  set_ : Bool := false
  primDid : Nat := 0
  mirrDid : Nat := 0
  primAddr : Nat := 0
  mirrAddr : Nat := 0
  primOk : Bool := true
  mirrOk : Bool := true
  degraded : Bool := false
  absent : Bool := false
  recs : List JRec := []
  nextSeq : Nat := 0
  sinceCkpt : Nat := 0
  area : Nat := 1
  lastMark : Nat := 0
  generation : Nat := 0
  moving : Option (Nat × Nat × Nat × Nat) := none
  ckptSeq : Nat := 0
deriving DecidableEq, Repr, Inhabited

/-- The states of a power domain (R616). -/
inductive Pd where
  | off | deep | sleep | on
deriving DecidableEq, Repr, Inhabited

/-- One power domain (R616 to R632, R647): its state, the transition in progress with its step, the queued request, its dwell and its error bits; a clock lost in step S2 keeps its ready signal away (R650), and `qWave` says that a start-up wave issued the queued request. -/
structure DomSt where
  st : Pd := .off
  target : Option Pd := none
  step : Nat := 0
  stepAt : Nat := 0
  queued : Option Pd := none
  offAt : Option Nat := none
  dwell : Bool := false
  ready : Nat := 0
  masked : Bool := true
  errs : Nat := 0
  began : Nat := 0
  lostClk : Bool := false
  qWave : Bool := false
deriving DecidableEq, Repr, Inhabited

/-- One clock domain (R635 to R641). -/
structure ClkSt where
  running : Bool := false
  loss : Bool := false
  hung : Bool := false
  primary : Bool := false
  switching : Bool := false
deriving DecidableEq, Repr, Inhabited

/-- Power, clocks and GPIO (R615 to R650, R520). -/
structure PwrSt where
  doms : Tab DomSt := []
  clks : Tab ClkSt := [(2, { running := true })]
  mode0 : BitVec 2 := 0
  mode1 : BitVec 2 := 0
  obsClk : Nat := 0
  obsN : Nat := 0
  obsOut : Nat := 0
  obsStopped : Bool := false
  obsSession : Handle := 0
  gpioMode : Tab Nat := []
  gpioLevel : Tab Nat := []
  trstN : Bool := false
  hbmRefresh : Tab Bool := []
deriving DecidableEq, Repr, Inhabited

/-- The states of a cage (R699). -/
inductive CageMode where
  | off | ramp | on | limit | tripped | latched | damaged
deriving DecidableEq, Repr, Inhabited

/-- A cage-power controller's cage (R695 to R717). -/
structure CageSt where
  st : CageMode := .off
  pg : Bool := false
  pgFrom : Option Nat := none
  timer : Option Nat := none
  ilim : Bool := false
  a0 : Nat := 0
  gateLowAt : Nat := 0
  cause : Nat := 0
  mA : Nat := 0
  mV : Nat := 0
  lastTrip : Nat := 0
  attempts : Nat := 0
  attempting : Bool := false
  attemptAt : Nat := 0
  wasEnabled : Bool := false
  limitAt : Nat := 0
deriving DecidableEq, Repr, Inhabited

/-- The parameters of a cage (R714). -/
structure CagePar where
  dvdt : Nat := 10
  timer : Nat := 5
  limit : Nat := 6000
  inrush : Nat := 2000
  retries : Nat := 0xFF
  rs : Nat := 50
deriving DecidableEq, Repr, Inhabited

/-- The cages (R695 to R717). -/
structure CagesSt where
  cages : Tab CageSt := []
  pars : Tab CagePar := []
deriving DecidableEq, Repr, Inhabited

/-- Thermal sensors (R743 to R745) and the lid estimates of the I/O dies (R54) in 0.1 °C. -/
structure ThermSt where
  junctions : List Int := []
  lids : List Int := []
  hbms : List Int := []
  hotRaised : Bool := false
  over120 : Bool := false
  tripN : Bool := true
deriving DecidableEq, Repr, Inhabited

/-- The module's pins that carry state (R20, R664, R726, R728). -/
structure PinSt where
  porstN : Bool := false
  vin12Low : Bool := false
  vinLowAt : Nat := 0
  alertN : Bool := true
  vaon : Bool := true
deriving DecidableEq, Repr, Inhabited

/-- The device (R503) and what its state changes need. -/
structure DevSt where
  st : DevState := .off
  drainStep : Nat := 0
  drainDone : Bool := false
  graveReq : Option (Nat × Nat) := none
  /-- The tick, and the state left, at which PFAIL_N took the device from Boot or Test to Off (R22). -/
  pfailOff : Option (Nat × DevState) := none
deriving DecidableEq, Repr, Inhabited

/-- Counters, performance slots, groups and bandwidth monitors (R683 to R691). -/
structure CtrSt where
  vals : Tab (BitVec 41) := []
  slots : List PerfSlot := []
  groups : Tab CtrGroup := []
  mons : Tab BwMon := []
deriving DecidableEq, Repr, Inhabited

/-- The whole machine. `free` counts the free values drawn so far and `outbox` lists what left the device, newest first: these two and `pending` are the model's own. -/
structure State where
  pending : List Instr := []
  dev : DevSt := {}
  ft : FtSt := {}
  io : FtIo := {}
  hoard : HoardSt := {}
  dur : DurSt := {}
  hib : HibSt := {}
  journal : JournalSt := {}
  log : LogSt := {}
  errs : Tab FirstErr := []
  sic : SicSt := {}
  ctr : CtrSt := {}
  hb : HbSt := {}
  grave : GraveSt := {}
  mbx : MbxSt := {}
  i3c : I3cSt := {}
  cmd : CmdSt := {}
  sec : SecSt := {}
  fuses : Fuses := {}
  ledger : Block := {}
  start : StartSt := {}
  disc : DiscSt := {}
  net : NetSt := {}
  sw : SwSt := {}
  tm : TmSt := {}
  slices : Tab SliceSt := []
  coh : CohCfg := {}
  drey : Tab DreySt := []
  scrubHours : Nat := 24
  ten : TenSt := {}
  pwr : PwrSt := {}
  cages : CagesSt := {}
  therm : ThermSt := {}
  pins : PinSt := {}
  free : Nat := 0
  outbox : List Out := []
deriving DecidableEq, Repr

/-- A stop with a fault: no command of this block ends in one, since every effect the manual names is modelled and every request it refuses is answered (safe). -/
inductive Fault where
  /-- Raised by no meaning; safe. -/
  | none_
deriving DecidableEq, Repr

/-- A refusal: only a command that has no meaning yet raises it. -/
inductive Refusal where
  /-- Raised by an arm of `exec` whose command is not modelled; safe. -/
  | notModelled (mnemonic : String)
deriving DecidableEq, Repr

/-- The machine at reset: the device Off with PORST_N low, every register at the value its rule states, and the values that the log names elsewhere. The command queue is empty (DESIGN CHOICE, assumption 26). -/
def State.reset : State := {}

end Sys2Proof.Machine
end

