-- ==== Sys2Proof/Machine/Ops.lean ====
section
/-! DEFINITION. The shared operations: time, free values, counters, interrupts, the Spoor log, events, first errors and device-state changes. -/

namespace Sys2Proof.Machine

/-- Fabric time in nanoseconds (R374, R376). -/
def now (s : State) : Nat := s.ft.acc.toNat / 2 ^ 32

/-- The 64-bit fabric-time count (R374). -/
def ftCount (s : State) : Nat := s.ft.acc.toNat / 2 ^ 16

/-- An instant in nanoseconds as a fabric-time count, with no fraction (R374, DEDUCED, assumption 20). -/
def ftOf (t : Nat) : Nat := t * 65536

/-- Something leaves the device. -/
def emit (o : Out) (s : State) : State := { s with outbox := o :: s.outbox }

/-- Draw a free value: nothing constrains it (DESIGN CHOICE, assumption 2). -/
def drawFree (s : State) : Nat × State := (Config.freeNat s.free, { s with free := s.free + 1 })

/-- The device state code (R503). -/
def DevState.code : DevState → Nat
  | .off => 0 | .boot => 1 | .test => 2 | .recovery => 3
  | .service => 4 | .drain => 5 | .hibernate => 6 | .grave => 7

/-- The code of a fault class (R652). -/
def EvClass.code : EvClass → Nat
  | .notice => 0 | .degraded => 1 | .severe => 2 | .grave => 3

/-- The code of a status (R514). -/
def Status.code : Status → Nat
  | .ok => 0 | .busy => 1 | .badHandle => 2 | .staleHandle => 3 | .noResource => 4
  | .denied => 5 | .badState => 6 | .conflict => 7 | .timeout => 8 | .partialDone => 9
  | .unsupported => 10 | .invalidArg => 11 | .authFail => 12 | .locked => 13

/-- The statistics counters of the manual's counter tables, in chapter order and row order (R71, R154, R176, R236, R287, R330, R372, R436, R494, R543, R649, R716), and after them what the manual counts outside a table. -/
inductive Ctr where
  | hdrValid | hdrInvalid | lockLoss | fecSym | fecCw | prbsBits | prbsErrs
  | flitsSent | flitsRecv | crcFailed | condemned | uncorrCw | retx | dups | replayTo | replayFull
  | protoErr | denRespTo | linkDowns | failovers | failbacks | denNear
  | creditOver | malformed | unexpected | mismatched | cohViol | decodeMiss | cxlRespTo | malTlp | viral | cxlDowns
  | qFrames | qBytes | marks | drops | tailDrops | revocations | pins | forcedSf | hchkFail | routeDisc
  | truncSent | truncRecv | freezeExp | maskedDisc
  | mtrFrames | mtrBytes | shHeld | shHeldTime | shDec | shNotApplied | shForeign | qBlocked
  | tgDeferred | tgOverrun | tgSwaps
  | lookups | conflicts | trkFull | snoops | notPresent | stale | upgOwn | coarseConv | victims
  | atomics | cohViolS | snoopTo | snoopNear | lostAns | poisonReads | entryFail
  | dHits | dMisses | dFills | dEvict | dDirtyEvict | cleanWb | capFlows | capTime | bypass
  | setHits | setMisses | emptySet | merged
  | corrected | uncorrected | rowsRepaired | regionsRetired
  | ftSteps | holdoverNs | annLoss | annNear | epochs | lagEpochs | epochWb | flushFail | jRecs | jFail | shortPfail
  | winMiss | refusals | ntcPosted | ntcDropped | ntcDiscarded
  | gChecks | gRefused | gSplit | gFirst | gRuleFail | gDebug | xHits | xMisses
  | leaseLapses | ignCons | disMsg | pageMiss
  | cmds | rateRef | ignDoorbell | i3cDisc | tenIgn | spoorRecs | sealsW | flashW | deadlineNear
  | domTrans | domRepl | domTimeout | sleepE | deepE | refDeep | clkLoss | clkHung | clkWd
  | cgTrips | cgLimit | cgLimitTime | cgRetries | cgRetryOk | cgRemoved | cgNear
  | poison | devLoadMod | devLoadSev | rateShort | cxlNear | swNear | hostDisc | mgDisc | throttleDisc
  | debugBeyond | secNear | discNear | respDisc | evictCoarse | dirtyDisc | heldDisc | hbNear | winIgn | throttleIdx
deriving DecidableEq, Repr

/-- The key of a counter in the table of values: its kind, its unit and its index within the row. -/
def ctrKey (k : Ctr) (unit idx : Nat) : Nat := (k.ctorIdx * 2 ^ 20 + unit) * 64 + idx

/-- Add to a 40-bit counter with its sticky WRAP bit at bit 40 (R683). -/
def ctrAdd (v : BitVec 41) (n : Nat) : BitVec 41 :=
  let c := v.toNat % 2 ^ 40 + n
  BitVec.ofNat 41 (c % 2 ^ 40 + (if v.getLsbD 40 || decide (2 ^ 40 ≤ c) then 2 ^ 40 else 0))

/-- What a performance slot's filter and sample see of a counted frame (R685, R687). -/
structure CtrCtx where
  frame : Option Frame := none
  tenant : Handle := 0

/-- A slot's filter passes the counted event (R685). -/
def slotPasses (p : PerfSlot) (c : CtrCtx) : Bool :=
  match p.filterKind, c.frame with
  | 0, _ => true
  | 1, some f => f.binding.toNat == p.filterValue
  | 2, some f => f.cls.toNat == p.filterValue
  | 3, some _ => c.tenant.toNat == p.filterValue
  | _, _ => false

/-- Send an MSI-X vector: a masked vector sets its pending bit (R505, R544). -/
def msix (v : Nat) (s : State) : State :=
  if s.mbx.masked.getLsbD v then { s with mbx := { s.mbx with pba := s.mbx.pba ||| (1#64 <<< v) } }
  else emit (.msix v) s

/-- Change one interrupt source. -/
def modSrc (src : Nat) (g : SicSrc → SicSrc) (s : State) : State :=
  { s with sic := { s.sic with srcs := tmod s.sic.srcs src g } }

/-- Change one counter group. -/
def modGroup (idx : Nat) (g : CtrGroup → CtrGroup) (s : State) : State :=
  { s with ctr := { s.ctr with groups := tmod s.ctr.groups idx g } }

/-- Change the log. -/
def modLog (g : LogSt → LogSt) (s : State) : State := { s with log := g s.log }

/-- Change one first-error record. -/
def modErr (block : Nat) (g : FirstErr → FirstErr) (s : State) : State :=
  { s with errs := tmod s.errs block g }

/-- A field of a source's configuration word (R670). -/
def sicField (w : BitVec 64) (lo n : Nat) : Nat := bitsOf w.toNat lo n

/-- Make a source pending, and forward it when FWD is set, whatever EN holds (R672, R680). -/
def sicPend (src : Nat) (events : Nat) (s : State) : State :=
  let c := tget s.sic.srcs src
  let s := modSrc src (fun c => { c with pend := true, merged := c.merged + events, held := 0 }) s
  let fwd := sicField c.word 40 6
  if fwd ≥ 4 && !c.pend then msix fwd s else s

/-- An edge reaches the interrupt controller (R672, R678, R694): held while it coalesces, under the CCNT and CTIME in force at this edge, else pending. A CCNT of 1 holds nothing by count and a CTIME of 0 nothing by time (DEDUCED, assumption 134). -/
def sicEdge (src : Nat) (s : State) : State :=
  let c := tget s.sic.srcs src
  let cc := sicField c.word 16 8
  let ct := sicField c.word 24 16
  if cc ≤ 1 && ct == 0 then sicPend src (c.held + 1) s
  else if 1 < cc && c.held + 1 ≥ cc then sicPend src (c.held + 1) s
  else
    let first := if c.held = 0 then now s else c.firstHeld
    modSrc src (fun c => { c with held := c.held + 1, firstHeld := first, due := if ct = 0 then 0 else first + ct * 1000 }) s

/-- The line of a level source changes: it is pending while asserted and not active (R672, R676, R694). -/
def sicLevel (src : Nat) (on : Bool) (s : State) : State :=
  let c := tget s.sic.srcs src
  let s1 := modSrc src (fun c => { c with line := on, pend := on && c.active.isNone, merged := if on then max c.merged 1 else 0 }) s
  if on && c.active.isNone && !c.pend && sicField c.word 40 6 ≥ 4 then msix (sicField c.word 40 6) s1 else s1

/-- The Sett firmware's runtime records: it runs from step K8 on (R587), in every state with a running Sett. -/
def fwRuns (s : State) : Bool := s.log.open_ && s.dev.st != .off && s.dev.st != .grave

/-- The first boundary of a grid after an instant (R396). -/
def gridAfter (base p t : Nat) : Nat := if t < base then base - (base - t - 1) / p * p else base + ((t - base) / p + 1) * p

/-- The next boundary (R396, R399). -/
def nextBoundary (s : State) : Nat := gridAfter s.hoard.base (max s.hoard.period 1) s.hoard.start

/-- The ports on which a neighbour was heard within the last 30 µs (R386). -/
def heardNow (s : State) : List (Nat × Heard) := s.ft.heard.filter (fun e => e.2.valid && decide (now s ≤ e.2.at_ + 30000))

/-- The neighbours beneath this module in the time tree: they name its grandmaster one step further away (R386, DEDUCED, assumption 21). -/
def childrenHeard (s : State) : List (Nat × Heard) :=
  (heardNow s).filter (fun e => s.ft.parent.map (·.val) != some e.1 && e.2.msg.gmSerial == s.ft.gmSerial && e.2.msg.steps == s.ft.steps + 1)

/-- The highest Epoch floor of this module and its subtree (R389, R397). -/
def floorNow (s : State) : Nat := (childrenHeard s).foldl (fun n e => max n e.2.msg.floor) s.hoard.floor

/-- The number that a boundary gives (R396, R397): on the grandmaster at least the floor; beneath one, what its ANNOUNCE makes it at that instant; in HOLDOVER one more. -/
def numberAt (s : State) (t : Nat) : Nat :=
  let n := s.hoard.epoch + 1
  if s.ft.mode = .holdover then n
  else if s.ft.gm then max n (floorNow s)
  else match s.ft.parent with
    | some p =>
      let m := (tget s.ft.heard p.val).msg
      if t < m.epochStart then n else max n (m.epoch + (t - m.epochStart) / max s.hoard.period 1)
    | none => n

/-- A boundary's instant has come and its event has not been taken yet (R396, R437). -/
def boundaryDue (s : State) : Bool := fwRuns s && s.dev.st != .hibernate && decide (now s ≥ nextBoundary s)

/-- The epoch of a write that is acknowledged now: on a boundary's tick the new one (R400, R437). -/
def epochNow (s : State) : Nat := if boundaryDue s then numberAt s (nextBoundary s) else s.hoard.epoch

/-- Write a sample of a slot to its group's ring of 256 (R686, R687). -/
def addSample (p : PerfSlot) (c : CtrCtx) (s : State) : State :=
  let g := tget s.ctr.groups (p.group.toNat / 256 % 2 ^ 20)
  let f := c.frame.getD {}
  let smp : Sample := { stamp := ftCount s, slot := p.slot, kind := 1, opcode := f.opcode.toNat, classChan := f.chan.toNat + 8 * f.cls.toNat + 128 * b2n f.priv, binding := f.binding, addr := f.addr.toNat, did := f.did.toNat, sid := f.sid.toNat }
  let full := g.samples.length ≥ 256
  modGroup (p.group.toNat / 256 % 2 ^ 20)
    (fun g => { g with samples := (smp :: g.samples).take 256, lost := g.lost + b2n full }) s

/-- Count on the performance slots that follow a key (R685, R686): a crossed sample period writes a sample, and it or a wrap raises line 2 of the block. -/
def slotCount (key n block : Nat) (c : CtrCtx) (s : State) : State :=
  (s.ctr.slots.filter (fun p => p.key == some key && slotPasses p c)).foldl (fun s p =>
    let raw := p.value + n
    let wraps := decide (raw ≥ 2 ^ 40)
    let crosses := p.period ≠ 0 && raw / p.period != p.value / p.period
    let upd := s.ctr.slots.map (fun q =>
      if q.group == p.group && q.slot == p.slot && q.port == p.port then
        { q with value := raw % 2 ^ 40, wrap := q.wrap || wraps } else q)
    let s := { s with ctr := { s.ctr with slots := upd } }
    let s := if crosses then addSample p c s else s
    if wraps || crosses then sicEdge (8 * block + 2) s else s) s

/-- The block number that keeps a counter (R651), for line 2 of its performance slots. -/
def ctrBlock (k : Ctr) (unit : Nat) : Nat :=
  match k with
  | .hdrValid | .hdrInvalid | .lockLoss | .fecSym | .fecCw | .prbsBits | .prbsErrs => unit / 8
  | .lookups | .conflicts | .trkFull | .snoops | .notPresent | .stale | .upgOwn | .coarseConv | .victims
  | .atomics | .cohViolS | .snoopTo | .snoopNear | .lostAns | .poisonReads | .entryFail
  | .setHits | .setMisses | .emptySet | .merged => 138 + unit
  | .dHits | .dMisses | .dFills | .dEvict | .dDirtyEvict | .cleanWb | .capFlows | .capTime | .bypass => 154 + unit
  | .corrected | .uncorrected | .rowsRepaired | .regionsRetired => 158 + unit
  | .mtrFrames | .mtrBytes => 128 + unit / 2048
  | .gChecks | .gRefused | .gSplit | .gFirst | .gRuleFail | .gDebug => if unit < 16 then 138 + unit else 128 + (unit - 16) / 32
  | .xHits | .xMisses => 128 + unit
  | .ftSteps | .holdoverNs | .annLoss | .annNear => 162
  | .epochs | .lagEpochs | .epochWb | .flushFail | .jRecs | .jFail | .shortPfail => 225
  | .winMiss | .refusals | .ntcPosted | .ntcDropped | .ntcDiscarded | .leaseLapses | .ignCons | .disMsg | .pageMiss => 226
  | .cmds | .rateRef | .ignDoorbell | .tenIgn | .spoorRecs | .sealsW | .flashW | .deadlineNear => 169
  | .i3cDisc => 168
  | .domTrans | .domRepl | .domTimeout => 163
  | .sleepE | .deepE | .refDeep => 170 + 2 * unit
  | .clkLoss | .clkHung | .clkWd => 164
  | .cgTrips | .cgLimit | .cgLimitTime | .cgRetries | .cgRetryOk | .cgRemoved | .cgNear => 176 + unit / 8
  | .shHeld | .shHeldTime | .shDec | .shNotApplied | .shForeign => 226
  | .hbNear => 165
  | .secNear => 166
  | _ => unit / 2

/-- Count `n` on a statistics counter and on the performance slots that follow it (R683, R685); a wrap raises line 2. -/
def bumpC (k : Ctr) (unit idx n : Nat) (c : CtrCtx) (s : State) : State :=
  let key := ctrKey k unit idx
  let v := tget s.ctr.vals key
  let v' := ctrAdd v n
  let s := { s with ctr := { s.ctr with vals := tset s.ctr.vals key v' } }
  let s := if v.getLsbD 40 != v'.getLsbD 40 then sicEdge (8 * ctrBlock k unit + 2) s else s
  if s.ctr.slots.isEmpty then s else slotCount key n (ctrBlock k unit) c s

/-- Count one. -/
def bump (k : Ctr) (unit : Nat) (s : State) : State := bumpC k unit 0 1 {} s

/-- The value of a counter. -/
def ctrVal (k : Ctr) (unit idx : Nat) (s : State) : Nat := (tget s.ctr.vals (ctrKey k unit idx)).toNat % 2 ^ 40

/-- Bytes 0 to 47 of a Spoor record (R535). -/
def spoorHead (r : SpoorRec) : Bytes :=
  leBytes 8 r.stamp ++ leBytes 8 r.seq ++ leBytes 1 r.iface ++ leBytes 1 r.kind ++ leBytes 2 r.code
    ++ leBytes 4 r.identity ++ leBytes 4 r.h1.toNat ++ leBytes 4 r.h2.toNat ++ leBytes 1 r.outcome
    ++ leBytes 1 r.flags ++ leBytes 2 r.detail ++ leBytes 8 r.arg ++ zeros 4

/-- The 64 bytes of a Spoor record: byte k of the chain value is bits [8k+7:8k] (R535). -/
def spoorBytes (r : SpoorRec) : Bytes := spoorHead r ++ leBytes 16 r.chain.toNat

/-- The alias public key (R553). -/
def aliasKey (s : State) : Bytes := Config.pubKey ((leBytes 64 s.sec.aliasSeed.toNat).take 32)

/-- Sign with the alias key in hedged mode: the entropy is a free value (R546, R550). -/
def aliasSign (msg : Bytes) (s : State) : Bytes × State :=
  let (e, s) := drawFree s
  (Config.sign ((leBytes 64 s.sec.aliasSeed.toNat).take 32) msg e, s)

/-- Bytes 0 to 207 of a seal (R537). -/
def sealHead (x : Seal) : Bytes :=
  leBytes 8 x.lastSeq ++ leBytes 8 x.stamp ++ leBytes 64 x.chainIn.toNat ++ leBytes 64 x.chainOut.toNat
    ++ leBytes 64 x.keyHash.toNat

/-- Write the seal that falls due after every 256th record (R537); it goes to flash when none did in the second before (R540). -/
def writeSeal (s : State) : State :=
  let x : Seal := { lastSeq := s.log.nextSeq - 1, stamp := ftCount s, chainIn := s.log.blockIn, chainOut := s.log.chain, keyHash := Config.sha3 (aliasKey s) }
  let (sig, s) := aliasSign (sealHead x) s
  let x := { x with sig := sig }
  let due := match s.log.lastFlashSeal with
    | none => true
    | some t => decide (now s ≥ t + 1000000000)
  let t := now s
  let s := modLog (fun l => { l with seals := (x :: l.seals).take 131072, blockIn := l.chain, waitSeals := if due then x :: l.waitSeals else l.waitSeals, lastFlashSeal := if due then some t else l.lastFlashSeal }) s
  bump .sealsW 0 s

/-- Write and chain one Spoor record (R534 to R537), with its flash summary item (R540). -/
def writeSpoor (r : SpoorRec) (s : State) : State :=
  let damagedBefore := match s.log.ring0.head? with | some p => p.damaged | none => false
  let r := { r with seq := s.log.nextSeq, flags := b2n damagedBefore + 2 * b2n s.log.brk }
  let c := Config.sha3 (leBytes 64 s.log.chain.toNat ++ spoorHead r)
  let r := { r with chain := c }
  let flash := r.kind == 4 || (r.kind != 1 && r.outcome ≥ 2)
  let s := modLog (fun l => { l with ring0 := (r :: l.ring0).take 33554432, nextSeq := l.nextSeq + 1, chain := c, brk := false, waitRecs := if flash then r :: l.waitRecs else l.waitRecs }) s
  let s := bump .spoorRecs 0 s
  if (r.seq + 1) % 256 == 0 then writeSeal s else s

/-- Record now when the runtime runs, else once it does (R667). -/
def record (r : SpoorRec) (s : State) : State :=
  let r := { r with stamp := ftCount s }
  if fwRuns s then writeSpoor r s else { s with log := { s.log with deferred := s.log.deferred ++ [r] } }

/-- Copy an event's record to rings 1 and 2 by class, with vector 1 and the in-band interrupt (R505, R529, R654). -/
def ringCopy (cls : EvClass) (s : State) : State :=
  match s.log.ring0.head? with
  | none => s
  | some r =>
    let s := if cls.code ≥ s.log.sub1.code then
        let eq := s.mbx.evtProd == s.mbx.evtCons
        let wraps := decide ((s.mbx.evtProd - s.mbx.evtCons).toNat ≥ 65536)
        let lost := if wraps && s.mbx.evtLost != 0xFFFFFFFF then s.mbx.evtLost + 1 else s.mbx.evtLost
        let s := modLog (fun l => { l with ring1 := (r :: l.ring1).take 65536 }) s
        let s := { s with mbx := { s.mbx with evtProd := s.mbx.evtProd + 1, evtLost := lost } }
        if eq then msix 1 s else s
      else s
    if cls.code ≥ s.log.sub2.code then
      let s := modLog (fun l => { l with ring2 := (r :: l.ring2).take 65536 }) s
      let due := match s.i3c.lastIbi with
        | none => true
        | some t => decide (now s ≥ t + 1000000)
      if due then emit (.ibi 0x01) { s with i3c := { s.i3c with lastIbi := some (now s) } } else s
    else s

/-- An event (R657): its code, class, block, and what its record carries. -/
structure Event where
  code : Nat
  cls : EvClass
  block : Nat
  h1 : Handle := 0
  h2 : Handle := 0
  detail : Nat := 0
  arg : Nat := 0

/-- The rate of R658: at most 1,000 records in any second for one code of one block; Severe and Grave are never limited. -/
def eventAllowed (e : Event) (s : State) : Bool :=
  match e.cls with
  | .severe | .grave => true
  | _ =>
    let ts := tget s.log.times (e.block * 65536 + e.code)
    match ts[999]? with
    | none => true
    | some t => decide (now s ≥ t + 1000000000)

/-- Raise an event: its Spoor record, its ring copies, its class count and line 1 of its block, which in cage-power blocks is a cage's (R534, R654, R658, R669, R692, DESIGN CHOICE, assumption 47). -/
def raise (e : Event) (s : State) : State :=
  let t := now s
  let s := modLog (fun l => { l with lastEvent := t, notices := l.notices + b2n (e.cls == .notice), degraded := l.degraded + b2n (e.cls == .degraded), severe := l.severe + b2n (e.cls == .severe) }) s
  let s := if 176 ≤ e.block && e.block < 192 then s else sicEdge (8 * e.block + 1) s
  if eventAllowed e s then
    let k := e.block * 65536 + e.code
    let s := modLog (fun l => { l with times := tset l.times k ((t :: tget l.times k).take 1000) }) s
    let ran := fwRuns s
    let s := record { iface := 0, kind := 2, code := e.code, identity := e.block, h1 := e.h1, h2 := e.h2, outcome := e.cls.code, detail := e.detail % 65536, arg := e.arg } s
    if ran then ringCopy e.cls s else s
  else modLog (fun l => { l with limited := l.limited + 1 }) s

/-- A block detects an error: it captures its first error whole or counts a further one, and a capture raises line 0 (R660, R669). Of two errors on one tick the one with the lower code is captured (R661). The errors that are captured are those whose rules say so, and the words of a stack that fail their check (DEDUCED, assumption 133). -/
def capture (block code masterKind access master addr : Nat) (s : State) : State :=
  let r := tget s.errs block
  let r' : FirstErr := { valid := true, count := 1, code := code, masterKind := masterKind, access := access, master := master, addr := addr, stamp := ftCount s }
  if r.valid && r.stamp == ftCount s && decide (code < r.code) then
    modErr block (fun r => { r' with count := min (r.count + 1) 0xFFFF, overflow := true, last := ftCount s }) s
  else if r.valid then
    modErr block (fun r => { r with count := min (r.count + 1) 0xFFFF, overflow := true, last := ftCount s }) s
  else sicLevel (8 * block) true (modErr block (fun _ => r') s)

/-- A Spoor record of kind lease or session (R534, DESIGN CHOICE, assumption 46). -/
def recordLease (code : Nat) (h : Handle) (s : State) : State :=
  record { kind := 5, code := code, identity := 226, h1 := h } s

/-- A Spoor record of kind security (R581, DESIGN CHOICE, assumption 45). -/
def recordSecurity (code detail : Nat) (arg : Nat) (s : State) : State :=
  record { kind := 4, code := code, identity := 166, detail := detail, arg := arg } s

/-- Who or what changes the device state (R751). -/
structure Cause where
  iface : Nat := 0
  identity : Nat := 0
  code : Nat := 0
  trigger : Nat := 0
  arg : Nat := 0

/-- Change the device state and record it (R17, R534, R751). -/
def changeState (nw : DevState) (c : Cause) (s : State) : State :=
  let rec_ : SpoorRec := { iface := c.iface, kind := 3, code := c.code, identity := c.identity, outcome := if nw = .grave then 3 else 0, detail := nw.code + 16 * s.dev.st.code + 256 * c.trigger, arg := c.arg }
  let s := record rec_ s
  { s with dev := { s.dev with st := nw } }

/-- HIBERNATE's trigger holds: the pin has been low for 2 µs (R413). -/
def pfailHeld (s : State) : Bool := s.hib.pfailLow && decide (now s ≥ s.hib.lowSince + 2000)

/-- The interface code of a route (R535). -/
def Route.iface : Route → Nat
  | .pe _ => 1 | .i3c _ _ => 2 | .tenant _ => 3 | .firmware _ => 0

/-- The identity recorded for a route (R496). -/
def Route.identity : Route → Nat
  | .pe k => k.val | .i3c e _ => e.toNat | .tenant b => b.toNat | .firmware b => b.toNat

/-- The origin class of a route: 0 fabric manager, 1 board management controller, 2 tenant, 3 firmware. -/
def Route.cls : Route → Nat
  | .pe _ => 0 | .i3c _ _ => 1 | .tenant _ => 2 | .firmware _ => 3

/-- Two routes belong to one origin (R496): every slot is the fabric manager, every tag of an endpoint one controller. -/
def sameOrigin : Route → Route → Bool
  | .pe _, .pe _ => true
  | .i3c _ _, .i3c _ _ => true
  | .tenant a, .tenant b => a == b
  | .firmware _, .firmware _ => true
  | _, _ => false

/-- Write one byte of a cell memory whose unlisted bytes read 0, keeping its canonical form: writing 0 removes the entry, wherever it stands (DESIGN CHOICE, assumption 5). -/
def memPut : List Host.Cell → Nat → Byte → List Host.Cell
  | [], a, b => if b = 0 then [] else [(a, b)]
  | (a', b') :: r, a, b =>
    if a < a' then (if b = 0 then (a', b') :: r.filter (fun e => decide (e.1 ≠ a)) else (a, b) :: (a', b') :: r)
    else if a = a' then (if b = 0 then r.filter (fun e => decide (e.1 ≠ a)) else (a, b) :: r)
    else (a', b') :: memPut r a b

/-- Read one byte of a cell memory: an unlisted byte reads 0 (DESIGN CHOICE, assumption 5). -/
def memGet : List Host.Cell → Nat → Byte
  | [], _ => 0
  | (a', b') :: r, a => if a' = a then b' else memGet r a

/-- Write a run of bytes. -/
def memWrite : List Host.Cell → Nat → Bytes → List Host.Cell
  | m, _, [] => m
  | m, a, b :: r => memWrite (memPut m a b) (a + 1) r

/-- Read a run of bytes. -/
def memRead (m : List Host.Cell) (a n : Nat) : Bytes := (List.range n).map (fun k => memGet m (a + k))

/-- The canonical form of a cell memory: addresses strictly rising, no entry 0. -/
def Memory.wf (m : List Host.Cell) : Bool := keysRise none m && m.all (fun e => decide (e.2 ≠ 0))

end Sys2Proof.Machine
end

