-- ==== Sys2Proof/Machine/Frames.lean ====
section
/-! DEFINITION. The transaction header and its check, the classes and opcodes of frames, and the completions of requests (R101, R183 to R188, R239, R308). -/

namespace Sys2Proof.Machine

/-- The 28 bytes of a header before HCHK (R183). -/
def headerBytes (f : Frame) : Bytes :=
  leBytes 1 f.opcode.toNat ++ leBytes 1 (f.colour.toNat + 4 * f.prio.toNat)
    ++ leBytes 1 (f.hops.toNat + 16 * b2n f.copy + 32 * b2n f.marked)
    ++ leBytes 1 (f.chan.toNat + 8 * f.cls.toNat + 32 * bitsOf f.rsv.toNat 0 2 + 128 * b2n f.priv)
    ++ leBytes 2 (f.did.toNat + 4096 * bitsOf f.rsv.toNat 2 4) ++ leBytes 2 (f.sid.toNat + 4096 * bitsOf f.rsv.toNat 6 4) ++ leBytes 4 f.binding.toNat
    ++ leBytes 2 f.tag.toNat ++ leBytes 2 f.length.toNat ++ leBytes 8 f.addr.toNat
    ++ leBytes 1 f.status.toNat ++ [0] ++ leBytes 2 f.epoch.toNat

/-- HCHK: the CRC-32C over byte 0 and bytes 3 to 23 of the header (R184). -/
def hchkOf (f : Frame) : BitVec 32 :=
  let h := headerBytes f
  crc32c (h.take 1 ++ (h.drop 3).take 21)

/-- Set a fresh HCHK (R185). -/
def sealHdr (f : Frame) : Frame := { f with hchk := hchkOf f }

/-- The frame passes its header check (R186). -/
def hchkOk (f : Frame) : Bool := f.hchk == hchkOf f

/-- The bytes of a frame on a link: header, check, payload (R183). -/
def frameBytes (f : Frame) : Bytes := headerBytes f ++ leBytes 4 f.hchk.toNat ++ f.data

/-- Read a frame's header and what payload there is from link bytes (R183). -/
def parseFrame (p : Bytes) : Frame :=
  let b1 := fieldAt p 1 1
  let b2 := fieldAt p 2 1
  let b3 := fieldAt p 3 1
  { opcode := BitVec.ofNat 8 (fieldAt p 0 1), colour := BitVec.ofNat 2 b1, prio := BitVec.ofNat 3 (b1 / 4), hops := BitVec.ofNat 4 b2, copy := bitOf b2 4, marked := bitOf b2 5, chan := BitVec.ofNat 3 b3, cls := BitVec.ofNat 2 (b3 / 8), priv := bitOf b3 7, did := BitVec.ofNat 12 (fieldAt p 4 2), sid := BitVec.ofNat 12 (fieldAt p 6 2), binding := BitVec.ofNat 32 (fieldAt p 8 4), tag := BitVec.ofNat 16 (fieldAt p 12 2), length := BitVec.ofNat 16 (fieldAt p 14 2), addr := BitVec.ofNat 64 (fieldAt p 16 8), status := BitVec.ofNat 4 (fieldAt p 24 1), epoch := BitVec.ofNat 16 (fieldAt p 26 2), hchk := BitVec.ofNat 32 (fieldAt p 28 4), rsv := BitVec.ofNat 10 (bitsOf b3 5 2 + 4 * bitsOf (fieldAt p 4 2) 12 4 + 64 * bitsOf (fieldAt p 6 2) 12 4), data := p.drop 32 }

/-- Frame bytes: 32 header bytes and the payload (R183). -/
def frameLen (f : Frame) : Nat := 32 + f.data.length

/-- Credits, and cells, of a frame of L frame bytes (R102, R224). -/
def cellsOf (len : Nat) : Nat := (len + 63) / 64

/-- The fabric address of a frame: bits [51:0] (R183). -/
def fAddr (f : Frame) : Nat := f.addr.toNat % 2 ^ 52

/-- The line address L of a fabric address (R289). -/
def lineOf (a : Nat) : Nat := (a % 2 ^ 52) / 64

/-- Class codes (R183 byte 3). -/
def clsCM : BitVec 2 := 0
/-- Bulk memory. -/
def clsBM : BitVec 2 := 1
/-- Input and output. -/
def clsIO : BitVec 2 := 2
/-- Message datagrams. -/
def clsMG : BitVec 2 := 3

/-- The opcode is listed for its class (R188, R308). -/
def opcodeListed (cls : BitVec 2) (op : Nat) : Bool :=
  match cls.toNat with
  | 0 => [0x01, 0x02, 0x03, 0x04, 0x05, 0x06, 0x07, 0x10, 0x11, 0x12, 0x13, 0x14, 0x20, 0x21, 0x22, 0x23, 0x24, 0x81, 0x82, 0x83, 0x84, 0x85, 0x86, 0x87, 0x90, 0x91, 0x92, 0x93, 0x94, 0x95, 0x96, 0x97].contains op
  | 1 => [0x01, 0x02, 0x03, 0x04, 0x80, 0x81].contains op
  | 2 => [0x01, 0x02, 0x03, 0x04, 0xF0, 0x80, 0x81].contains op
  | _ => op == 0x01

/-- A response or a snoop answer: bit [7] of the opcode (R188, R308); THROTTLE is a notice, no response. -/
def isResponse (f : Frame) : Bool := f.opcode.getLsbD 7 && !(f.cls == clsIO && f.opcode == 0xF0)

/-- A posted request: no completion (R188). -/
def isPosted (f : Frame) : Bool :=
  match f.cls.toNat, f.opcode.toNat with
  | 1, 0x03 => true
  | 2, 0x03 => true
  | 2, 0x04 => true
  | 2, 0xF0 => true
  | 3, _ => true
  | 1, op => decide (0x40 ≤ op) && decide (op < 0x80)
  | _, _ => false

/-- A CXL.cache message as it crosses the device in class BM (R162): an opcode of the model's own, which no Den port takes or carries (DESIGN CHOICE, assumption 25). -/
def isCache (f : Frame) : Bool := f.cls == clsBM && decide (0x40 ≤ f.opcode.toNat) && decide (f.opcode.toNat < 0x80)

/-- The Den channel of an opcode (R101, R188, R308). -/
def chanOf (cls : BitVec 2) (op : Nat) : Nat :=
  match cls.toNat with
  | 0 => if op < 0x10 then 0 else if op < 0x20 then 3 else if op < 0x80 then 2 else 1
  | 1 => if op ≥ 0x80 then 5 else 4
  | 2 => 6
  | _ => 7

/-- A request that returns data and how many payload bytes it asks for (R239, R308, R323). -/
def asksFor (f : Frame) : Nat :=
  match f.cls.toNat, f.opcode.toNat with
  | 0, 0x01 => 64
  | 0, 0x02 => 64
  | 0, 0x04 => 64
  | 0, 0x05 => f.data.length
  | 0, 0x06 => f.data.length
  | 0, 0x07 => f.data.length / 2
  | 1, 0x01 => f.length.toNat
  | 2, 0x01 => f.length.toNat
  | _, _ => 0

/-- The charged length of a request (R239). -/
def chargedLen (f : Frame) : Nat := frameLen f + asksFor f

/-- A write of memory that an acknowledgement or a notice covers (R400, R407). -/
def isWrite (f : Frame) : Bool :=
  match f.cls.toNat, f.opcode.toNat with
  | 0, 0x05 | 0, 0x06 | 0, 0x07 | 0, 0x10 | 0, 0x13 | 0, 0x14 => true
  | 1, 0x02 | 1, 0x03 => true
  | 2, 0x02 | 2, 0x03 => true
  | _, _ => false

/-- An atomic (R308, R323). -/
def isAtomic (f : Frame) : Bool := f.cls == clsCM && (f.opcode == 0x05 || f.opcode == 0x06 || f.opcode == 0x07)

/-- The crossbar level of a frame, 1 highest (R216). -/
def levelOf (f : Frame) : Nat :=
  match f.cls.toNat with
  | 0 => if f.chan == 0 then 2 else 1
  | 2 => 3
  | _ => 4

/-- The level at a slice input: WB ahead of every other (R217). -/
def sliceLevelOf (f : Frame) : Nat := if f.cls == clsCM && f.chan == 3 then 0 else levelOf f

/-- Status values of R187. -/
def stOK : BitVec 4 := 0
/-- Refused by an access gate. -/
def stFault : BitVec 4 := 1
/-- Data returned carries poison. -/
def stPoison : BitVec 4 := 2
/-- Opcode or destination not served. -/
def stUnsup : BitVec 4 := 3
/-- The target cannot be reached. -/
def stUnavail : BitVec 4 := 4
/-- A write may or may not have been applied. -/
def stUnknown : BitVec 4 := 5
/-- No response within the port's response timeout. -/
def stTimeout : BitVec 4 := 6

/-- The completion of a request: a response carries the request's tag, goes back to its SID, and has a fresh HCHK (R183, R185, R188, R308). -/
def completionOf (f : Frame) (st : BitVec 4) (data : Bytes) (epoch : Nat) : Frame :=
  let op : Nat := match f.cls.toNat with
    | 0 => if data.isEmpty then 0x86 else 0x87
    | 1 => if data.isEmpty then 0x80 else 0x81
    | _ => if data.isEmpty then 0x80 else 0x81
  sealHdr { opcode := BitVec.ofNat 8 op, prio := f.prio, cls := f.cls, chan := BitVec.ofNat 3 (chanOf f.cls op), priv := f.priv, did := f.sid, sid := f.did, binding := f.binding, tag := f.tag, length := BitVec.ofNat 16 data.length, addr := f.addr, status := st, epoch := if isWrite f then BitVec.ofNat 16 epoch else 0, data := data }

/-- The bytes of a line, byte 0 first. -/
def lineBytes (l : Line) : Bytes := leBytes 64 l.toNat

/-- The line that 64 bytes make. -/
def lineFrom (p : Bytes) : Line := BitVec.ofNat 512 (leNat (p.take 64))

/-- Replace `n` bytes at offset `off` of a line. -/
def linePut (l : Line) (off : Nat) (v : Bytes) : Line :=
  let b := lineBytes l
  lineFrom (b.take off ++ v ++ b.drop (off + v.length))

/-- Merge the bytes that a 64-bit mask enables (R308). -/
def lineMerge (old : Line) (mask : Nat) (d : Bytes) : Line :=
  lineFrom (((lineBytes old).zip d).zipIdx.map (fun e => if bitOf mask e.2 then e.1.2 else e.1.1))

/-- The CRC-16 of an n-bit number fed from its top bit down, polynomial 0x1021, initial value 0xFFFF (R302). -/
def crc16 (n : Nat) (v : Nat) : BitVec 16 :=
  (List.range n).foldl (fun c k =>
    let inb := bitOf v (n - 1 - k)
    let top := c.getLsbD 15
    let c := c <<< 1
    if top != inb then c ^^^ 0x1021#16 else c) 0xFFFF#16

end Sys2Proof.Machine
end

