-- ==== Sys2Proof/Machine/Net.lean ====
section
/-! DEFINITION. Logical ports, their links and their tables: lookups and single-field changes. -/

namespace Sys2Proof.Machine

/-- A logical port's link state. -/
def lpOf (s : State) (n : Nat) : LpSt := tget s.net.lps n
/-- A logical port's configuration (R521). -/
def cfgOf (s : State) (n : Nat) : PortCfg := (lpOf s n).cfg
/-- A port's contacts. -/
def portOf (s : State) (p : Nat) : PortSt := tget s.net.ports p
/-- The sending side of a Den link. -/
def txOf (s : State) (n : Nat) : DenTx := tget s.net.tx n
/-- The receiving side of a Den link. -/
def rxOf (s : State) (n : Nat) : DenRx := tget s.net.rx n
/-- The initialisation of a Den link. -/
def initOf (s : State) (n : Nat) : DenInit := tget s.net.init n
/-- The failover of a Den port. -/
def failOf (s : State) (n : Nat) : Failover := tget s.net.fail n
/-- The CXL side of a logical port. -/
def cxlOf (s : State) (n : Nat) : CxlSt := tget s.net.cxl n
/-- The windows of a logical port. -/
def winOf (s : State) (n : Nat) : WinSt := tget s.net.wins n

/-- Change the network part of the state. -/
def modNet (g : NetSt → NetSt) (s : State) : State := { s with net := g s.net }
/-- Change one logical port. -/
def modLp (n : Nat) (g : LpSt → LpSt) (s : State) : State := modNet (fun t => { t with lps := tmod t.lps n g }) s
/-- Change one port. -/
def modPort (p : Nat) (g : PortSt → PortSt) (s : State) : State := modNet (fun t => { t with ports := tmod t.ports p g }) s
/-- Change one lane. -/
def modLane (l : Nat) (g : LaneSt → LaneSt) (s : State) : State := modNet (fun t => { t with lanes := tmod t.lanes l g }) s
/-- Change one sender. -/
def modTx (n : Nat) (g : DenTx → DenTx) (s : State) : State := modNet (fun t => { t with tx := tmod t.tx n g }) s
/-- Change one receiver. -/
def modRx (n : Nat) (g : DenRx → DenRx) (s : State) : State := modNet (fun t => { t with rx := tmod t.rx n g }) s
/-- Change one initialisation. -/
def modInit (n : Nat) (g : DenInit → DenInit) (s : State) : State := modNet (fun t => { t with init := tmod t.init n g }) s
/-- Change one failover. -/
def modFail (n : Nat) (g : Failover → Failover) (s : State) : State := modNet (fun t => { t with fail := tmod t.fail n g }) s
/-- Change one CXL port. -/
def modCxl (n : Nat) (g : CxlSt → CxlSt) (s : State) : State := modNet (fun t => { t with cxl := tmod t.cxl n g }) s
/-- Change one set of windows. -/
def modWin (n : Nat) (g : WinSt → WinSt) (s : State) : State := modNet (fun t => { t with wins := tmod t.wins n g }) s
/-- Change the requests outstanding on a Den port. -/
def modOut (n : Nat) (g : List OutReq → List OutReq) (s : State) : State := modNet (fun t => { t with denOut := tmod t.denOut n g }) s
/-- Change the switch core. -/
def modSw (g : SwSt → SwSt) (s : State) : State := { s with sw := g s.sw }
/-- Change one egress queue, named 8 × LP + q. -/
def modQueue (k : Nat) (g : QueueSt → QueueSt) (s : State) : State := modSw (fun w => { w with queues := tmod w.queues k g }) s
/-- Change the tenancy tables. -/
def modTen (g : TenSt → TenSt) (s : State) : State := { s with ten := g s.ten }
/-- Change meters, shapers and gates. -/
def modTm (g : TmSt → TmSt) (s : State) : State := { s with tm := g s.tm }
/-- Change the device's own part. -/
def modDev (g : DevSt → DevSt) (s : State) : State := { s with dev := g s.dev }

/-- Change the present start. -/
def modStart (g : StartSt → StartSt) (s : State) : State := { s with start := g s.start }

/-- The I/O die of a logical port (R25). -/
def dieOf (lp : Nat) : Nat := lp / 32

/-- Den mode. -/
def isDen (s : State) (n : Nat) : Bool := (cfgOf s n).mode == 1
/-- CXL mode. -/
def isCxl (s : State) (n : Nat) : Bool := (cfgOf s n).mode == 2
/-- Host-facing role. -/
def isHost (s : State) (n : Nat) : Bool := (cfgOf s n).role == 1
/-- Device-facing role. -/
def isDevice (s : State) (n : Nat) : Bool := (cfgOf s n).role == 2
/-- Fabric role. -/
def isFabric (s : State) (n : Nat) : Bool := (cfgOf s n).role == 3

/-- The logical port exists: the odd half of an unsplit port does not (R27). -/
def lpExists (s : State) (n : Nat) : Bool := decide (n < 256) && (n % 2 == 0 || (cfgOf s (n - n % 2)).width == 4)

/-- The device lanes of a logical port (R25, R26). -/
def lanesOf (s : State) (n : Nat) : List Nat :=
  if (cfgOf s (n - n % 2)).width == 4 then rangeFrom (4 * n) 4 else rangeFrom (4 * n) 8

/-- The logical port of a device lane (R26, R27). -/
def lpOfLane (s : State) (l : Nat) : Nat :=
  let n := l / 4
  if n % 2 == 1 && (cfgOf s (n - 1)).width != 4 then n - 1 else n

/-- The logical port carries traffic. -/
def lpUp (s : State) (n : Nat) : Bool := (lpOf s n).link == .up

/-- The link is up, in probation or in service. -/
def linkLive (s : State) (n : Nat) : Bool := (lpOf s n).link == .up || (lpOf s n).link == .probation

/-- A port takes new frames: it is up, or it retrains and they wait for it (R129, R148). -/
def takesNew (s : State) (n : Nat) : Bool := lpUp s n || ((lpOf s n).link == .training && (initOf s n).retrain ≠ 0)

/-- A flush towards a logical port, or the write-back of an acknowledged line, has failed (R401, R406, DEDUCED, assumption 132). -/
def flushLost (n : Nat) (o : FlushOutcome) (s : State) : State :=
  if s.dur.failedTo.any (fun x => x.1 == n) then s else { s with dur := { s.dur with failedTo := s.dur.failedTo ++ [(n, o)] } }

/-- The step record of a start opens (R599). -/
def stepOpen (k detail alt : Nat) (s : State) : State :=
  let t := now s
  modStart (fun x => { x with records := ({ start := x.number, step := k, alt := alt, detail := detail, began := t } :: x.records).take 16384 }) s

/-- Write the end of the newest open record of a step (R599). -/
def closeRec (n k detail t outcome : Nat) : List StepRec → List StepRec
  | [] => []
  | r :: l =>
    if r.start = n && r.step = k && r.detail = detail && r.outcome = 0xFF then { r with duration := (t - r.began) / 1000, outcome := outcome } :: l
    else r :: closeRec n k detail t outcome l

/-- The step record of a start ends (R599). -/
def stepClose (k detail outcome : Nat) (s : State) : State :=
  modStart (fun x => { x with records := closeRec x.number k detail (now s) outcome x.records }) s

/-- A logical port came up: once every half of its port is live, the port's step records end, a start quarantine ends and the counts of link downs clear (R133, R592, R593, R599). -/
def startUp (n : Nat) (s : State) : State :=
  let p := n / 2
  let halves := [2 * p, 2 * p + 1].filter (lpExists s)
  if halves.all (linkLive s) then
    let s := stepClose 0x20 p 0 (stepClose 10 p 0 s)
    if (tget s.start.quar p).quarantined then
      halves.foldl (fun s m => modLp m (fun l => { l with downs := [] }) s) (modStart (fun x => { x with quar := tset x.quar p default }) s)
    else s
  else s

/-- The start-up link-up of a port has failed (R592, R593): a retry ends; a port of the waves is placed in start quarantine, and its links stop until a retry. -/
def startFailed (p : Nat) (s : State) : State :=
  if (tget s.start.quar p).quarantined then
    if (tget s.start.quar p).trying then stepClose 0x20 p 1 (modStart (fun x => { x with quar := tmod x.quar p (fun q => { q with trying := false }) }) s) else s
  else
    let s := modStart (fun x => { x with quar := tset x.quar p { quarantined := true, nextAt := x.readyAt } }) s
    let s := [2 * p, 2 * p + 1].foldl (fun s n => if (lpOf s n).link == .training then modInit n (fun _ => {}) (modLp n (fun l => { l with link := .quarantined }) s) else s) s
    raise { code := 0x020C, cls := .degraded, block := p, arg := p } (stepClose 10 p 1 s)

/-- A port of the present start's waves, or of a retry, fails its start-up link-up (R592, R593, R629, R650). -/
def waveFailed (p : Nat) (s : State) : State :=
  if (tget s.start.steps 10).st = .running || (tget s.start.quar p).trying then startFailed p s else s

/-- The ports whose link-up is under way for the start: those of waves begun, and those of a retry. -/
def startingPorts (s : State) : List Nat :=
  (if (tget s.start.steps 10).st = .running then (s.start.waveEnd.map (·.1)).filter (fun p => !(tget s.start.quar p).quarantined) else [])
    ++ (s.start.quar.filter (fun e => e.2.trying)).map (·.1)

/-- Ports whose link reached quarantine in this step fail their start-up link-up (R112, R592). -/
def failStarts (s : State) : State :=
  let dead := fun (n : Nat) => lpExists s n && isDen s n && (lpOf s n).link == .quarantined
  ((startingPorts s).filter (fun p => dead (2 * p) || dead (2 * p + 1))).foldl (fun s p => startFailed p s) s

/-- The twin of a valid pair (R135, R136): both name each other, the widths agree, and the pairing was not found invalid. -/
def twinOf (s : State) (n : Nat) : Option Nat :=
  let c := cfgOf s n
  if c.mode == 1 && c.twinNamed && !(lpOf s n).twinBad then
    let t := c.twin
    let d := cfgOf s t
    if t != n && d.mode == 1 && d.twinNamed && d.twin == n && d.width == c.width && !(lpOf s t).twinBad then some t else none
  else none

/-- The twin when it can take traffic now: up and out of probation (R139). -/
def liveTwin (s : State) (n : Nat) : Option Nat :=
  match twinOf s n with
  | some t => if lpUp s t then some t else none
  | none => none

/-- The logical port that keeps a channel's credits: the lower of a pair that was checked and found valid (R108). -/
def poolOf (s : State) (n : Nat) : Nat :=
  match twinOf s n with
  | some t => if (lpOf s n).pooled && (lpOf s t).pooled then min n t else n
  | none => n

/-- The credits that one logical port keeps go to another of its pair (R108, R136). -/
def movePool (a b : Nat) (s : State) : State :=
  if a = b then s else modRx b (fun r => { r with open_ := (rxOf s a).open_ }) (modTx b (fun x => { x with credits := (txOf s a).credits }) s)

/-- A logical port's credits stand apart from a pair's pool or in it, and keep their values (R108, R136). -/
def setPooled (n : Nat) (on : Bool) (s : State) : State :=
  let before := poolOf s n
  let s := modLp n (fun l => { l with pooled := on }) s
  movePool before (poolOf s n) s

/-- The logical port whose pool a logical port shares keeps the credits for itself from now on: the pair's tables change. -/
def unpool (n : Nat) (s : State) : State :=
  match twinOf s n with
  | some t => if (lpOf s n).pooled && (lpOf s t).pooled then modLp t (fun l => { l with pooled := false }) (setPooled n false (movePool (min n t) t s)) else s
  | none => s

/-- What `port.configure` left for the next link-up takes effect (R521). -/
def takeNext (n : Nat) (s : State) : State :=
  match (lpOf s n).next with
  | some (t, named, c) => modLp n (fun l => { l with next := none, cfg := { l.cfg with twin := t, twinNamed := named, credits := c } }) (if (cfgOf s n).twin != t || (cfgOf s n).twinNamed != named then unpool n s else s)
  | none => s

/-- Credits of a channel left for sending (R103, R108). -/
def creditsLeft (s : State) (n chan : Nat) : Nat := (txOf s (poolOf s n)).credits.getD chan 0

/-- Line rate of a logical port in Gbit/s (R206). -/
def lineRate (s : State) (n : Nat) : Nat :=
  let l := lpOf s n
  let w4 := l.cfg.width == 4 || l.width4.isSome
  if l.cfg.mode == 1 then (if w4 then 448 else 896)
  else if l.rate == 3 then (if w4 then 128 else 256)
  else (if w4 then 256 else 512)

/-- Gate rate of a logical port in Gbit/s (R278). -/
def gateRate (s : State) (n : Nat) : Nat :=
  let l := lpOf s n
  let w4 := l.cfg.width == 4 || l.width4.isSome
  if l.cfg.mode == 1 then (if w4 then 396 else 793)
  else if l.rate == 3 then (if w4 then 112 else 224)
  else (if w4 then 224 else 448)

/-- The fields of a routing entry (R195). -/
def rKind (e : Nat) : Nat := e % 4
/-- Primary link. -/
def rPrim (e : Nat) : Nat := bitsOf e 2 8
/-- Twin link. -/
def rTwin (e : Nat) : Nat := bitsOf e 10 8
/-- The twin carries the destination. -/
def rActive (e : Nat) : Bool := bitOf e 18
/-- Multicast group index. -/
def rGroup (e : Nat) : Nat := bitsOf e 19 10
/-- The entry names a twin link. -/
def rTv (e : Nat) : Bool := bitOf e 29

/-- The active link of an entry of kind port (R195). -/
def rLp (e : Nat) : Nat := if rTv e && rActive e then rTwin e else rPrim e

/-- The routing entry of a DID. -/
def routeEntry (s : State) (did : Nat) : Nat := tget s.sw.routes did

/-- The lowest unicast DID whose entry of kind port names the logical port as primary or twin: its identifier (DESIGN CHOICE, assumption 6). -/
def didOf (s : State) (n : Nat) : Nat :=
  match s.sw.routes.find? (fun e => decide (e.1 < 0xC00) && rKind e.2 == 1 && (rPrim e.2 == n || (rTv e.2 && rTwin e.2 == n))) with
  | some e => e.1
  | none => 0xBFF

/-- The lowest DID whose entry is of kind this device (R607), with whether there is one. -/
def ownDid (s : State) : Option Nat := (s.sw.routes.find? (fun e => rKind e.2 == 2)).map (·.1)

/-- The DIDs whose active link is a logical port. -/
def didsVia (s : State) (n : Nat) : List Nat := (s.sw.routes.filter (fun e => rKind e.2 == 1 && rLp e.2 == n)).map (·.1)

/-- Flip the Active bit of an entry (R197). -/
def flipActive (e : Nat) : Nat := if rActive e then e - 2 ^ 18 else e + 2 ^ 18

/-- Handle parts (R8). -/
def hType (h : Handle) : Nat := h.toNat / 2 ^ 28
/-- Index. -/
def hIdx (h : Handle) : Nat := h.toNat / 256 % 2 ^ 20
/-- Generation. -/
def hGen (h : Handle) : Nat := h.toNat % 256

/-- Build a handle (R8). -/
def mkHandle (ty idx gen : Nat) : Handle := BitVec.ofNat 32 (ty * 2 ^ 28 + idx * 256 + gen)

/-- The life of an object index. -/
def objOf (s : State) (ty idx : Nat) : ObjSt := tget s.ten.objs (ty * 2 ^ 20 + idx)

/-- A handle names a live object of its type (R8, R11). -/
def liveHandle (s : State) (h : Handle) : Bool :=
  let o := objOf s (hType h) (hIdx h)
  o.live && o.gen.toNat == hGen h

/-- The handle that an index of a type has now. -/
def handleOf (s : State) (ty idx : Nat) : Handle := mkHandle ty idx (objOf s ty idx).gen.toNat

/-- A binding by index. -/
def bindOf (s : State) (i : Nat) : Binding := tget s.ten.bindings i

/-- Change a binding. -/
def modBind (i : Nat) (g : Binding → Binding) (s : State) : State := modTen (fun t => { t with bindings := tmod t.bindings i g }) s

/-- A live binding by handle. -/
def liveBind (s : State) (h : Handle) : Option Binding :=
  if hType h == 1 && liveHandle s h && (bindOf s (hIdx h)).live then some (bindOf s (hIdx h)) else none

/-- A slice record by handle. -/
def sliceOf (s : State) (h : Handle) : SliceRec := tget s.ten.slices (hIdx h)

/-- The slice of fabric memory that holds an address on a target (R443, R444): the record and its handle. -/
def sliceAt (s : State) (a : Nat) : Option (Handle × SliceRec) :=
  (s.ten.slices.find? (fun e => e.2.live && decide (e.2.base ≤ a) && decide (a < e.2.base + e.2.len))).map
    (fun e => (handleOf s 2 e.1, e.2))

/-- The slice that holds an address and lies on one target (R444). -/
def sliceOn (s : State) (target a : Nat) : Option (Handle × SliceRec) :=
  (s.ten.slices.find? (fun e => e.2.live && e.2.target == target && decide (e.2.base ≤ a) && decide (a < e.2.base + e.2.len))).map
    (fun e => (handleOf s 2 e.1, e.2))

/-- The tenant of a binding. -/
def tenantOf (s : State) (h : Handle) : Tenant := tget s.ten.tenants (hIdx h)

/-- A caching agent (R298): a host-facing port with a binding to a coherent slice, or a fabric port with coherence enabled. -/
def isAgent (s : State) (n : Nat) : Bool :=
  if isHost s n then
    s.ten.bindings.any (fun e => e.2.live && e.2.lp == n && (sliceOf s e.2.slice).coherent)
  else isFabric s n && tget s.coh.enabled n

/-- The counting context of a frame (R685). -/
def ctxOf (s : State) (f : Frame) : CtrCtx :=
  { frame := some f, tenant := match liveBind s f.binding with | some b => b.tenant | none => 0 }

/-- The home slice of a line: the XOR of its twelve 4-bit fields (R289). -/
def homeSlice (l : Nat) : Nat := (List.range 12).foldl (fun x k => x ^^^ (l / 16 ^ k % 16)) 0

/-- The directory set of a line (R290). -/
def dirSet (l : Nat) : Nat := (l % 2 ^ 23) ^^^ (l / 2 ^ 23 % 2 ^ 23)

/-- Take a link down at the end of this step: 0 link down (R126), 1 out of service (R178), 2 quarantine (R131). -/
def fall (lp why : Nat) (s : State) : State :=
  modNet (fun t => { t with fallen := t.fallen ++ [(lp, why)] }) s

/-- A Grave cause arises: the step's end enters Grave (R655). The first cause stands (R656). -/
def graveCause (code block : Nat) (s : State) : State :=
  modDev (fun d => { d with graveReq := d.graveReq.or (some (code, block)) }) s

/-- Keep the times of a sliding window: those after `t - w` (R126, R176). -/
def slide (t w : Nat) (l : List Nat) : List Nat := l.filter (fun x => decide (x + w > t))

/-- A protocol error on a Den port (R126): it counts in the window, and its limit declares link down. -/
def protoError (n : Nat) (s : State) : State :=
  let c := cfgOf s n
  let l := now s :: slide (now s) c.window (winOf s n).proto
  let s := modWin n (fun w => { w with proto := l }) s
  let s := bump .protoErr n s
  if l.length ≥ c.protoLimit then fall n 0 s else s

/-- The event rule of R176: an event of a class when none was raised for the port within the preceding window length. -/
def windowEvent (n key : Nat) (e : Event) (s : State) : State :=
  let c := cfgOf s n
  let t := tget (winOf s n).lastEvent key
  if t = 0 || now s ≥ t - 1 + c.window then
    raise e (modWin n (fun w => { w with lastEvent := tset w.lastEvent key (now s + 1) }) s)
  else s

/-- The counter of a violation class (R176). -/
def violCtr : Nat → Ctr
  | 1 => .creditOver | 2 => .malformed | 3 => .unexpected | 4 => .mismatched
  | 5 => .cohViol | 6 => .decodeMiss | 7 => .cxlRespTo | 8 => .malTlp | 9 => .viral | _ => .cxlDowns

/-- A CXL violation of class C1 to C8 (R176): counted, its event under the event rule, and at its threshold within one window the port goes out of service (R178). -/
def violation (n c : Nat) (s : State) : State :=
  let cfg := cfgOf s n
  let s := bump (violCtr c) n s
  let l := now s :: slide (now s) cfg.window (tget (winOf s n).viol c)
  let s := modWin n (fun w => { w with viol := tset w.viol c l }) s
  let s := windowEvent n c { code := 0x020A, cls := if c = 7 then .degraded else .notice, block := n / 2, detail := c } s
  if c ≤ 8 && l.length ≥ cfg.thresholds.getD (c - 1) 8 then fall n (16 + c) s else s

/-- A coherence violation of an agent: C5 on CXL, a protocol error on Den (R315, R318, R319). -/
def agentViolation (n : Nat) (s : State) : State := if isCxl s n then violation n 5 s else protoError n s

end Sys2Proof.Machine
end

