-- ==== Sys2Proof/Machine/CxlLink.lean ====
section
/-! DEFINITION. The CXL link of a logical port: the credits of its channels, the messages it sends and keeps for replay, and the partner's acknowledgements (R163 to R169). One message stands for one flit (DESIGN CHOICE, assumption 105). -/

namespace Sys2Proof.Machine

/-- The initial credits of a channel by role, 1 host-facing, 2 device-facing, 3 fabric (R165): 0 to 2 are M2S Req, RwD and BIRsp; 3 to 5 S2M NDR, DRS and BISnp; 6 to 8 the headers of CXL.io posted, non-posted and completion; 10 to 12 their data units; 16 to 21 the channels of CXL.cache. -/
def creditTable (role chan : Nat) : Nat :=
  match chan with
  | 0 => if role = 1 then 1024 else 0
  | 1 => if role = 1 then 1024 else 0
  | 2 => if role = 1 then 512 else 0
  | 3 => if role = 2 then 1024 else 0
  | 4 => if role = 2 then 1024 else 0
  | 5 => if role = 2 then 512 else 0
  | 6 => 256
  | 7 => 256
  | 8 => 256
  | 10 => 2048
  | 11 => 64
  | 12 => 2048
  | _ => if chan ≥ 16 then 128 else 0

/-- The channels of a CXL port. -/
def cxlChannels : List Nat := [0, 1, 2, 3, 4, 5, 6, 7, 8, 10, 11, 12, 16, 17, 18, 19, 20, 21]

/-- The credits that a CXL port advertises on a channel: half of the table's on x4 (R165). -/
def creditLimit (s : State) (n chan : Nat) : Nat :=
  let c := creditTable (cfgOf s n).role chan
  if (cfgOf s n).width == 4 then c / 2 else c

/-- The data units of 16 bytes of a CXL.io message (R165). -/
def dataUnits (bytes : Nat) : Nat := (bytes + 15) / 16

/-- The channel of a message and its CXL.io data units (R163, R165). Of what crosses a fabric port only class IO has credits in the table (DEDUCED, assumption 106). -/
def chanOfCxl : CxlMsg → Option (Nat × Nat)
  | .req _ _ _ _ => some (0, 0)
  | .rwd _ _ _ _ _ _ _ => some (1, 0)
  | .biconflict _ _ => some (1, 0)
  | .birsp _ _ _ => some (2, 0)
  | .ndr _ _ _ => some (3, 0)
  | .biconflictAck _ _ => some (3, 0)
  | .drs _ _ _ _ _ _ => some (4, 0)
  | .bisnp _ _ _ => some (5, 0)
  | .io .writeP _ _ _ _ d => some (6, dataUnits d.length)
  | .io .message _ _ _ _ d => some (6, dataUnits d.length)
  | .io _ _ _ _ _ d => some (7, dataUnits d.length)
  | .unsupportedIo _ => some (7, 0)
  | .ioCpl _ _ d => some (8, dataUnits d.length)
  | .cache c h _ _ _ _ => some (16 + c % 3 + 3 * b2n h, 0)
  | .pbr f =>
    if f.cls != clsIO then none
    else some (if isResponse f then 8 else if isPosted f then 6 else 7, dataUnits (if f.opcode == 0x01 then 0 else f.length.toNat))
  | _ => none

/-- The credits that a message takes: by channel. -/
def creditNeeds (m : CxlMsg) : List (Nat × Nat) :=
  match chanOfCxl m with
  | some (c, d) => (c, 1) :: (if d = 0 then [] else [(c + 4, d)])
  | none => []

/-- The flits that a port keeps for replay (R166, R167). -/
def replayMax : FlitMode → Nat
  | .flit68 => 256
  | _ => 1023

/-- The number of the flit after number k: ten bits without the idle number 0 in 256-byte flit mode, eight bits of the link-layer retry in 68-byte mode (R166, R167, PRESUMED, assumption 105). -/
def flitAfter (m : FlitMode) (k : Nat) : Nat :=
  match m with
  | .flit68 => (k + 1) % 256
  | _ => k % 1023 + 1

/-- The partner's credits suffice for a message, and the replay buffer has a place. -/
def cxlRoom (s : State) (n : Nat) (m : CxlMsg) : Bool :=
  (creditNeeds m).all (fun e => decide (e.2 ≤ tget (cxlOf s n).credits e.1)) && decide ((cxlOf s n).replay.length < replayMax (cxlOf s n).mode)

/-- Put a message on the link (R163, R166 to R168): its credits are taken once, and it is kept until the partner acknowledges it. -/
def cxlPut (n : Nat) (m : CxlMsg) (s : State) : State :=
  emit (.cxl n m) (modCxl n (fun c => { c with credits := (creditNeeds m).foldl (fun t e => tmod t e.1 (· - e.2)) c.credits, txSeq := flitAfter c.mode c.txSeq, replay := c.replay ++ [(c.txSeq, m)] }) s)

/-- A message waits for one of its channel ahead of it. -/
def cxlBehind (l : List CxlMsg) (m : CxlMsg) : Bool := l.any (fun x => (chanOfCxl x).map (·.1) == (chanOfCxl m).map (·.1))

/-- Send a message to a CXL partner (R163, R164): without credits or a place for its replay it waits, behind those of its channel only. -/
def cxlSend (n : Nat) (m : CxlMsg) (s : State) : State :=
  if cxlRoom s n m && !cxlBehind (cxlOf s n).waiting m then cxlPut n m s
  else modCxl n (fun c => { c with waiting := c.waiting ++ [m] }) s

/-- Messages that waited leave as their credits and places have come. -/
def cxlDrain (n : Nat) (s : State) : State :=
  let w := (cxlOf s n).waiting
  w.foldl (fun s m => cxlSend n m s) (modCxl n (fun c => { c with waiting := [] }) s)

/-- The partner returns credits (R163). -/
def cxlCredit (n chan k : Nat) (s : State) : State := cxlDrain n (modCxl n (fun c => { c with credits := tmod c.credits chan (· + k) }) s)

/-- The partner acknowledges the flits up to a number (R166, R167): one that names no flit held says nothing. -/
def cxlAck (n seq : Nat) (s : State) : State :=
  let r := (cxlOf s n).replay
  if r.any (fun e => e.1 == seq) then
    cxlDrain n (modCxl n (fun c => { c with replay := (c.replay.dropWhile (fun e => e.1 != seq)).drop 1 }) s)
  else s

/-- The partner asks for a replay from a flit on, or, where it may, of that flit alone (R166 to R168): a copy takes no credit. -/
def cxlNak (n seq : Nat) (only : Bool) (s : State) : State :=
  let c := cxlOf s n
  let from_ := c.replay.dropWhile (fun e => e.1 != seq)
  let l := if only && c.selNak && c.mode != .flit68 then from_.take 1 else from_
  l.foldl (fun s e => emit (.cxlAgain n e.1 e.2) s) s

/-- A flit in order is taken (R166, R167). -/
def cxlTake (n : Nat) (s : State) : State := modCxl n (fun c => { c with rxSeq := flitAfter c.mode c.rxSeq }) s

end Sys2Proof.Machine
end

