-- ==== Sys2Proof/Machine/Xbar.lean ====
section
/-! DEFINITION. Notices, routing, crossbar requests and the completion of requests (R129, R172, R187, R195 to R198, R203 to R213, R400, R410, R476, R477). -/

namespace Sys2Proof.Machine

/-- The device takes new requests: in Drain, Hibernate and outside the carrying states they get the target-unavailable response (R18, R331). -/
def takesRequests (s : State) : Bool := s.dev.st == .service || s.dev.st == .recovery || s.dev.st == .test

/-- A write-back or an eviction notice, which is always taken (R294, R296, R351). -/
def isNotice (f : Frame) : Bool := f.cls == clsCM && (f.opcode == 0x10 || f.opcode == 0x11 || f.opcode == 0x12)

/-- An event that a notice covers: it opens a notice or adds to the open one of its binding, reason and rule set (R476, R477). -/
def addNotice (b : Handle) (why : Reason) (rs : Handle) (epoch : Nat) (s : State) : State :=
  let hit := fun (x : Notice) => x.binding == b && x.why == why && x.ruleSet == rs
  if s.ten.open_.any hit then
    modTen (fun t => { t with open_ := t.open_.map (fun x => if hit x then { x with count := min (x.count + 1) 0xFFFFFFFF } else x) }) s
  else
    let x : Notice := { binding := b, why := why, ruleSet := rs, count := 1, first := now s, epoch := if why = .refused then 0 else epoch }
    modTen (fun t => { t with open_ := t.open_ ++ [x] }) s

/-- Acknowledge a posted write of a binding to its ingress module, with the epoch (R410). -/
def ackPosted (b : Handle) (epoch : Nat) (s : State) : State :=
  match liveBind s b with
  | some _ => modBind (hIdx b) (fun x => { x with posted := x.posted - 1, highEpoch := max x.highEpoch epoch }) s
  | none => s

/-- Credits of a CXL or Den channel go back as the last copy of a frame has crossed (R104, R163, R227). On CXL, `cells` counts the 16-byte data units of a CXL.io message, whose channel is four above its header's (R165); 255 stands for no channel. -/
def returnCredits (lp chan cells : Nat) (cxl : Bool) (s : State) : State :=
  if cxl && chan = 255 then s
  else if cxl then
    let s := cxlSend lp (.creditReturn chan 1) (modCxl lp (fun c => { c with used := tmod c.used chan (· - 1) }) s)
    if cells = 0 then s
    else cxlSend lp (.creditReturn (chan + 4) cells) (modCxl lp (fun c => { c with used := tmod c.used (chan + 4) (· - cells) }) s)
  else
    let s := modRx (poolOf s lp) (fun r => { r with open_ := r.open_.set chan (r.open_.getD chan 0 + cells) }) s
    let via := if linkLive s lp then lp else (liveTwin s lp).getD lp
    modTx via (fun t => { t with credOwed := t.credOwed.set chan (t.credOwed.getD chan 0 + cells) }) s

/-- One copy of an original has left the ingress buffer (R212, R227). -/
def copyGone (orig : Nat) (s : State) : State :=
  let o := tget s.sw.origs orig
  if orig = 0 || o.left = 0 then s
  else if o.left = 1 then
    returnCredits o.lp o.chan o.cells o.cxl (modSw (fun w => { w with origs := tset w.origs orig default }) s)
  else modSw (fun w => { w with origs := tset w.origs orig { o with left := o.left - 1 } }) s

/-- A frame that is not whole is dropped with its credits left taken (R141): the partner sends it again whole on the twin. -/
def copyDropped (orig : Nat) (s : State) : State :=
  let o := tget s.sw.origs orig
  if orig = 0 || o.left = 0 then s
  else
    let s := modSw (fun w => { w with origs := tset w.origs orig default }) s
    if o.cxl then s else modRx (poolOf s o.lp) (fun r => { r with open_ := r.open_.set o.chan (r.open_.getD o.chan 0 + o.cells) }) s

/-- Enter a frame in the ingress buffer with `n` copies to cross; answers its number (R212, R227). -/
def openOrig (lp chan cells n : Nat) (cxl : Bool) (s : State) : Nat × State :=
  let id := s.sw.nextId
  (id, modSw (fun w => { w with nextId := id + 1, origs := tset w.origs id { left := n, lp := lp, chan := chan, cells := cells, cxl := cxl } }) s)

/-- More copies of an original are to cross. -/
def moreCopies (orig n : Nat) (s : State) : State :=
  if orig = 0 then s else modSw (fun w => { w with origs := tmod w.origs orig (fun o => { o with left := o.left + n }) }) s

/-- The forwarding setting of a class at an egress port: store-and-forward when its bit is set (R203, R521). -/
def sfSetting (s : State) (lp : Nat) (cls : BitVec 2) : Bool := bitOf (cfgOf s lp).fwd cls.toNat

/-- R206 forces store-and-forward: a replica, a frame from the Sett, or an egress line rate above the ingress line rate; a slice's outputs are never forced by rate. -/
def sfForced (s : State) (src : XIn) (dst : XOut) (f : Frame) : Bool :=
  f.copy || (match src, dst with
    | .sett, _ => true
    | .port a, .lp b => decide (lineRate s b > lineRate s a)
    | _, _ => false)

/-- Raise a crossbar request (R204, R205, R206, R215). `arrived` is how many frame bytes are in the ingress buffer. -/
def raiseX (src : XIn) (dst : XOut) (f : Frame) (arrived orig : Nat) (s : State) : State :=
  let forced := match dst with
    | .lp _ => sfForced s src dst f
    | .slice _ => false
  let set := match dst with
    | .lp n => sfSetting s n f.cls
    | .slice _ => true
  let s := match dst with
    | .lp n => if forced then bump .forcedSf n s else s
    | .slice _ => s
  let id := s.sw.nextId
  let x : XReq := { id := id, f := f, src := src, dst := dst, arrived := arrived, sf := set || forced, since := now s, orig := orig }
  modSw (fun w => { w with nextId := id + 1, reqs := w.reqs ++ [x] }) s

/-- The logical port of an input: slices and the Sett have none. -/
def srcPort : XIn → Option Nat
  | .port n => some n
  | _ => none

/-- Count a discard on the logical port that a frame came in by; a slice's or the Sett's frame has none (R236, DESIGN CHOICE, assumption 117). -/
def bumpAt (c : Ctr) (lp : Option Nat) (s : State) : State :=
  match lp with
  | some n => bump c n s
  | none => s

/-- Discard a frame that cannot be routed, counted (R196). -/
def discardRouted (lp : Option Nat) (f : Frame) (orig : Nat) (s : State) : State :=
  let s := if f.cls == clsMG then bumpAt .mgDisc lp (bumpAt .routeDisc lp s) else bumpAt .routeDisc lp s
  let s := if isPosted f && isWrite f then ackPosted f.binding (epochNow s) s else s
  copyGone orig s

/-- A destination's new frames are held ahead of the crossbar (R139, R148, R198); those of a failback wait in their egress queues (R142). -/
def keepsNew (h : RouteHold) : Bool :=
  match h.why with
  | some .route | some .failover | some .retrain => true
  | some .failback | none => false

/-- Hold a frame of its destination (R139, R148, R198). -/
def holdFrame (x : XReq) (s : State) : State :=
  modSw (fun w => { w with holds := tmod w.holds x.f.did.toNat (fun h => { h with frames := h.frames ++ [x] }) }) s

/-- An IO frame whose destination is this device reaches the Sett (R196), which the manual gives no IO service: a completion or a posted frame ends there (DESIGN CHOICE, assumption 116). -/
def settTakes (_f : Frame) (orig : Nat) (s : State) : State := copyGone orig s

/-- The path of a response: to the active link of its DID; one for a port that is down with no working twin is discarded and counted (R130, R175, R196). -/
def routeResponse (src : XIn) (f : Frame) (arrived orig : Nat) (s : State) : State :=
  let e := routeEntry s f.did.toNat
  match rKind e with
  | 1 =>
    let n := rLp e
    if keepsNew (tget s.sw.holds f.did.toNat) then holdFrame { f := f, src := src, dst := .lp n, arrived := arrived, orig := orig, since := now s } s
    else if linkLive s n || (initOf s n).retrain ≠ 0 then raiseX src (.lp n) f arrived orig s
    else
      let s := if isCxl s n then bump .hostDisc n s else bump .respDisc n s
      copyGone orig s
  | 2 =>
    if f.cls == clsCM then raiseX src (.slice (homeSlice (lineOf (fAddr f)))) f arrived orig s
    else if f.cls == clsIO then settTakes f orig s
    else discardRouted (srcPort src) f orig s
  | _ => discardRouted (srcPort src) f orig s

/-- Answer a request with its completion (R187). -/
def answer (f : Frame) (st : BitVec 4) (data : Bytes) (epoch : Nat) (s : State) : State :=
  if isPosted f then s
  else
    let r := completionOf f st data epoch
    routeResponse .sett r (frameLen r) 0 s

/-- The order of R213: the status a merged completion carries is the first of these that any member returned. -/
def mergeOrder : List Nat := [5, 6, 4, 1, 3, 0]

/-- The merge that waits for a member (R213): by the request's tag and requester and the member's DID. -/
def mergeOf (s : State) (tag sid did : Nat) : Option Merge :=
  s.sw.merges.find? (fun x => x.req.tag.toNat == tag && x.req.sid.toNat == sid && x.members.contains did)

/-- One member of a replicated BWRITE has completed (R213); the last one completes the request. One on the tick of the timeout is taken and counts a near miss (R237). -/
def mergeMember (tag sid : Nat) (did st epoch : Nat) (s : State) : State :=
  match mergeOf s tag sid did with
  | none => s
  | some m =>
    let s := if now s == m.deadline then bump .swNear m.lp s else s
    let m' := { m with members := m.members.erase did, statuses := m.statuses ++ [st], epoch := max m.epoch epoch }
    if m'.members.isEmpty then
      let worst := (mergeOrder.find? (fun x => m'.statuses.contains x)).getD 0
      let s := modSw (fun w => { w with merges := w.merges.filter (fun x => x.id != m.id) }) s
      answer m.req (BitVec.ofNat 4 worst) [] m'.epoch s
    else modSw (fun w => { w with merges := w.merges.map (fun x => if x.id == m.id then m' else x) }) s

/-- A frame is a replica of a BWRITE whose completions this module merges (R213). -/
def merges (s : State) (f : Frame) : Bool :=
  f.copy && f.cls == clsBM && f.opcode == 0x02 && (mergeOf s f.tag.toNat f.sid.toNat f.did.toNat).isSome

/-- Complete a request with a status and no data, or with data (R187); a member of a merge answers to the merge (R213). -/
def complete (f : Frame) (st : BitVec 4) (data : Bytes) (epoch : Nat) (s : State) : State :=
  if merges s f then mergeMember f.tag.toNat f.sid.toNat f.did.toNat st.toNat epoch s else answer f st data epoch s

/-- The requester of a frame is a CXL host of this device. -/
def fromCxl (s : State) (f : Frame) : Bool :=
  match liveBind s f.binding with
  | some b => isCxl s b.lp
  | none => false

/-- A write that CXL completes without saying that it failed (R172, R467): an M2S RwD. -/
def cxlSilent (s : State) (f : Frame) : Bool := isWrite f && fromCxl s f && !isAtomic f && f.cls != clsIO

/-- Answer a request whose target cannot take it, by its protocol: a completion with the status, and a lost-write notice for a posted write and for a write that CXL cannot fail (R129, R172, R173). -/
def targetGone (f : Frame) (st : BitVec 4) (s : State) : State :=
  let e := (epochNow s)
  let s := if (isWrite f && isPosted f) || cxlSilent s f then addNotice f.binding .unavailable 0 e s else s
  let s := if isPosted f && isWrite f then ackPosted f.binding e s else s
  complete f st [] e s

/-- Refuse a tenant access: ACCESS_FAULT for a non-posted request, a refusal notice for a posted one and for a write that CXL cannot fail (R452, R467). -/
def refuseAccess (f : Frame) (rs : Handle) (s : State) : State :=
  let s := bumpC .refusals (hIdx f.binding) 0 1 (ctxOf s f) s
  let s := if isPosted f || cxlSilent s f then addNotice f.binding .refused rs 0 s else s
  let s := if isPosted f && isWrite f then ackPosted f.binding (epochNow s) s else s
  complete f stFault [] (epochNow s) s

/-- A CM request of the kinds that the home serves: requests and WB-channel messages (R308). -/
def isCmRequest (f : Frame) : Bool := f.cls == clsCM && decide (f.opcode.toNat < 0x20)

/-- Raise one crossbar request per member of a multicast group: the member's DID, the copy bit, a fresh HCHK (R185, R212). A BWRITE opens a merge (R213). -/
def replicate (src : XIn) (g : Nat) (f : Frame) (arrived orig : Nat) (s : State) : State :=
  let members := (tget s.sw.groups g).members
  let ok := (f.cls == clsBM && (f.opcode == 0x02 || f.opcode == 0x03)) || (f.cls == clsIO && (f.opcode == 0x03 || f.opcode == 0x04)) || f.cls == clsMG
  if !ok then
    if isPosted f then discardRouted (srcPort src) f orig s else copyGone orig (complete f stUnsup [] (epochNow s) s)
  else
    let lp := (srcPort src).getD 0
    let merge := f.cls == clsBM && f.opcode == 0x02
    let s := if merge then
        let m : Merge := { id := s.sw.nextId, req := f, lp := lp, members := members.map (·.2), deadline := now s + (cfgOf s lp).mergeTimeout }
        modSw (fun w => { w with nextId := w.nextId + 1, merges := w.merges ++ [m] }) s
      else s
    let s := if members.isEmpty then copyGone orig s else moreCopies orig (members.length - 1) s
    members.foldl (fun s m =>
      let f' := sealHdr { f with did := BitVec.ofNat 12 m.2, copy := true }
      if lpUp s m.1 then raiseX src (.lp m.1) f' arrived orig s
      else
        let s := copyGone orig s
        if merge then mergeMember f.tag.toNat f.sid.toNat m.2 4 0 s
        else s) s

/-- Route a request by its DID (R196, R198, R324): the kinds of entry, the held destinations, the home slice in place of a local device-facing port for a CM request, and the proxy's slice for one whose home lies beyond a fabric port (R300). -/
def routeRequest (src : XIn) (f : Frame) (arrived orig : Nat) (s : State) : State :=
  let lp0 := srcPort src
  let e := routeEntry s f.did.toNat
  let toHome := fun s => raiseX src (.slice (homeSlice (lineOf (fAddr f)))) f arrived orig s
  match rKind e with
  | 0 => if isPosted f then discardRouted lp0 f orig s else copyGone orig (complete f stUnsup [] (epochNow s) s)
  | 1 =>
    let n := rLp e
    let proxied := isCmRequest f && isFabric s n && (sliceAt s (fAddr f)).isSome && (match src with
      | .port p => isHost s p || isAgent s p
      | _ => false)
    if (isCmRequest f && isDevice s n) || proxied then toHome s
    else
      if keepsNew (tget s.sw.holds f.did.toNat) then holdFrame { f := f, src := src, dst := .lp n, arrived := arrived, orig := orig, since := now s } s
      else if takesNew s n then raiseX src (.lp n) f arrived orig s
      else copyGone orig (targetGone f stUnavail s)
  | 2 =>
    if f.cls == clsCM then toHome s
    else if f.cls == clsBM then
      (if isPosted f then discardRouted lp0 f orig s else copyGone orig (complete f stUnsup [] (epochNow s) s))
    else if f.cls == clsIO then
      (if isPosted f then settTakes f orig s else settTakes f orig (complete f stUnsup [] (epochNow s) s))
    else discardRouted lp0 f orig s
  | _ => if f.cls == clsCM then copyGone orig (complete f stUnsup [] (epochNow s) s) else replicate src (rGroup e) f arrived orig s

/-- The requests of a destination that wait for its old link follow its present entry; a transfer in progress stays (R139, R142, R198). -/
def followRoute (did old : Nat) (s : State) : State :=
  let e := routeEntry s did
  let cur := s.sw.arbs.filterMap (fun a => a.2.cur.map (·.id))
  if rKind e != 1 then s
  else modSw (fun w => { w with reqs := w.reqs.map (fun x => if x.f.did.toNat == did && x.dst == .lp old && !cur.contains x.id then { x with dst := .lp (rLp e) } else x) }) s

/-- Release the frames held for a destination over its present entry, after those that asked for the crossbar before (R139, R142, R148, R198). -/
def releaseHeld (did : Nat) (s : State) : State :=
  let h := tget s.sw.holds did
  let s := followRoute did h.oldLp (modSw (fun w => { w with holds := tset w.holds did default }) s)
  h.frames.foldl (fun s x => if isResponse x.f then routeResponse x.src x.f x.arrived x.orig s else routeRequest x.src x.f x.arrived x.orig s) s

end Sys2Proof.Machine
end

