-- ==== Sys2Proof/Machine/Gates.lean ====
section
/-! DEFINITION. The access gates: rules, placement, and the decision of each page (R466 to R475, R480). -/

namespace Sys2Proof.Machine

/-- The fields of a rule (R468). -/
def ruBase (r : BitVec 128) : Nat := bitsOf r.toNat 0 40
/-- Last page. -/
def ruLast (r : BitVec 128) : Nat := bitsOf r.toNat 40 40
/-- Tenant handle index. -/
def ruTenant (r : BitVec 128) : Nat := bitsOf r.toNat 80 12
/-- MATCH. -/
def ruMatch (r : BitVec 128) : Nat := bitsOf r.toNat 92 2
/-- Rule valid. -/
def ruV (r : BitVec 128) : Bool := r.getLsbD 94
/-- Permissions: bit 0 R, 1 W, 2 A, 3 C. -/
def ruPerm (r : BitVec 128) : Nat := bitsOf r.toNat 96 4
/-- Priority. -/
def ruPrio (r : BitVec 128) : Nat := bitsOf r.toNat 104 8
/-- The stored RCHK agrees with bits [111:0] (R302, R468). -/
def ruOk (r : BitVec 128) : Bool := (crc16 112 (r.toNat % 2 ^ 112)).toNat == bitsOf r.toNat 112 16
/-- A reserved field is set or MATCH is 0b11 (R469). -/
def ruReserved (r : BitVec 128) : Bool := r.getLsbD 95 || bitsOf r.toNat 100 4 != 0 || ruMatch r == 3

/-- The live slice that holds every page of a rule (R469). -/
def ruSlice (s : State) (r : BitVec 128) : Option (Handle × SliceRec) :=
  (s.ten.slices.find? (fun e => e.2.live && decide (e.2.base ≤ ruBase r * 4096) && decide (ruBase r ≤ ruLast r)
    && decide ((ruLast r + 1) * 4096 ≤ e.2.base + e.2.len))).map (fun e => (handleOf s 2 e.1, e.2))

/-- The logical ports that reach a target: those its routing entry names (R480). -/
def reachLps (s : State) (target : Nat) : List Nat :=
  let e := routeEntry s target
  if rKind e == 1 then (if rTv e then [rPrim e, rTwin e] else [rPrim e]) else []

/-- A gate checks a rule's pages: gates 0 to 15 for a coherent slice, else the gates of the ports that reach its target (R480). -/
def ruleOnGate (s : State) (g : Nat) (r : BitVec 128) : Bool :=
  match ruSlice s r with
  | some (_, sl) => if sl.coherent then decide (g < 16) else decide (g ≥ 16) && (reachLps s sl.target).contains (g - 16)
  | none => false

/-- The committed rules on a gate, each with its rule set (R480). -/
def gateRules (s : State) (g : Nat) : List (Handle × BitVec 128) :=
  s.ten.ruleSets.flatMap (fun e => if e.2.live then
    (e.2.committed.filter (ruleOnGate s g)).map (fun r => (handleOf s 7 e.1, r)) else [])

/-- A rule's MATCH accepts the origin (R471 step 1). -/
def ruAccepts (r : BitVec 128) (priv : Bool) (tenant : Nat) : Bool :=
  match ruMatch r with
  | 0 => !priv && ruTenant r == tenant
  | 1 => true
  | 2 => priv
  | _ => false

/-- The rules that apply to a page (R471 step 1). A rule that fails RCHK is skipped. -/
def applying (rules : List (Handle × BitVec 128)) (page : Nat) (priv : Bool) (tenant : Nat) : List (Handle × BitVec 128) :=
  rules.filter (fun x => ruOk x.2 && ruV x.2 && decide (ruBase x.2 ≤ page) && decide (page ≤ ruLast x.2) && ruAccepts x.2 priv tenant)

/-- The deciding permissions of a page and the rules that decide (R471 steps 2 and 3): none when no rule applies. -/
def deciding (rules : List (Handle × BitVec 128)) (page : Nat) (priv : Bool) (tenant : Nat) : Option (Nat × List (Handle × BitVec 128)) :=
  let a := applying rules page priv tenant
  if a.isEmpty then none
  else
    let top := a.foldl (fun m x => max m (ruPrio x.2)) 0
    let d := a.filter (fun x => ruPrio x.2 == top)
    some (d.foldl (fun p x => p &&& ruPerm x.2) 15, d)

/-- The default map grants a page with all four permissions (R472). -/
def defaultGrants (s : State) (page : Nat) : Bool :=
  s.ten.defaultMap.any (fun r => decide (r.1 ≤ page * 4096) && decide ((page + 1) * 4096 ≤ r.1 + r.2))

/-- The permissions that a page gives an origin (R471 to R473). -/
def pagePerms (s : State) (rules : List (Handle × BitVec 128)) (page : Nat) (priv : Bool) (tenant : Nat) : Nat :=
  match deciding rules page priv tenant with
  | some (p, _) => p
  | none => if priv && defaultGrants s page then 15 else 0

/-- The rule set that a refusal notice names: the lowest handle among the deciding rules that lack a needed permission; null when no rule applied (R476). -/
def refusingSet (rules : List (Handle × BitVec 128)) (page need : Nat) (priv : Bool) (tenant : Nat) : Handle :=
  match deciding rules page priv tenant with
  | some (_, d) =>
    let bad := (d.filter (fun x => (ruPerm x.2 &&& need) != need)).map (fun x => x.1.toNat)
    BitVec.ofNat 32 (bad.foldl min (bad.headD 0))
  | none => 0

/-- The permissions that an access needs (R470). -/
def needOf (f : Frame) : Nat :=
  match f.cls.toNat, f.opcode.toNat with
  | 0, 0x01 => 1 + 8
  | 0, 0x02 | 0, 0x03 => 1 + 2 + 8
  | 0, 0x04 => 1
  | 0, 0x05 | 0, 0x06 | 0, 0x07 => 4
  | 0, 0x13 | 0, 0x14 => 2
  | 1, 0x01 => 1
  | 1, 0x02 | 1, 0x03 | 1, 0x04 => 2
  | 2, 0x01 => 1
  | 2, 0x02 | 2, 0x03 => 2
  | _, _ => 0

/-- The bytes that an access touches. -/
def spanOf (f : Frame) : Nat :=
  if f.cls == clsCM then (if isAtomic f then f.data.length else 64)
  else max 1 (max f.data.length (asksFor f))

/-- The 4 KiB parts of an access: page, offset in the access, length (R474). -/
def partsOf (addr len : Nat) : List (Nat × Nat × Nat) :=
  let p0 := addr / 4096
  let p1 := (addr + len - 1) / 4096
  (rangeFrom p0 (p1 + 1 - p0)).map (fun p =>
    let lo := max addr (p * 4096)
    let hi := min (addr + len) ((p + 1) * 4096)
    (p, lo - addr, hi - lo))

/-- A gate decides an access by its first byte (R475): in first-byte mode, of a privileged origin or a tenant that is not strict. -/
def firstByteRule (s : State) (g : Nat) (f : Frame) : Bool :=
  (tget s.ten.gates g).firstByte && (f.priv || (match liveBind s f.binding with
    | some x => !(tenantOf s x.tenant).strict
    | none => false))

/-- The pages of an access that a gate examines and refuses (R471, R474, R475). -/
def gateBad (s : State) (g : Nat) (f : Frame) : List (Nat × Nat × Nat) :=
  let tenant := match liveBind s f.binding with
    | some x => hIdx x.tenant
    | none => 4096
  let parts := partsOf (fAddr f) (spanOf f)
  (if firstByteRule s g f then parts.take 1 else parts).filter (fun p => (pagePerms s (gateRules s g) p.1 f.priv tenant &&& needOf f) != needOf f)

/-- What a gate decides of an access. -/
inductive Verdict where
  | pass
  | refuse (rs : Handle)
  | parts (ok : List (Nat × Nat)) (rs : Handle)

/-- A gate's decision (R471 to R475): page by page; whole by the first byte in first-byte mode for privileged origins and tenants that are not strict; a read fails whole, a write applies the parts that pass. -/
def gateDecide (s : State) (g : Nat) (f : Frame) : Verdict :=
  if needOf f = 0 then .pass
  else
    let bad := gateBad s g f
    let parts := partsOf (fAddr f) (spanOf f)
    match bad with
    | [] => .pass
    | b :: _ =>
      let tenant := match liveBind s f.binding with
        | some x => hIdx x.tenant
        | none => 4096
      let rs := refusingSet (gateRules s g) b.1 (needOf f) f.priv tenant
      if isWrite f && f.cls != clsCM && !firstByteRule s g f && bad.length < parts.length then
        .parts ((parts.filter (fun p => !bad.contains p)).map (fun p => p.2)) rs
      else .refuse rs

/-- Count a gate's check and report rules that fail RCHK (R471, R474, R475, R494). -/
def gateCount (g : Nat) (f : Frame) (s : State) : State :=
  let n := (partsOf (fAddr f) (spanOf f)).length
  let first := firstByteRule s g f
  let s := bumpC .gChecks g 0 1 (ctxOf s f) s
  let s := if n > 1 && !first then bumpC .gSplit g 0 1 (ctxOf s f) s else s
  let s := if first then bumpC .gFirst g 0 1 (ctxOf s f) s else s
  (gateRules s g).foldl (fun s x => if ruOk x.2 then s else
    raise { code := 0x0502, cls := .degraded, block := if g < 16 then 138 + g else 128 + (g - 16) / 32, h1 := x.1 } (bump .gRuleFail g s)) s

/-- Submit an access to a gate: what it decides, with its counters; every refused page counts (R471, R494). -/
def gateCheck (g : Nat) (f : Frame) (s : State) : Verdict × State :=
  let v := gateDecide s g f
  let n := (gateBad s g f).length
  let s := gateCount g f s
  match v with
  | .pass => (v, s)
  | _ => (v, bumpC .gRefused g 0 n (ctxOf s f) s)

/-- A header check fails at a point of R186: the frame is discarded, counted and captured, and a Notice event raised (R186, R752). -/
def hchkFailure (lp block : Nat) (f : Frame) (s : State) : State :=
  let s := bump .hchkFail lp s
  let s := capture block 0x020E 1 6 lp (fAddr f) s
  raise { code := 0x020E, cls := .notice, block := block, arg := fAddr f } s

end Sys2Proof.Machine
end

