-- ==== Sys2Proof/Machine/Drey.lean ====
section
/-! DEFINITION. The Drey cache: lookup, allocation, victims, dirty counts, write-backs and bypass (R333, R338 to R352, R363, R364). -/

namespace Sys2Proof.Machine

/-- A Drey controller with its stack. -/
def dreyOf (s : State) (k : Nat) : DreySt := tget s.drey k

/-- Change one Drey controller. -/
def modDrey (k : Nat) (g : DreySt → DreySt) (s : State) : State := { s with drey := tmod s.drey k g }

/-- A Brock slice. -/
def slOf (s : State) (i : Nat) : SliceSt := tget s.slices i

/-- Change one Brock slice. -/
def modSl (i : Nat) (g : SliceSt → SliceSt) (s : State) : State := { s with slices := tmod s.slices i g }

/-- The controller of a line: the one of its home slice's stack (R333). -/
def dreyCtl (l : Nat) : Nat := homeSlice l / 4

/-- The number h of R338. -/
def dreyH (l : Nat) : Nat := l / 2 ^ 23 * 2 ^ 23 + dirSet l

/-- The Drey set of a line (R338). -/
def dreySet (l : Nat) : Nat := dreyH l % 14680064

/-- The Drey tag of a line (R338). -/
def dreyTag (l : Nat) : Nat := dreyH l / 14680064

/-- The line that a set and tag name: the inverse of R338. -/
def dreyLine (set tag : Nat) : Nat :=
  let h := tag * 14680064 + set
  h / 2 ^ 23 * 2 ^ 23 + ((h % 2 ^ 23) ^^^ (h / 2 ^ 23 % 2 ^ 23))

/-- A Drey way. -/
def wayOf (s : State) (k set w : Nat) : DreyWay := tget (dreyOf s k).ways (set * 16 + w)

/-- Write a Drey way. -/
def setWay (k set w : Nat) (v : DreyWay) (s : State) : State := modDrey k (fun d => { d with ways := tset d.ways (set * 16 + w) v }) s

/-- The metadata of a Drey way (R339). -/
def wayMeta (w : DreyWay) : BitVec 32 :=
  BitVec.ofNat 32 (w.tag % 2 ^ 23 + b2n w.v * 2 ^ 23 + b2n w.d * 2 ^ 24 + b2n w.p * 2 ^ 25 + b2n w.x * 2 ^ 26 + w.age % 4 * 2 ^ 27)

/-- The side word that is stored with a word of HBM (R334): the metadata, which is 0 outside the Drey, and the check symbols. -/
def sideWord (d : Line) (m : BitVec 32) : BitVec 64 := Config.rsCheck d m ++ m

/-- The code corrects any error that is confined to two symbols (R335). -/
def corrects (symbols : List (Fin 72)) : Bool := decide (symbols.eraseDups.length ≤ 2)

/-- The way that holds a line, read way by way until the tag is found (R340). -/
def dreyFind (s : State) (l : Nat) : Option Nat :=
  firstBelow 16 (fun w => let x := wayOf s (dreyCtl l) (dreySet l) w; x.v && x.tag == dreyTag l)

/-- The Drey region of a set, as a stack region (R332, R338). -/
def dreyRegion (set : Nat) : Nat := 32 + set / 262144

/-- A bypass set: its region is no longer live (R363, R364). -/
def bypassed (s : State) (l : Nat) : Bool := (tget (dreyOf s (dreyCtl l)).regions (dreyRegion (dreySet l))).st != 0

/-- The logical port to a memory target: the active link of its routing entry when that link is device-facing or fabric. -/
def targetLp (s : State) (target : Nat) : Option Nat :=
  let e := routeEntry s target
  if rKind e == 1 then some (rLp e) else none

/-- A line belongs to a persistent slice of a target of this module (R339, R400, R444). -/
def persistentLine (s : State) (l : Nat) : Bool :=
  match sliceAt s (l * 64) with
  | some (_, r) => r.persistent && (match targetLp s r.target with
    | some n => !isFabric s n
    | none => true)
  | none => false

/-- A line that this module holds as a proxy with an entry: its Drey copy stays, since it may be the line's newest data (R300, DEDUCED, assumption 7). -/
def proxyHeld (s : State) (l : Nat) : Bool := (slOf s (homeSlice l)).dir.any (fun e => e.2.px && e.2.la == l)


/-- The dirty count D_k (R348). -/
def dirtyCount (s : State) (k : Nat) : Nat :=
  ((dreyOf s k).ways.filter (fun e => e.2.v && e.2.d && e.2.p && !(dreyOf s k).issued.contains e.1)).length

/-- The quota of a controller in lines: DIRTY_CAP / 4 (R347). -/
def quota (s : State) : Nat := s.dur.dirtyCap * 2 ^ 22

/-- A privileged 64-byte access of a slice to the memory device of a line (R310, R400, R467). -/
def memFrame (s : State) (l : Nat) (write : Option (Line × Bool)) (tag target : Nat) : Frame :=
  let own := match ownDid s with
    | some d => d
    | none => 0xBFF
  match write with
  | some (d, poison) => sealHdr { opcode := 0x02, cls := clsBM, chan := 4, priv := true, did := BitVec.ofNat 12 target, sid := BitVec.ofNat 12 own, tag := BitVec.ofNat 16 tag, length := 64, addr := BitVec.ofNat 64 (l * 64), status := if poison then stPoison else 0, data := lineBytes d }
  | none => sealHdr { opcode := 0x01, cls := clsBM, chan := 4, priv := true, did := BitVec.ofNat 12 target, sid := BitVec.ofNat 12 own, tag := BitVec.ofNat 16 tag, length := 64, addr := BitVec.ofNat 64 (l * 64) }

/-- Issue a line's write to the memory device; a line of no slice, or whose target no port reaches, has nowhere to go. -/
def issueWrite (l : Nat) (d : Line) (poison : Bool) (s : State) : State :=
  match sliceAt s (l * 64) with
  | none => s
  | some (_, r) =>
    match targetLp s r.target with
    | none => s
    | some n =>
      if isFabric s n then s else
      let f := memFrame s l (some (d, poison)) (0x8000 + s.sw.nextId % 0x8000) r.target
      let s := modSl (homeSlice l) (fun x => { x with memHold := l :: x.memHold }) s
      raiseX (.slice (homeSlice l)) (.lp n) f (frameLen f) 0 s

/-- Update the cleaner and the cap of a controller from its dirty count (R349, R350). -/
def capUpdate (k : Nat) (s : State) : State :=
  let n := dirtyCount s k
  let q := quota s
  let d := dreyOf s k
  let t := now s
  let s := if n * 4 ≥ q * 3 then modDrey k (fun d => { d with cleaning := true }) s
    else if n * 2 < q then modDrey k (fun d => { d with cleaning := false }) s else s
  if n ≥ q && !d.capHold then modDrey k (fun d => { d with capHold := true, capSince := t }) s else s

/-- Write a dirty way back: it stays valid and becomes clean (R349, R402). -/
def writeBackWay (k key : Nat) (s : State) : State :=
  let w := tget (dreyOf s k).ways key
  let s := modDrey k (fun d => { d with ways := tset d.ways key { w with d := false } }) s
  issueWrite (dreyLine (key / 16) w.tag) w.data w.x s

/-- Send an evicted line's notice to its home and, when it is dirty, its write-back (R321, R345). -/
def evictWay (k set w : Nat) (s : State) : State :=
  let x := wayOf s k set w
  let s := setWay k set w {} s
  if x.v then
    let s := bump .dEvict k s
    if x.d then issueWrite (dreyLine set x.tag) x.data x.x (bump .dDirtyEvict k s) else s
  else s

/-- Raise AGE by 1 in every valid way below 3 (R344 step 3). -/
def ageSet (k set : Nat) (s : State) : State :=
  (List.range 16).foldl (fun s w =>
    let x := wayOf s k set w
    if x.v && x.age < 3 then setWay k set w { x with age := x.age + 1 } s else s) s

/-- Choose a victim way (R344): at most three rounds of ageing reach age 3. -/
def victimWay (k set : Nat) : Nat → State → Nat × State
  | 0, s => (0, s)
  | fuel + 1, s =>
    match firstBelow 16 (fun w => !(wayOf s k set w).v) with
    | some w => (w, s)
    | none =>
      match firstBelow 16 (fun w => let x := wayOf s k set w; x.age == 3 && !proxyHeld s (dreyLine set x.tag) && !((slOf s (homeSlice (dreyLine set x.tag))).memHold.contains (dreyLine set x.tag))) with
      | some w => (w, s)
      | none => victimWay k set fuel (ageSet k set s)

/-- Put a line into the Drey: over its own copy, or in a way that a victim leaves (R342 to R345). Dirty persistent data at the quota is written back at once (R350). -/
def dreyPut (l : Nat) (d : Line) (dirty poison : Bool) (age : Nat) (s : State) : State :=
  let k := dreyCtl l
  let set := dreySet l
  let p := persistentLine s l
  let atCap := dirty && p && (dreyOf s k).capHold
  let x : DreyWay := { tag := dreyTag l, v := true, d := dirty && !atCap, p := p, x := poison, age := age, data := d }
  let s := match dreyFind s l with
    | some w =>
      let o := wayOf s k set w
      setWay k set w { x with d := (dirty || o.d) && !atCap, age := 0 } s
    | none =>
      let (w, s) := victimWay k set 5 s
      setWay k set w x (evictWay k set w s)
  let s := if atCap then issueWrite l d poison s else s
  capUpdate k s

/-- A read lookup of the Drey: a hit sets AGE to 0 (R340, R343). -/
def dreyLookup (l : Nat) (s : State) : Option (Line × Bool) × State :=
  let k := dreyCtl l
  match dreyFind s l with
  | some w =>
    let x := wayOf s k (dreySet l) w
    (some (x.data, x.x), bump .dHits k (setWay k (dreySet l) w { x with age := 0 } s))
  | none => (none, bump .dMisses k s)

/-- Mark a line's Drey copy poisoned; a copy that is not there is made from memory's content, which the mark makes unreadable (R326 step 3). -/
def poisonLine (l : Nat) (s : State) : State :=
  let k := dreyCtl l
  match dreyFind s l with
  | some w => setWay k (dreySet l) w { wayOf s k (dreySet l) w with x := true } s
  | none =>
    let (n, s) := drawFree s
    dreyPut l (BitVec.ofNat 512 n) false true 1 s

/-- Drop every Drey copy that a test picks, without write-back. -/
def dropWays (k : Nat) (pick : Nat → DreyWay → Bool) (s : State) : State :=
  modDrey k (fun d => { d with ways := d.ways.filter (fun e => !pick e.1 e.2) }) s

/-- Write back every dirty way that a test picks (R363, R370, R402, R446); answers how many. -/
def writeBackAll (k : Nat) (pick : Nat → DreyWay → Bool) (s : State) : Nat × State :=
  let keys := ((dreyOf s k).ways.filter (fun e => e.2.v && e.2.d && pick e.1 e.2)).map (·.1)
  (keys.length, keys.foldl (fun s key => writeBackWay k key s) s)

/-- Write back every dirty way of the four controllers that a test picks; answers how many. -/
def flushDrey (pick : Nat → DreyWay → Bool) (s : State) : Nat × State :=
  (List.range 4).foldl (fun (a : Nat × State) k =>
    let (n, s) := writeBackAll k pick a.2
    (a.1 + n, s)) (0, s)

end Sys2Proof.Machine
end

