-- ==== Sys2Proof/Machine/Dir.lean ====
section
/-! DEFINITION. The directory: entries and their check, sets and the set cache, trackers, and the snoops and grants that a slice sends (R289 to R309, R353 to R357). -/

namespace Sys2Proof.Machine

/-- Bits [111:0] of an entry (R301). -/
def entryBits (e : DirEntry) : Nat :=
  e.la % 2 ^ 46 + e.st % 16 * 2 ^ 46 + b2n e.coarse * 2 ^ 50 + e.nptr % 8 * 2 ^ 51 + e.fidx % 4 * 2 ^ 54
    + b2n e.fv * 2 ^ 56 + b2n e.px * 2 ^ 57 + b2n e.ref * 2 ^ 58 + e.shr.toNat * 2 ^ 64 + e.trk % 4096 * 2 ^ 96

/-- The ECHK of an entry's content (R302). -/
def echkOf (e : DirEntry) : BitVec 16 := crc16 112 (entryBits e)

/-- The 128 bits of an entry as stored (R301). -/
def entryWord (e : DirEntry) : Nat := entryBits e + e.echk.toNat * 2 ^ 112

/-- An entry as a slice writes it: with its check, or a free way when it is I with no flow (R302, R303). -/
def sealEntry (e : DirEntry) : DirEntry := if e.st = 0 && e.trk = 0 then default else { e with echk := echkOf e }

/-- A read of an entry fails: a wrong check or a reserved STATE (R303, R329). A free way never fails. -/
def entryFails (e : DirEntry) : Bool := e != default && (e.echk != echkOf e || e.st ≥ 12)

/-- The entry in a way of a slice, named set × 16 + way. -/
def dirAt (s : State) (i key : Nat) : DirEntry := tget (slOf s i).dir key

/-- Write an entry. -/
def putDir (i key : Nat) (e : DirEntry) (s : State) : State := modSl i (fun x => { x with dir := tset x.dir key (sealEntry e) }) s

/-- The key of the way that holds a line's entry. -/
def dirKey (s : State) (i l : Nat) : Option Nat :=
  (firstBelow 16 (fun w => let e := dirAt s i (dirSet l * 16 + w); e != default && e.la == l && !entryFails e)).map (fun w => dirSet l * 16 + w)

/-- The pointers of a pointer-mode entry (R301). -/
def ptrs (e : DirEntry) : List Nat := if e.coarse then [] else (List.range e.nptr).map (fun k => bitsOf e.shr.toNat (8 * k) 8)

/-- An entry with other pointers; the F agent, when it stays, keeps its name (R301). -/
def withPtrs (e : DirEntry) (l : List Nat) (f : Option Nat) : DirEntry :=
  let shr := (l.zipIdx).foldl (fun v x => v + x.1 * 2 ^ (8 * x.2)) 0
  match f.bind (fun a => l.findIdx? (· == a)) with
  | some k => { e with coarse := false, nptr := l.length, shr := BitVec.ofNat 32 shr, fidx := k, fv := true }
  | none => { e with coarse := false, nptr := l.length, shr := BitVec.ofNat 32 shr, fidx := 0, fv := false }

/-- The agent that an entry names as F. -/
def fAgent (e : DirEntry) : Option Nat := if e.fv && !e.coarse then (ptrs e)[e.fidx]? else none

/-- The logical ports that an entry's SHR covers (R306): the pointers, or every caching agent of a set group. -/
def sharers (s : State) (e : DirEntry) : List Nat :=
  if e.coarse then (List.range 256).filter (fun n => e.shr.getLsbD (n / 8) && isAgent s n) else ptrs e

/-- An agent is recorded as a holder: a pointer, or its coarse group (R316). -/
def recordsAgent (e : DirEntry) (a : Nat) : Bool := if e.coarse then e.shr.getLsbD (a / 8) else (ptrs e).contains a

/-- Add a shared holder (R304, R313): it becomes F when it is a Den agent in pointer mode; a fifth holder makes the entry coarse. -/
def addSharer (e : DirEntry) (r : Nat) (den : Bool) : DirEntry :=
  if e.coarse then { e with shr := e.shr ||| (1#32 <<< (r / 8)) }
  else
    let p := ptrs e
    let p' := if p.contains r then p else p ++ [r]
    if p'.length ≤ 4 then withPtrs e p' (if den then some r else fAgent e)
    else { e with coarse := true, nptr := 0, fidx := 0, fv := false, shr := p'.foldl (fun v a => v ||| (1#32 <<< (a / 8))) 0#32 }

/-- Remove a holder from a pointer-mode entry, with FV when it was F; a coarse entry clears no bit (R305, R317, R319). -/
def dropPtr (e : DirEntry) (a : Nat) : DirEntry :=
  if e.coarse then e else
    let f := match fAgent e with
      | some x => if x = a then none else some x
      | none => none
    withPtrs e ((ptrs e).filter (· != a)) f

/-- A tracker. -/
def trkOf (s : State) (i k : Nat) : Trk := tget (slOf s i).trks k

/-- Change a tracker. -/
def modTrk (i k : Nat) (g : Trk → Trk) (s : State) : State := modSl i (fun x => { x with trks := tmod x.trks k g }) s

/-- The lowest free tracker (R296). -/
def freeTrk (s : State) (i : Nat) : Option Nat := firstBelow 2048 (fun k => !(trkOf s i k).used)

/-- A CM request that needs a tracker (R296). -/
def needsTracker (f : Frame) : Bool := f.cls == clsCM && (f.opcode.toNat < 0x10 || f.opcode == 0x13 || f.opcode == 0x14)

/-- Grants are withheld from now on when no tracker is free and a request waits for one (R296, R330). -/
def noteFull (i : Nat) (s : State) : State :=
  if (freeTrk s i).isNone && s.sw.reqs.any (fun x => x.dst == .slice i && needsTracker x.f) then
    modSl i (fun x => { x with fullSince := x.fullSince.or (some (now s)) }) s
  else s

/-- A tracker is free again: the time for which grants were withheld counts (R330). -/
def fullEnd (i : Nat) (s : State) : State :=
  match (slOf s i).fullSince with
  | some t => bumpC .trkFull i 0 (now s - t) {} (modSl i (fun x => { x with fullSince := none }) s)
  | none => s

/-- The tracker whose flow is in progress on a line (R293, R295). -/
def busyTrk (s : State) (i l : Nat) : Option Nat :=
  ((slOf s i).trks.find? (fun e => e.2.used && e.2.line == l && e.2.phase != .conflict)).map (·.1)

/-- The line is coherent: the slice record that holds it says so. -/
def coherentLine (s : State) (l : Nat) : Bool :=
  match sliceAt s (l * 64) with
  | some (_, r) => r.coherent
  | none => false

/-- The fabric port that leads to a line's home, when the home is another Dizal (R300). -/
def remoteLp (s : State) (l : Nat) : Option Nat :=
  match sliceAt s (l * 64) with
  | some (_, r) =>
    match targetLp s r.target with
    | some n => if isFabric s n then some n else none
    | none => none
  | none => none

/-- The link that reaches a requester: its own, or its live twin's (R139). -/
def replyLp (s : State) (n : Nat) : Option Nat :=
  if linkLive s n || (initOf s n).retrain ≠ 0 then some n else liveTwin s n

/-- Send a slice's message to a logical port; one for a port that is down is discarded and counted (R130). -/
def sliceSend (i lp : Nat) (f : Frame) (s : State) : State :=
  match replyLp s lp with
  | some n => raiseX (.slice i) (.lp n) f (frameLen f) 0 s
  | none => bump .respDisc lp s

/-- This device's identifier as a source. -/
def selfDid (s : State) : BitVec 12 := BitVec.ofNat 12 (match ownDid s with | some d => d | none => 0xBFF)

/-- A CM message that a slice originates: header check set at the slice (R185, R308, DEDUCED, assumption 68). -/
def slFrame (s : State) (op lp l tag : Nat) (st : BitVec 4) (data : Bytes) : Frame :=
  sealHdr { opcode := BitVec.ofNat 8 op, cls := clsCM, chan := BitVec.ofNat 3 (chanOf clsCM op), did := BitVec.ofNat 12 (didOf s lp), sid := selfDid s, tag := BitVec.ofNat 16 tag, length := BitVec.ofNat 16 data.length, addr := BitVec.ofNat 64 (l * 64), status := st, data := data }

/-- A response to a request (R308): its opcode, status, epoch and data, with the request's tag. -/
def respFrame (f : Frame) (op : Nat) (st : BitVec 4) (epoch : Nat) (data : Bytes) : Frame :=
  sealHdr { opcode := BitVec.ofNat 8 op, prio := f.prio, cls := clsCM, chan := 1, priv := f.priv, did := f.sid, sid := f.did, binding := f.binding, tag := f.tag, length := BitVec.ofNat 16 data.length, addr := f.addr, status := st, epoch := BitVec.ofNat 16 epoch, data := data }

/-- Send CMP for a message with a status: the epoch of a write-class completion (R308). -/
def sendCmp (i lp : Nat) (f : Frame) (st : BitVec 4) (s : State) : State :=
  sliceSend i lp (respFrame f 0x86 st (if isWrite f then (epochNow s) else 0) []) s

/-- The directory region of a set (R332): the stack region of a slice's set. -/
def dirRegion (i set : Nat) : Nat := 8 * (i % 4) + set / 2 ^ 20

/-- A set is occupied when any of its ways is not I (R354). -/
def occupied (s : State) (i set : Nat) : Bool := (List.range 16).any (fun w => dirAt s i (set * 16 + w) != default)

/-- Cache a directory set in the slice's SRAM: 11 ways by least recently used (R353, R357). -/
def cacheSet (i set : Nat) (s : State) : State :=
  modSl i (fun x => { x with cached := tmod x.cached (set % 4096) (fun l => (set :: l.filter (· != set)).take 11) }) s

/-- Look a directory set up for a tracker (R353 to R356): true when it can be served now; otherwise the tracker waits for the set. -/
def setAccess (i k set : Nat) (s : State) : Bool × State :=
  let x := slOf s i
  if !occupied s i set then (true, cacheSet i set (bump .emptySet i s))
  else if (tget x.cached (set % 4096)).contains set then (true, cacheSet i set (bump .setHits i s))
  else if x.misses.any (fun m => m.1 == set) then
    (false, bump .merged i (modSl i (fun x => { x with misses := x.misses.map (fun m => if m.1 == set then (m.1, m.2 ++ [k]) else m) }) s))
  else if x.misses.length < 256 then
    (false, bump .setMisses i (modSl i (fun x => { x with misses := x.misses ++ [(set, [k])] }) s))
  else (false, s)

/-- Put a tracker on its slice's list of flows to start or to go on. -/
def makeReady (i k : Nat) (s : State) : State := modSl i (fun x => { x with ready := x.ready ++ [k] }) s

/-- Make every tracker ready that waits in one of some phases and satisfies a test, in tracker order. -/
def wake (i : Nat) (p : Trk → Bool) (s : State) : State :=
  let ks := ((slOf s i).trks.filter (fun e => e.2.used && p e.2 && !(slOf s i).ready.contains e.1)).map (·.1)
  ks.foldl (fun s k => makeReady i k s) s

/-- The event rule of R176 for the agents' snoop timeouts (R325). -/
def snoopEvent (i lp : Nat) (s : State) : State :=
  let w := (cfgOf s lp).window
  let t := tget s.coh.lastEvent lp
  if t = 0 || now s ≥ t - 1 + w then
    raise { code := 0x0701, cls := .degraded, block := 138 + i, arg := lp } { s with coh := { s.coh with lastEvent := tset s.coh.lastEvent lp (now s + 1) } }
  else s

end Sys2Proof.Machine
end

