-- ==== Sys2Proof/Machine/Brock.lean ====
section
/-! DEFINITION. Request flows at a Brock slice: start, snoops, answers, data, grants and the end of a flow, for a home and for a proxy (R291 to R329). -/

namespace Sys2Proof.Machine

/-- Length and alignment of a CM message agree with R308 and R309. -/
def cmWellFormed (f : Frame) : Bool :=
  let n := f.data.length
  let a := fAddr f
  let lenOk := match f.opcode.toNat with
    | 0x05 | 0x06 => n == 4 || n == 8
    | 0x07 => n == 8 || n == 16 || n == 32
    | 0x10 | 0x13 => n == 64
    | 0x14 => n == 72
    | 0x81 | 0x82 | 0x83 | 0x84 => n == 64
    | 0x87 => n == 4 || n == 8 || n == 16
    | 0x92 | 0x93 | 0x94 | 0x95 | 0x97 => n == 64
    | _ => n == 0
  let alignOk := if f.opcode == 0x86 || f.opcode == 0x87 then true else if isAtomic f then a % (if f.opcode == 0x07 then max 1 (n / 2) else max 1 n) == 0 else a % 64 == 0
  lenOk && f.length.toNat == n && alignOk

/-- The operation of an atomic on a line (R323): the line after, and the value returned. -/
def atomicOn (f : Frame) (old : Line) : Line × Bytes :=
  let off := fAddr f % 64
  let n := if f.opcode == 0x07 then f.data.length / 2 else f.data.length
  let cur := ((lineBytes old).drop off).take n
  let a := f.data.take n
  let nw := match f.opcode.toNat with
    | 0x05 => leBytes n ((leNat cur + leNat a) % 2 ^ (8 * n))
    | 0x06 => a
    | _ => if cur = a then (f.data.drop n).take n else cur
  (linePut old off nw, cur)

/-- The line that a home operation leaves (R316, R323): the line after and the value returned. -/
def homeOp (f : Frame) (old : Line) : Line × Bytes :=
  match f.opcode.toNat with
  | 0x13 => (lineFrom f.data, [])
  | 0x14 => (lineMerge old (leNat (f.data.take 8)) (f.data.drop 8), [])
  | _ => atomicOn f old

/-- A request that the home carries out itself (R316): WR_LINE, WR_PART and atomics. -/
def isHomeOp (f : Frame) : Bool := [0x05, 0x06, 0x07, 0x13, 0x14].contains f.opcode.toNat

/-- The owner that an entry records: pointer 0 of O or of a transient state that came from O (R303, R304). -/
def ownerOf (e : DirEntry) : Option Nat :=
  if !e.coarse && e.nptr == 1 && [2, 7, 8, 9].contains e.st then (ptrs e).head? else none

/-- The stable state that an entry's holders make (R303). -/
def stableSt (e : DirEntry) : Nat :=
  if e.coarse then (if e.px && e.st == 2 then 2 else 1)
  else if e.nptr = 0 then 0
  else if [2, 7, 8, 9].contains e.st then 2 else 1

/-- The Drey copy of a line and whether it is dirty. -/
def dreyCopy (s : State) (l : Nat) : Option (Line × Bool) :=
  (dreyFind s l).map (fun w => let x := wayOf s (dreyCtl l) (dreySet l) w; (x.data, x.d))

/-- Drop a line's Drey copy. -/
def dreyDrop (l : Nat) (s : State) : State :=
  match dreyFind s l with
  | some w => setWay (dreyCtl l) (dreySet l) w {} s
  | none => s

/-- Dirty data of a line enters the Drey (R312, R342); for a bypass set it is written through, and the answer is that the flow must wait (R364). -/
def takeDirty (l : Nat) (d : Line) (poison : Bool) (s : State) : Bool × State :=
  if bypassed s l then (true, issueWrite l d poison (bump .bypass (dreyCtl l) s))
  else (false, dreyPut l d true poison 1 s)

/-- A proxy sends its notice to the home as its last holder drops the line (R300): WB_M with newer data, EVICT_E for ownership, else EVICT_S. It sends nothing more for the line until the CMP (R311). -/
def releaseProxy (i key : Nat) (owned : Bool) (s : State) : State :=
  let l := (dirAt s i key).la
  let s := modSl i (fun x => { x with dir := tset x.dir key default }) s
  match remoteLp s l, sliceAt s (l * 64) with
  | some n, some (_, r) =>
    let (op, data) := match owned, dreyCopy s l with
      | true, some (d, true) => (0x10, lineBytes d)
      | true, _ => (0x11, [])
      | false, _ => (0x12, [])
    let f := sealHdr { slFrame s op n l (0x8000 + s.sw.nextId % 0x8000) 0 data with did := BitVec.ofNat 12 r.target }
    sliceSend i n f (modSl i (fun x => { x with memHold := l :: x.memHold }) (dreyDrop l s))
  | _, _ => s

/-- Start a waiting recall when a tracker is free (R455, R485). -/
def drainRecalls (i : Nat) (s : State) : State :=
  match (slOf s i).recalls, freeTrk s i with
  | (l, a) :: r, some k =>
    let s := modSl i (fun x => { x with recalls := r }) s
    let busy := (busyTrk s i l).isSome
    let s := noteFull i (modTrk i k (fun _ => { used := true, line := l, lp := 256 + a, phase := if busy then .conflict else .run, since := now s }) s)
    if busy then modSl i (fun x => { x with conflicts := x.conflicts ++ [(l, k)] }) s else makeReady i k s
  | _, _ => s

/-- A flow ends (R293, R303): its entry returns to a stable state with REF set, its tracker is free, and the next request of the line's conflict list is ready to start. -/
def endFlow (i k : Nat) (s : State) : State :=
  let t := trkOf s i k
  let s := match t.way with
    | some key =>
      let e := dirAt s i key
      if e.px && stableSt e == 0 then releaseProxy i key (e.st == 2 || e.st ≥ 6) s
      else putDir i key (if stableSt e = 0 then default else { e with st := stableSt e, trk := 0, ref := true }) s
    | none => s
  let s := fullEnd i (modSl i (fun x => { x with trks := tset x.trks k default }) s)
  let s := match (slOf s i).conflicts.find? (fun c => c.1 == t.line) with
    | some c =>
      let s := modSl i (fun x => { x with conflicts := x.conflicts.erase c }) s
      makeReady i c.2 (modTrk i c.2 (fun t => { t with phase := .run }) s)
    | none => s
  let s := wake i (fun u => u.phase == .waitWay && dirSet u.line == dirSet t.line) s
  drainRecalls i s

/-- Answer a request of a flow (R308, R327): a grant or completion, with status POISONED for poisoned data. -/
def reply (i k op : Nat) (data : Bytes) (poison : Bool) (s : State) : State :=
  let t := trkOf s i k
  let s := if poison then bump .poisonReads i s else s
  let ep := if isWrite t.f then (epochNow s) else 0
  sliceSend i t.lp (respFrame t.f op (if poison then stPoison else stOK) ep data) s

/-- A flow ends without its result (R129, R131, R172): with a status; a CXL write that was lost is told to its binding. -/
def failFlow (i k : Nat) (st : BitVec 4) (s : State) : State :=
  let t := trkOf s i k
  let gone := st == stUnavail || st == stUnknown || st == stTimeout
  let s := if gone && t.f.opcode != 0 && cxlSilent s t.f then addNotice t.f.binding .unavailable 0 (epochNow s) s else s
  let s := if t.f.opcode == 0 then s else sliceSend i t.lp (respFrame t.f 0x86 st (if isWrite t.f then (epochNow s) else 0) []) s
  endFlow i k s

/-- Change the entry of a flow. -/
def modEnt (i k : Nat) (g : DirEntry → DirEntry) (s : State) : State :=
  match (trkOf s i k).way with
  | some key => putDir i key (g (dirAt s i key)) s
  | none => s

/-- The entry of a flow. -/
def entOf (s : State) (i k : Nat) : DirEntry :=
  match (trkOf s i k).way with
  | some key => dirAt s i key
  | none => default

/-- Read a flow's line from the memory device; a line held for its write waits for that first (R316, R321). -/
def issueRead (i k : Nat) (s : State) : State :=
  let t := trkOf s i k
  if (slOf s i).memHold.contains t.line then modTrk i k (fun t => { t with asked := 2 }) s
  else
    match sliceAt s (t.line * 64) with
    | none => failFlow i k stUnsup s
    | some (_, r) =>
      match targetLp s r.target with
      | none => failFlow i k stUnsup s
      | some n =>
        if !takesNew s n then failFlow i k stUnavail s
        else if isFabric s n then
          let f := sealHdr { slFrame s 0x01 n t.line k 0 [] with did := BitVec.ofNat 12 r.target }
          raiseX (.slice i) (.lp n) f (frameLen f) 0 (modTrk i k (fun t => { t with asked := 3, fwd := true }) s)
        else
          let f := memFrame s t.line none (i * 2048 + k) r.target
          raiseX (.slice i) (.lp n) f (frameLen f) 0 (modTrk i k (fun t => { t with asked := 3 }) s)

/-- Forward a proxy's request to the home (R300, R311). -/
def forwardHome (i k op : Nat) (s : State) : State :=
  let t := trkOf s i k
  if (slOf s i).memHold.contains t.line then modTrk i k (fun t => { t with asked := 2, fwd := true }) s
  else
    match remoteLp s t.line with
    | none => failFlow i k stUnsup s
    | some n =>
      if !takesNew s n then failFlow i k stUnavail s
      else
        let f := sealHdr { slFrame s op n t.line k 0 [] with did := t.f.did, binding := t.f.binding, priv := t.f.priv }
        raiseX (.slice i) (.lp n) f (frameLen f) 0 (modTrk i k (fun t => { t with asked := 3, fwd := true }) s)

/-- Carry out a home operation once its old data is there (R316, R322, R364): into the Drey as dirty, or through to memory for a bypass set and for a bulk line (R324). -/
def doHomeOp (i k : Nat) (s : State) : State :=
  let t := trkOf s i k
  let whole := t.f.opcode == 0x13 || (t.f.opcode == 0x14 && leNat (t.f.data.take 8) == 2 ^ 64 - 1)
  let (l', ret) := homeOp t.f (t.data.getD 0)
  let poison := t.poison && !whole
  let s := if isAtomic t.f then bumpC .atomics i (t.f.opcode.toNat - 5) 1 (ctxOf s t.f) s else s
  if t.bulk then
    issueWrite t.line l' poison (modTrk i k (fun t => { t with phase := .memWrite, old := ret, poison := poison }) s)
  else
    let (wait, s) := takeDirty t.line l' poison s
    if wait then modTrk i k (fun t => { t with phase := .memWrite, old := ret, poison := poison }) s
    else
      let s := reply i k (if ret.isEmpty then 0x86 else 0x87) ret (poison && !ret.isEmpty) s
      endFlow i k (modEnt i k (fun e => { e with st := 0 }) s)

/-- A flow has all it waits for: the grant of R313 and R316, or the home operation. -/
def finishFlow (i k : Nat) (s : State) : State :=
  let t := trkOf s i k
  let r := t.lp
  let den := isDen s r
  let e := entOf s i k
  let data := lineBytes (t.data.getD 0)
  let own := fun (e : DirEntry) => withPtrs { e with st := 2 } [r] none
  match t.f.opcode.toNat with
  | 0x00 => endFlow i k s
  | 0x01 =>
    if e.st == 3 && t.grant != 1 then
      let s := modEnt i k (fun e => if den || e.px then own e else { withPtrs e [r] none with st := 1 }) s
      endFlow i k (reply i k (if den then 0x81 else 0x82) data t.poison s)
    else
      let e' := addSharer e r den
      let s := if e'.coarse && !e.coarse then bump .coarseConv i s else s
      let s := modEnt i k (fun _ => { e' with st := if e.px && (t.grant == 2 || (t.grant == 0 && t.goE)) then 2 else 1 }) s
      let op := if e'.coarse || !den then 0x82 else 0x83
      endFlow i k (reply i k op data t.poison s)
  | 0x02 => endFlow i k (reply i k 0x81 data t.poison (modEnt i k own s))
  | 0x03 =>
    let s := modEnt i k own s
    endFlow i k (if t.goE && t.data.isNone then reply i k 0x85 [] false s else reply i k 0x81 data t.poison s)
  | 0x04 => endFlow i k (reply i k 0x84 data t.poison s)
  | _ => doHomeOp i k s

/-- Let a flow go on: once no answer is due it leaves its recall, asks for data it still needs, or finishes (R316, R319). -/
def advance (i k : Nat) (s : State) : State :=
  let t := trkOf s i k
  if !t.used || !t.due.isEmpty then s
  else
    match t.phase with
    | .victim =>
      let s := if (dirAt s i t.recWay).px then releaseProxy i t.recWay t.recOwn s else modSl i (fun x => { x with dir := tset x.dir t.recWay default }) s
      makeReady i k (modTrk i k (fun t => { t with phase := .run }) s)
    | .recover =>
      let s := modSl i (fun x => { x with dir := tset x.dir t.recWay default }) s
      makeReady i k (modTrk i k (fun t => { t with phase := .run, gotDirty := false, way := none }) s)
    | .holders =>
      if t.wthru then s
      else if isHomeOp t.f then
        let s := modEnt i k (fun e => { withPtrs e [] none with st := 0xB }) s
        let need := !(t.f.opcode == 0x13 || (t.f.opcode == 0x14 && leNat (t.f.data.take 8) == 2 ^ 64 - 1))
        if need then modTrk i k (fun t => { t with phase := .run, need := true, asked := 1, data := none }) s
        else doHomeOp i k (modTrk i k (fun t => { t with phase := .run }) s)
      else if t.f.opcode == 0 then
        endFlow i k (if t.lp ≥ 512 then modEnt i k (fun e => { withPtrs e [] none with st := 0 }) s else s)
      else
        let s := modEnt i k (fun e => { withPtrs e [] none with st := 0, trk := 0 }) s
        makeReady i k (modTrk i k (fun t => { t with phase := .run, data := none, way := none }) s)
    | .run =>
      if t.wthru || t.fwd then s
      else if !t.need || t.data.isSome then finishFlow i k s
      else if t.asked = 0 then modTrk i k (fun t => { t with asked := 1 }) s
      else s
    | _ => s

/-- Take one snoop answer of an agent into its flow (R319). `noticed` says that the agent's notice was applied during the flow; `data` comes with its dirtiness. -/
def applyAnswer (i k lp op : Nat) (data : Bytes) (poison : Bool) (s : State) : State :=
  let t := trkOf s i k
  match t.due.find? (fun d => d.lp == lp) with
  | none => s
  | some d =>
    let s := modTrk i k (fun t => { t with due := t.due.erase d }) s
    let drop := fun (s : State) => if t.phase == .victim || t.phase == .recover then s else modEnt i k (fun e => dropPtr e lp) s
    let keepS := fun (s : State) => modEnt i k (fun e => { e with st := 4 }) s
    let ownerSnoop := d.op == 0x20 || d.op == 0x21
    let line := if t.phase == .victim || t.phase == .recover then t.recLine else t.line
    let use := fun (s : State) => if t.phase == .run then modTrk i k (fun t => { t with data := some (lineFrom data), poison := poison }) s else s
    let dirty := fun (s : State) =>
      if t.phase == .recover && t.gotDirty then bump .dirtyDisc i s
      else
        let (wait, s) := takeDirty line (lineFrom data) poison s
        modTrk i k (fun t => { t with wthru := t.wthru || (wait && t.phase == .run), gotDirty := true }) s
    let violate := fun (s : State) => drop (agentViolation lp (bump .cohViolS i s))
    let s := match op with
      | 0x90 => if d.noticed then s else if d.op == 0x22 || ownerSnoop then drop s else violate s
      | 0x91 => if d.op == 0x20 then keepS s else violate s
      | 0x92 => if ownerSnoop then use (drop s) else violate s
      | 0x93 => if ownerSnoop then use (drop (dirty s)) else violate s
      | 0x94 => if d.op == 0x20 then use (keepS s) else if d.op == 0x23 then use (modTrk i k (fun t => { t with need := true }) s) else violate s
      | 0x95 => if d.op == 0x20 then use (keepS (dirty s)) else violate s
      | 0x96 =>
        if d.noticed then s
        else if d.op == 0x23 then modEnt i k (fun e => { e with fv := false }) s
        else drop (if (slOf s i).lost.getLsbD lp then s else bump .notPresent i s)
      | 0x97 => if d.op == 0x24 then use s else violate s
      | _ => violate s
    -- SNP_FWD that brought no data: the data comes from memory
    let t' := trkOf s i k
    let s := if d.op == 0x23 && t'.data.isNone then issueRead i k s else s
    advance i k s

/-- Send a snoop to a set of agents and count the answers due (R214, R306, R325); a lost agent is answered for at once (R326). -/
def snoop (i k op : Nat) (lps : List Nat) (s : State) : State :=
  let l := let t := trkOf s i k; if t.phase == .victim || t.phase == .recover then t.recLine else t.line
  let due : List Due := lps.map (fun n => { lp := n, op := op, deadline := now s + s.coh.snoopTimeout })
  let s := modTrk i k (fun t => { t with due := t.due ++ due }) s
  let lost := lps.filter (fun n => (slOf s i).lost.getLsbD n)
  let s := (lps.filter (fun n => !(slOf s i).lost.getLsbD n)).foldl (fun s n =>
    sliceSend i n (slFrame s op n l k 0 []) (bumpC .snoops i (op - 0x20) 1 {} s)) s
  lost.foldl (fun s n => applyAnswer i k n 0x96 [] false (bump .lostAns i s)) s

/-- Recall every holder of an entry under a flow: SNP_INV_DATA to an owner, SNP_INV to each sharer (R307, R316). -/
def recallHolders (i k : Nat) (e : DirEntry) (s : State) : State :=
  match ownerOf e with
  | some o => snoop i k 0x21 [o] s
  | none => snoop i k 0x22 (sharers s e) s

/-- A failed entry of a flow's set (R329): its content is discarded and captured, and the line is recalled from every caching agent that is not lost. -/
def recoverEntry (i k key : Nat) (s : State) : State :=
  let e := dirAt s i key
  let s := capture (138 + i) 0x0702 4 6 i (e.la * 64) s
  let s := raise { code := 0x0702, cls := .degraded, block := 138 + i, arg := e.la * 64 } (bump .entryFail i s)
  let agents := (List.range 256).filter (fun n => isAgent s n && !(slOf s i).lost.getLsbD n)
  let s := modTrk i k (fun t => { t with phase := .recover, recWay := key, recLine := e.la, gotDirty := false, due := [], way := if t.way == some key then none else t.way }) s
  let s := modSl i (fun x => { x with dir := tset x.dir key { st := 10, la := e.la, trk := k + 1, echk := echkOf { st := 10, la := e.la, trk := k + 1 } } }) s
  advance i k (snoop i k 0x21 agents s)

/-- Choose a way for a line that needs an entry (R307): a free way, or a victim that is recalled first, or none while every way is transient. -/
def allocWay (i k : Nat) (s : State) : Option Nat × State :=
  let t := trkOf s i k
  let base := dirSet t.line * 16
  match firstBelow 16 (fun w => dirAt s i (base + w) == default) with
  | some w => (some (base + w), s)
  | none =>
    let stable := fun (s : State) w => let e := dirAt s i (base + w); e.trk == 0 && (e.st == 1 || e.st == 2)
    let pick := fun (s : State) => firstBelow 16 (fun w => stable s w && !(dirAt s i (base + w)).ref)
    let (v, s) := match pick s with
      | some w => (some w, s)
      | none =>
        let any := (List.range 16).any (fun w => stable s w)
        let s := (List.range 16).foldl (fun s w =>
          let e := dirAt s i (base + w)
          if any && e.ref then putDir i (base + w) { e with ref := false } s else s) s
        (pick s, s)
    match v with
    | none => (none, modTrk i k (fun t => { t with phase := .waitWay }) s)
    | some w =>
      let key := base + w
      let e := dirAt s i key
      let s := bump .victims i s
      let s := modTrk i k (fun t => { t with phase := .victim, recWay := key, recLine := e.la, recOwn := e.st == 2 }) s
      let s := putDir i key { e with st := 10, trk := k + 1 } s
      (none, advance i k (recallHolders i k e s))

/-- Mark a flow's entry transient with its tracker (R301, R303). -/
def transient (i k key st : Nat) (s : State) : State :=
  let s := modTrk i k (fun t => { t with way := some key }) s
  putDir i key { dirAt s i key with la := (trkOf s i k).line, st := st, trk := k + 1 } s

/-- Start a flow that finds its line in I and ends in S or O: allocate an entry and fetch the data (R316). -/
def startFresh (i k : Nat) (px : Bool) (s : State) : State :=
  match allocWay i k s with
  | (none, s) => s
  | (some key, s) =>
    let s := putDir i key { la := (trkOf s i k).line, px := px, trk := k + 1, st := 3 } (modTrk i k (fun t => { t with way := some key, phase := .run, need := true }) s)
    if px then forwardHome i k (if (trkOf s i k).f.opcode == 0x01 then 1 else 2) s
    else modTrk i k (fun t => { t with asked := 1 }) s

/-- Serve a request as the table of R316 gives, with R314 and R315; a proxy serves what its grant satisfies and forwards the rest (R300). -/
def serveLine (i k : Nat) (s : State) : State :=
  let t := trkOf s i k
  let r := t.lp
  let px := (remoteLp s t.line).isSome
  let s := modTrk i k (fun t => { t with phase := .run, asked := 0, need := false, data := none, goE := false }) s
  match dirKey s i t.line with
  | none =>
    let op := t.f.opcode.toNat
    let s := if op == 0x03 then bump .upgOwn i s else s
    if op == 0 then endFlow i k s
    else if op ≤ 0x03 then startFresh i k px s
    else if isHomeOp t.f then advance i k (modTrk i k (fun t => { t with phase := .holders }) s)
    else modTrk i k (fun t => { t with need := true, asked := 1 }) s
  | some key =>
    let e := dirAt s i key
    let owner := ownerOf e
    let others := (sharers s e).filter (· != r)
    let grantO := e.px && e.st == 2
    let serveOwn := fun (data : Bool) (s : State) =>
      let fwd := e.px && e.st == 1
      let s := transient i k key 6 (modTrk i k (fun t => { t with need := data || fwd, goE := !data, asked := 0 }) s)
      let s := if fwd then forwardHome i k (if data then 2 else 3) s else s
      let s := snoop i k 0x22 others s
      let t := trkOf s i k
      if t.used && data && t.asked = 0 && !t.fwd then advance i k (modTrk i k (fun t => { t with asked := 1 }) s) else advance i k s
    let fromOwner := fun (o op st : Nat) (s : State) =>
      snoop i k op [o] (transient i k key st (modTrk i k (fun t => { t with need := true }) s))
    let recallAll := fun (s : State) =>
      let s := modTrk i k (fun t => { t with phase := .holders }) (transient i k key 10 s)
      advance i k (recallHolders i k e s)
    match t.f.opcode.toNat with
    | 0x00 =>
      -- a recall from one agent, or from every holder (R455, R485)
      let a := t.lp - 256
      let s := modTrk i k (fun t => { t with phase := .holders }) s
      if a ≥ 256 then advance i k (recallHolders i k e (modTrk i k (fun t => { t with way := some key }) (transient i k key 10 s)))
      else if recordsAgent e a then
        let s := modTrk i k (fun t => { t with way := some key }) s
        let s := putDir i key { e with trk := k + 1 } s
        advance i k (snoop i k (if owner == some a then 0x21 else 0x22) [a] s)
      else endFlow i k s
    | 0x01 =>
      match owner with
      | some o =>
        if o == r && !e.px then recallAll (agentViolation r (bump .cohViolS i s))
        else if o == r then modTrk i k (fun t => { t with need := true, asked := 1, goE := grantO }) (transient i k key 4 s)
        else fromOwner o 0x20 7 (modTrk i k (fun t => { t with goE := grantO }) s)
      | none => modTrk i k (fun t => { t with need := true, asked := 1, goE := grantO }) (transient i k key 4 s)
    | 0x02 =>
      match owner with
      | some o =>
        if o == r && !e.px then recallAll (agentViolation r (bump .cohViolS i s))
        else if o == r then serveOwn true s
        else fromOwner o 0x21 8 s
      | none => serveOwn true s
    | 0x03 =>
      match owner with
      | some o =>
        if o == r && !e.px then recallAll (agentViolation r (bump .cohViolS i s))
        else if o == r then serveOwn false s
        else fromOwner o 0x21 8 (bump .upgOwn i s)
      | none => if recordsAgent e r then serveOwn false s else serveOwn true (bump .upgOwn i s)
    | 0x04 =>
      match owner with
      | some o =>
        if o == r && !e.px then recallAll (agentViolation r (bump .cohViolS i s))
        else if isDen s o then fromOwner o 0x24 9 s
        else fromOwner o 0x20 7 s
      | none =>
        let s := modTrk i k (fun t => { t with need := true, asked := 1, way := some key }) s
        putDir i key { e with trk := k + 1 } s
    | _ =>
      let s := if owner == some r && !e.px then agentViolation r (bump .cohViolS i s) else s
      recallAll s

/-- A flow on a line whose request needs ownership or writes waits at the dirty cap (R350). -/
def capHeld (s : State) (t : Trk) : Bool :=
  [0x02, 0x03, 0x05, 0x06, 0x07, 0x13, 0x14].contains t.f.opcode.toNat && !t.bulk && persistentLine s t.line && (dreyOf s (dreyCtl t.line)).capHold

/-- The directory region of a line is being copied (R365 step 3). -/
def regionHeld (s : State) (i l : Nat) : Bool :=
  match (dreyOf s (i / 4)).moving with
  | some (r, _, 3) => r == dirRegion i (dirSet l)
  | _ => false

/-- Start or go on with a flow: the holds at its start, its directory set, a failed entry, then its service; in Hibernate one that is held fails and one in progress goes on (R331, R293, R316, R324, R329, R350, R354 to R356, R365, R370). -/
def startFlow (i k : Nat) (s : State) : State :=
  let t := trkOf s i k
  if !t.used then s
  else if s.dev.st == .hibernate && t.f.opcode != 0 && (t.phase == .waitFlush || t.phase == .waitRegion || t.phase == .waitCap) then failFlow i k stUnavail s
  else if s.coh.flushHold then modTrk i k (fun t => { t with phase := .waitFlush }) s
  else if regionHeld s i t.line then modTrk i k (fun t => { t with phase := .waitRegion }) s
  else if capHeld s t && s.dev.st != .hibernate then
    (if t.phase == .waitCap then s else bump .capFlows (dreyCtl t.line) (modTrk i k (fun t => { t with phase := .waitCap }) s))
  else if t.bulk then issueRead i k (modTrk i k (fun t => { t with phase := .run, need := true }) s)
  else
    let set := dirSet t.line
    let (ok, s) := if t.phase == .waitSet then (true, s) else setAccess i k set s
    if !ok then modTrk i k (fun t => { t with phase := .waitSet }) s
    else
      match firstBelow 16 (fun w => entryFails (dirAt s i (set * 16 + w))) with
      | some w =>
        -- a flow in progress on the entry keeps its tracker and recovers first (R331)
        match (slOf s i).trks.find? (fun e => e.2.used && e.1 != k && e.2.way == some (set * 16 + w)) with
        | some o => recoverEntry i o.1 (set * 16 + w) (modTrk i k (fun t => { t with phase := .waitWay }) s)
        | none => recoverEntry i k (set * 16 + w) s
      | none => serveLine i k s

/-- Run the flows of a slice that are ready, in order. -/
def pumpSlice (i : Nat) : Nat → State → State
  | 0, s => s
  | fuel + 1, s =>
    match (slOf s i).ready with
    | [] => s
    | k :: r => pumpSlice i fuel (startFlow i k (modSl i (fun x => { x with ready := r }) s))

/-- How many ready flows one event can start: every tracker, twice over. -/
def pumpFuel : Nat := 4096

/-- Run a slice's ready flows. -/
def pump (i : Nat) (s : State) : State := pumpSlice i pumpFuel s

/-- The line of a snoop answer's tracker that still has an answer due from a logical port. -/
def dueOf (s : State) (i k lp : Nat) : Option Due := if (trkOf s i k).used then (trkOf s i k).due.find? (fun d => d.lp == lp) else none

end Sys2Proof.Machine
end

