-- ==== Sys2Proof/Machine/Coherence.lean ====
section
/-! DEFINITION. What reaches a Brock slice: requests, notices, snoop answers, data, lost agents, and the snoops and grants of a remote home (R293 to R331). -/

namespace Sys2Proof.Machine

/-- Send a proxy's one answer to its home's snoop (R300): with data when a holder or the Drey had newer data, dirty when any was dirty, keeping S when a holder kept S. -/
def pxAnswer (i : Nat) (x : PxSnoop) (s : State) : State :=
  let l := lineOf (fAddr x.f)
  let op := x.f.opcode.toNat
  let copy := if op == 0x22 || op == 0x23 then none else dreyCopy s l
  let data := match x.data, copy with
    | some d, _ => some d
    | none, some (d, _) => if x.held then some d else none
    | none, none => none
  let dirty := x.dirty || (match copy with | some (_, d) => d | none => false)
  let keptS := x.keptS || (op == 0x20 && x.held && (match dirKey s i l with | some key => stableSt (dirAt s i key) != 0 | none => false))
  let aop := match data, op with
    | some _, 0x24 => 0x97
    | some _, _ => if keptS then (if dirty then 0x95 else 0x94) else (if dirty then 0x93 else 0x92)
    | none, 0x23 => 0x96
    | none, 0x24 => 0x96
    | none, _ => if keptS then 0x91 else if x.held then 0x90 else 0x96
  let payload := match data with
    | some d => lineBytes d
    | none => []
  let f := sealHdr { slFrame s aop x.lp l x.f.tag.toNat 0 payload with did := x.f.sid }
  let s := sliceSend i x.lp f s
  match dirKey s i l with
  | none => s
  | some key =>
    let e := dirAt s i key
    if op == 0x21 || op == 0x22 then
      let s := dreyDrop l s
      if e.trk = 0 then putDir i key default s else putDir i key (withPtrs e [] none) s
    else if op == 0x20 then
      let s := match dreyFind s l with
        | some w => setWay (dreyCtl l) (dreySet l) w { wayOf s (dreyCtl l) (dreySet l) w with d := false } s
        | none => s
      if stableSt e = 0 && e.trk = 0 then putDir i key default s
      else if e.trk = 0 then putDir i key { e with st := 1 } s else s
    else s

/-- Close the snoops of a slice's proxy that have every answer. -/
def pxClose (i : Nat) (s : State) : State :=
  let done := (slOf s i).px.filter (fun x => x.due.isEmpty)
  let s := modSl i (fun x => { x with px := x.px.filter (fun x => !x.due.isEmpty) }) s
  done.foldl (fun s x => pxAnswer i x s) s

/-- A snoop from the home of a proxied line (R300): the proxy snoops its own holders, and answers at once when none owes an answer. -/
def pxSnoop (i lp : Nat) (f : Frame) (s : State) : State :=
  let l := lineOf (fAddr f)
  let op := f.opcode.toNat
  match dirKey s i l with
  | none => pxAnswer i { f := f, lp := lp } s
  | some key =>
    let e := dirAt s i key
    if !e.px && !isDevice s lp then pxAnswer i { f := f, lp := lp } s
    else
      let owner := ownerOf e
      let (sop, lps) : Nat × List Nat := match op, owner with
        | 0x23, _ => (0x23, (fAgent e).toList)
        | 0x24, some o => (if isDen s o then 0x24 else 0x20, [o])
        | 0x24, none => (0x24, [])
        | 0x20, some o => (0x20, [o])
        | 0x20, none => (0x20, [])
        | _, some o => (0x21, [o])
        | _, none => (0x22, sharers s e)
      let live := lps.filter (fun n => !(slOf s i).lost.getLsbD n)
      let s := bumpC .lostAns i 0 (lps.length - live.length) {} s
      let tag := 0x800 + (slOf s i).pxNext % 0x800
      let x : PxSnoop := { f := f, lp := lp, tag := tag, due := live, held := op != 0x23 }
      let s := modSl i (fun y => { y with px := y.px ++ [x], pxNext := y.pxNext + 1 }) s
      let s := live.foldl (fun s n => sliceSend i n (slFrame s sop n l tag 0 []) (bumpC .snoops i (sop - 0x20) 1 {} s)) s
      pxClose i s

/-- An agent's answer to a proxy's own snoop (R300, R319). -/
def pxTake (i lp op : Nat) (tag : Nat) (data : Bytes) (s : State) : State :=
  match (slOf s i).px.find? (fun x => x.tag == tag && x.due.contains lp) with
  | none => if isCxl s lp then violation lp 3 s else protoError lp s
  | some x =>
    let l := lineOf (fAddr x.f)
    let has := [0x92, 0x93, 0x94, 0x95, 0x97].contains op
    let kept := [0x91, 0x94, 0x95].contains op
    let x' := { x with due := x.due.erase lp, data := if has then some (lineFrom data) else x.data, dirty := x.dirty || op == 0x93 || op == 0x95, keptS := x.keptS || kept }
    let s := modSl i (fun y => { y with px := y.px.map (fun z => if z.tag == tag then x' else z) }) s
    let s := match dirKey s i l with
      | some key =>
        let e := dirAt s i key
        if op == 0x97 || x.f.opcode == 0x23 then s
        else if kept then putDir i key { e with st := if e.trk = 0 then 1 else e.st } s
        else putDir i key (dropPtr e lp) s
      | none => s
    pxClose i s

/-- A response of a remote home to a proxy (R300): the grant and data of a forwarded request, or the CMP of a notice. -/
def homeResponse (i : Nat) (f : Frame) (s : State) : State :=
  let l := lineOf (fAddr f)
  let k := f.tag.toNat
  if k ≥ 0x8000 then
    let s := modSl i (fun x => { x with memHold := x.memHold.erase l }) s
    (((slOf s i).trks.filter (fun e => e.2.used && e.2.line == l && e.2.asked == 2)).map (·.1)).foldl (fun s k =>
      let t := trkOf s i k
      forwardHome i k (if t.f.opcode == 0x01 then 1 else if t.f.opcode == 0x03 && t.goE then 3 else 2) s) s
  else
    let t := trkOf s i k
    if !t.used || !t.fwd || t.line != l then bump .respDisc i s
    else
      let op := f.opcode.toNat
      if op == 0x86 && f.status != 0 then failFlow i k f.status s
      else
        let grant := if op == 0x81 || op == 0x85 then 2 else if op == 0x84 then t.grant else 1
        let d : Option Line := if f.data.isEmpty then none else some (lineFrom f.data)
        let s := modTrk i k (fun t => { t with fwd := false, grant := max t.grant grant, data := t.data.or d, poison := t.poison || f.status == stPoison, need := t.need && !(op == 0x85) }) s
        let fill := grant == 2 || (match sliceAt s (l * 64) with | some (_, r) => r.readFill | none => false)
        let s := match d with
          | some d => if fill && !bypassed s l then dreyPut l d false (f.status == stPoison) 2 (bump .dFills (dreyCtl l) s) else s
          | none => s
        advance i k s

/-- A request granted at a slice (R186, R293, R296, R309, R316, R324, R328): checked, gated, then started or put on its line's conflict list. While no tracker is free it stays at the input. -/
def sliceRequest (i lp : Nat) (f : Frame) (s : State) : State :=
  let s := bumpC .lookups i 0 1 (ctxOf s f) s
  let l := lineOf (fAddr f)
  if !hchkOk f then hchkFailure lp (138 + i) f s
  else if !cmWellFormed f then sendCmp i lp f stUnsup (protoError lp (bump .cohViolS i s))
  else if s.dev.st == .hibernate || (slOf s i).lost.getLsbD lp then sendCmp i lp f stUnavail s
  else
    let coh := coherentLine s l
    let remote := (remoteLp s l).isSome
    let bulk := !coh
    if bulk && !isAtomic f then sendCmp i lp f stUnsup s
    else
      let gate : Option Nat := if bulk then (match sliceAt s (fAddr f) with
          | some (_, r) => (targetLp s r.target).map (16 + ·)
          | none => none) else some i
      match gate with
      | none => sendCmp i lp f stUnsup s
      | some g =>
        let (v, s) := if remote then (Verdict.pass, s) else gateCheck g f s
        match v with
        | .pass =>
          if remote && (isHomeOp f || (f.opcode == 0x04 && (dirKey s i l).isNone)) then
            -- the proxy passes on what the home alone can carry out (R300)
            match remoteLp s l with
            | some n => raiseX (.slice i) (.lp n) f (frameLen f) 0 s
            | none => s
          else
            match freeTrk s i with
            | none => noteFull i (raiseX (.port lp) (.slice i) f (frameLen f) 0 s)
            | some k =>
              let busy := (busyTrk s i l).isSome
              let s := noteFull i (modTrk i k (fun _ => { used := true, line := l, lp := lp, f := f, phase := if busy then .conflict else .run, bulk := bulk, since := now s }) s)
              if busy then bump .conflicts i (modSl i (fun x => { x with conflicts := x.conflicts ++ [(l, k)] }) s)
              else pump i (makeReady i k s)
        | _ =>
          let s := bumpC .refusals (hIdx f.binding) 0 1 (ctxOf s f) s
          let rs := match v with
            | .refuse rs => rs
            | _ => 0
          let s := if isWrite f && fromCxl s f && !isAtomic f then addNotice f.binding .refused rs 0 s else s
          sendCmp i lp f stFault s

/-- Mark that an agent's notice of a line was applied during the flows that wait for its answer (R319). -/
def markNoticed (i lp l : Nat) (s : State) : State :=
  (((slOf s i).trks.filter (fun e => e.2.used && (e.2.line == l || e.2.recLine == l))).map (·.1)).foldl (fun s k =>
    modTrk i k (fun t => { t with due := t.due.map (fun d => if d.lp == lp then { d with noticed := true } else d) }) s) s

/-- The entry records an agent as owner, in a stable or transient state (R317). -/
def recordsOwner (s : State) (i key r : Nat) : Bool :=
  let e := dirAt s i key
  ownerOf e == some r || (e.st == 10 && (ptrs e).contains r && (trkOf s i (e.trk - 1)).due.any (fun d => d.lp == r && d.op == 0x21))

/-- Remove an agent from an entry, and free the way when no holder is left and no flow is in progress (R303, R317). -/
def removeAgent (i key r : Nat) (s : State) : State :=
  let e := dirAt s i key
  let e' := dropPtr e r
  if e'.trk = 0 && stableSt e' = 0 then
    (if e.px then releaseProxy i key (e.st == 2) (modSl i (fun x => { x with dir := tset x.dir key e }) s) else putDir i key default s)
  else putDir i key (if e'.trk = 0 then { e' with st := stableSt e' } else e') s

/-- A write-back or eviction notice (R294, R309, R317, R318, R320): applied in its cycle, whatever the line's state. One whose kind does not fit what the entry records of its agent is stale (DEDUCED, assumption 130). -/
def sliceNotice (i lp : Nat) (f : Frame) (s : State) : State :=
  let s := bumpC .lookups i 0 1 (ctxOf s f) s
  let l := lineOf (fAddr f)
  let op := f.opcode.toNat
  if !hchkOk f then hchkFailure lp (138 + i) f s
  else if !cmWellFormed f then sendCmp i lp f stUnsup (protoError lp (bump .cohViolS i s))
  else
    let stale := fun (s : State) =>
      if op == 0x10 then sendCmp i lp f stUnsup (agentViolation lp (bump .cohViolS i s))
      else sendCmp i lp f stOK (bump .stale i s)
    if (slOf s i).lost.getLsbD lp then stale s
    else
      match dirKey s i l with
      | none => stale s
      | some key =>
        let e := dirAt s i key
        let own := recordsOwner s i key lp
        if op == 0x10 then
          if own then
            let (wait, s) := takeDirty l (lineFrom f.data) (f.status == stPoison) s
            let s := removeAgent i key lp (markNoticed i lp l s)
            if wait then modSl i (fun x => { x with wbWait := x.wbWait ++ [(l, lp, f)] }) s
            else sendCmp i lp f stOK s
          else stale s
        else if op == 0x11 then
          if own then sendCmp i lp f stOK (removeAgent i key lp (markNoticed i lp l s)) else stale s
        else if e.coarse && recordsAgent e lp then
          sendCmp i lp f stOK (markNoticed i lp l (bump .evictCoarse i s))
        else if recordsAgent e lp && (!own || e.px) then
          sendCmp i lp f stOK (removeAgent i key lp (markNoticed i lp l s))
        else stale s

/-- A snoop answer reaches its slice (R309, R319, R331): an answer on the tick of its deadline is taken and counts a near miss. -/
def sliceAnswer (i lp : Nat) (f : Frame) (s : State) : State :=
  let s := bumpC .lookups i 0 1 (ctxOf s f) s
  let k := f.tag.toNat
  let op := f.opcode.toNat
  if !hchkOk f then hchkFailure lp (138 + i) f s
  else if !cmWellFormed f then bump .cohViolS i s
  else if 0x800 ≤ k && k < 0x1000 then pxTake i lp op k f.data s
  else
    match dueOf s i k lp with
    | none => if isCxl s lp then violation lp 3 s else protoError lp s
    | some d =>
      let s := if now s ≥ d.deadline then bump .snoopNear i s else s
      pump i (applyAnswer i k lp op f.data (f.status == stPoison) s)

/-- A frame granted at a slice's input, by its kind (R186, R292 to R294, R300, R308). -/
def sliceReceive (i lp : Nat) (f : Frame) (s : State) : State :=
  let op := f.opcode.toNat
  if op < 0x10 || op == 0x13 || op == 0x14 then sliceRequest i lp f s
  else if op < 0x20 then sliceNotice i lp f s
  else if op ≥ 0x90 then sliceAnswer i lp f s
  else if !hchkOk f then hchkFailure lp (138 + i) f s
  else if !cmWellFormed f then bump .cohViolS i (bump .lookups i s)
  else if op < 0x80 then pump i (pxSnoop i lp f (bump .lookups i s))
  else pump i (homeResponse i f (bump .lookups i s))

/-- The dirty write of a CXL owner that answers SNP_SHARE (R310): data to the Drey as dirty; the agent stays a holder. -/
def sliceShareWrite (l : Nat) (d : Line) (poison : Bool) (s : State) : State :=
  let i := homeSlice l
  let (wait, s) := takeDirty l d poison s
  match busyTrk s i l with
  | some k => modTrk i k (fun t => { t with wthru := t.wthru || wait, gotDirty := true }) s
  | none => s

/-- Data for a flow (R316, R321, R341): the Drey's answer, or the memory device's. -/
def memoryReturn (i k : Nat) (r : MemRet) (s : State) : State :=
  let t := trkOf s i k
  if !t.used then s
  else
    match r with
    | .drey =>
      if t.asked != 1 then s
      else if bypassed s t.line then pump i (issueRead i k (bump .bypass (dreyCtl t.line) s))
      else
        let (hit, s) := dreyLookup t.line s
        match hit with
        | some (d, p) => pump i (advance i k (modTrk i k (fun t => { t with data := some d, poison := p, asked := 0 }) s))
        | none =>
          let e := entOf s i k
          let fwd := match fAgent e with
            | some a => t.f.opcode == 0x01 && isDen s t.lp && e.st == 4 && a != t.lp && t.due.isEmpty
            | none => false
          if fwd then
            let s := modTrk i k (fun t => { t with asked := 0 }) (modEnt i k (fun e => { e with st := 5 }) s)
            pump i (snoop i k 0x23 (fAgent e).toList s)
          else pump i (issueRead i k s)
    | .memory d p =>
      if t.asked != 3 || t.fwd then s
      else
        let fill := !t.bulk && !isHomeOp t.f && !bypassed s t.line && (match sliceAt s (t.line * 64) with | some (_, r) => r.readFill | none => false)
        let s := if fill then dreyPut t.line d false p 2 (bump .dFills (dreyCtl t.line) s) else s
        pump i (advance i k (modTrk i k (fun t => { t with data := some d, poison := p, asked := 0 }) s))

/-- A flow's memory read ends without data: with the target's status (R129, R131). -/
def memoryFail (i k : Nat) (st : BitVec 4) (s : State) : State :=
  let t := trkOf s i k
  if !t.used || t.asked != 3 then s else pump i (failFlow i k st s)

/-- A `coh.drey_flush` or a cap change may complete once nothing it waits for is left; the command engine looks. -/
def writesLeft (s : State) : Bool := (List.range 16).any (fun i => !(slOf s i).memHold.isEmpty)

/-- The memory device completes a write of a line (R321, R324, R364): reads that waited proceed, and what waited for the write completes. -/
def memoryWritten (i l : Nat) (s : State) : State :=
  if !(slOf s i).memHold.contains l then s
  else
    let s := modSl i (fun x => { x with memHold := x.memHold.erase l }) s
    if (slOf s i).memHold.contains l then s
    else
      let wb := (slOf s i).wbWait.filter (fun w => w.1 == l)
      let s := modSl i (fun x => { x with wbWait := x.wbWait.filter (fun w => w.1 != l) }) s
      let s := wb.foldl (fun s w => sendCmp i w.2.1 w.2.2 stOK s) s
      let ks := ((slOf s i).trks.filter (fun e => e.2.used && e.2.line == l)).map (·.1)
      let s := ks.foldl (fun s k =>
        let t := trkOf s i k
        if t.asked == 2 then issueRead i k s
        else if t.phase == .memWrite then
          endFlow i k (reply i k (if t.old.isEmpty then 0x86 else 0x87) t.old (t.poison && !t.old.isEmpty) (modEnt i k (fun e => { e with st := 0 }) s))
        else if t.wthru then advance i k (modTrk i k (fun t => { t with wthru := false }) s)
        else s) s
      pump i s

/-- The port to the memory device of a line's slice. -/
def lineLp (s : State) (l : Nat) : Option Nat := (sliceAt s (l * 64)).bind (fun x => targetLp s x.2.target)

/-- A write of a line to memory is lost (R129, R131, R172, R176 class C7, R178): what waited for it ends with the status, and a CXL write's binding is told. The write-back of a line that was acknowledged in the Drey is a flush that failed (R400, R401, R406, DEDUCED, assumption 132). -/
def memoryLost (i l : Nat) (st : BitVec 4) (s : State) : State :=
  if !(slOf s i).memHold.contains l then s
  else
    let wb := (slOf s i).wbWait.filter (fun w => w.1 == l)
    let s := modSl i (fun x => { x with wbWait := x.wbWait.filter (fun w => w.1 != l) }) s
    let s := wb.foldl (fun s w => sendCmp i w.2.1 w.2.2 st (if cxlSilent s w.2.2 then addNotice w.2.2.binding .unavailable 0 (epochNow s) s else s)) s
    let ks := ((slOf s i).trks.filter (fun e => e.2.used && e.2.line == l && (e.2.phase == .memWrite || (e.2.wthru && isWrite e.2.f)))).map (·.1)
    let s := ks.foldl (fun s k => failFlow i k st (if (trkOf s i k).phase == .memWrite then modEnt i k (fun e => { e with st := 0 }) s else s)) s
    let s := match lineLp s l with
      | some n => if wb.isEmpty && ks.isEmpty && persistentLine s l then flushLost n .error s else s
      | none => s
    memoryWritten i l s

/-- An agent's bit in a lost mask (R326). -/
def agentBit (lp : Nat) : BitVec 256 := BitVec.ofNat 256 (2 ^ lp)

/-- An agent's bit clears once every slice has swept and its port is up again (R328). -/
def agentBack (lp : Nat) (s : State) : State :=
  if lpUp s lp && (List.range 16).all (fun i => !(slOf s i).sweeps.contains lp) then
    (List.range 16).foldl (fun s i =>
      if (slOf s i).lost.getLsbD lp then modSl i (fun x => { x with lost := x.lost &&& ~~~ agentBit lp }) s else s) s
  else s

/-- An agent is lost (R326): marked, its owned lines poisoned, its answers given as RSP_NP, and its sweep begun. -/
def lostAgent (lp : Nat) (s : State) : State :=
  if !isAgent s lp then s
  else
    (List.range 16).foldl (fun s i =>
      let s := modSl i (fun x => { x with lost := x.lost ||| agentBit lp, sweeps := if x.sweeps.contains lp then x.sweeps else x.sweeps ++ [lp] }) s
      let owned := ((slOf s i).dir.filter (fun e => recordsOwner s i e.1 lp)).map (fun e => e.2.la)
      let s := owned.foldl (fun s l =>
        if bypassed s l then let (n, s) := drawFree s; issueWrite l (BitVec.ofNat 512 n) true s else poisonLine l s) s
      let ks := ((slOf s i).trks.filter (fun e => e.2.used && e.2.due.any (fun d => d.lp == lp))).map (·.1)
      let s := ks.foldl (fun s k => applyAnswer i k lp 0x96 [] false (bump .lostAns i s)) s
      let s := bumpC .lostAns i 0 ((slOf s i).px.filter (fun p => p.due.contains lp)).length {} s
      let s := modSl i (fun x => { x with px := x.px.map (fun p => { p with due := p.due.erase lp }) }) s
      pump i (pxClose i s)) s

/-- A slice ends its sweep for a lost agent (R326 step 4, R328): it leaves every pointer-mode entry, and ways with no holder are free. -/
def sweepDone (i lp : Nat) (s : State) : State :=
  if !(slOf s i).sweeps.contains lp then s
  else
    let keys := ((slOf s i).dir.filter (fun e => !e.2.coarse && (ptrs e.2).contains lp)).map (·.1)
    let s := keys.foldl (fun s key => removeAgent i key lp s) s
    let s := modSl i (fun x => { x with sweeps := x.sweeps.filter (· != lp) }) s
    agentBack lp (pump i (wake i (fun u => u.phase == .waitWay) s))

/-- A directory set arrives from HBM (R355, R357, R361): the waiting lookups proceed; a set with an uncorrectable word fails the check of each of its entries (R329). -/
def setFill (i set : Nat) (ok : Bool) (s : State) : State :=
  match (slOf s i).misses.find? (fun m => m.1 == set) with
  | none => s
  | some m =>
    let s := modSl i (fun x => { x with misses := x.misses.erase m }) s
    let s := cacheSet i set s
    let s := if ok then s else (List.range 16).foldl (fun s w =>
      let e := dirAt s i (set * 16 + w)
      if e == default then s else modSl i (fun x => { x with dir := tset x.dir (set * 16 + w) { e with echk := ~~~(echkOf e) } }) s) s
    let s := m.2.foldl (fun s k => makeReady i k s) s
    let waiting := (slOf s i).misses.flatMap (·.2)
    let others := ((slOf s i).trks.filter (fun e => e.2.used && e.2.phase == .waitSet && !m.2.contains e.1 && !waiting.contains e.1)).map (·.1)
    let s := others.foldl (fun s k => makeReady i k (modTrk i k (fun t => { t with phase := .run }) s)) s
    pump i s

/-- Begin the recall of lines from one agent (R455 step B3, R485), or from every holder when the agent is 256. -/
def recallLines (pick : Nat → DirEntry → Bool) (agent : Nat) (s : State) : State :=
  (List.range 16).foldl (fun s i =>
    let ls := ((slOf s i).dir.filter (fun e => pick e.1 e.2)).map (fun e => e.2.la)
    ls.foldl (fun s l => pump i (drainRecalls i (modSl i (fun x => { x with recalls := x.recalls ++ [(l, agent)] }) s))) s) s

/-- No recall from an agent is waiting or in progress. -/
def recallsDone (s : State) (agent : Nat) : Bool :=
  (List.range 16).all (fun i => !(slOf s i).recalls.any (fun r => r.2 == agent) && !(slOf s i).trks.any (fun e => e.2.used && e.2.lp == 256 + agent))

/-- A snoop timeout counts for its agent (R325): the event under its rule, and at the threshold the port goes out of service. -/
def countTimeout (i lp : Nat) (s : State) : State :=
  let s := snoopEvent i lp (bump .snoopTo i s)
  let w := (cfgOf s lp).window
  let ts := now s :: slide (now s) w (tget s.coh.winTimes lp)
  let s := { s with coh := { s.coh with winTimes := tset s.coh.winTimes lp ts } }
  let n := tget s.coh.threshold lp
  if ts.length ≥ (if n = 0 then 4 else n) then fall lp 1 s else s

/-- A snoop is unanswered when its timeout has expired (R325; R331: an answer on the tick of the deadline is taken): counted and taken as RSP_NP. -/
def snoopExpired (i lp k : Nat) (s : State) : State :=
  if (dueOf s i k lp).any (fun d => decide (d.deadline < now s)) then
    pump i (applyAnswer i k lp 0x96 [] false (countTimeout i lp s))
  else s

end Sys2Proof.Machine
end

