-- ==== Sys2Proof/Machine/Ports.lean ====
section
/-! DEFINITION. Links that go down: what happens to the frames and requests they hold, twins and their failover, quarantine and ports out of service (R126 to R143, R172 to R180, R753 to R755). -/

namespace Sys2Proof.Machine

/-- The kind of a frame in a queue map (R520): 0 CM REQ; 1 CM RSP, SNP and WB; 2 BM request; 3 BM completion; 4 IO request; 5 IO completion; 6 MG. -/
def kindOf (f : Frame) : Nat :=
  match f.cls.toNat with
  | 0 => if f.chan == 0 then 0 else 1
  | 1 => if isResponse f then 3 else 2
  | 2 => if isResponse f then 5 else 4
  | _ => 6

/-- The default queue map (R200). -/
def defaultQueue (kind p : Nat) : Nat :=
  match kind with
  | 0 => if p ≥ 4 then 6 else 5
  | 1 => 7
  | 2 => if p ≥ 4 then 3 else 2
  | 3 => 4
  | 4 => 1
  | 5 => 4
  | _ => 0

/-- The egress scheduler of a logical port. -/
def egressOf (s : State) (n : Nat) : EgressSt := tget s.sw.egress n

/-- The egress queue of a frame (R199, R200). -/
def queueOf (s : State) (n : Nat) (f : Frame) : Nat :=
  match (egressOf s n).qmap[8 * kindOf f + f.prio.toNat]? with
  | some q => q
  | none => defaultQueue (kindOf f) f.prio.toNat

/-- P*nnn*CLKREQ_N serves a logical port: LP(2p) in CXL mode (R90). -/
def hasClkreq (s : State) (n : Nat) : Bool := n % 2 == 0 && isCxl s n

/-- A port in DL1 or DL2 starts its exit; the 150 µs of a DL2 exit's initialisation follow on it (R77, R82, R83). A CXL port in L1 leaves it, and asks for the clock where L1.1 is enabled (R88, R90). -/
def wakeDl (n : Nat) (s : State) : State :=
  let l := lpOf s n
  if l.l1 then
    let s := modLp n (fun l => { l with l1 := false, l11 := false }) s
    if hasClkreq s n && l.l11En then modPort (n / 2) (fun p => { p with clkreqOut := true }) s else s
  else if l.dl == .dl0 || l.dlExit.isSome then s
  else modLp n (fun l => { l with dlExit := some (now s + (if l.dl == .dl1 then 1000 else 1050000)) }) s

/-- Put a frame into its egress queue; a port in DL1 or DL2 wakes for it (R82). -/
def enqueue (n : Nat) (q : QFrame) (s : State) : State :=
  wakeDl n (modQueue (8 * n + queueOf s n q.f) (fun x => { x with frames := x.frames ++ [q] }) s)

/-- Who asked for a frame that leaves the device (R131): a slice's flow or write, a flush, or a requester. -/
def askerOf (src : XIn) (f : Frame) : Asker :=
  match src with
  | .slice i =>
    if f.cls == clsBM then (if f.opcode == 0x02 then .sliceWrite i (lineOf (fAddr f)) else .slice (f.tag.toNat / 2048) (f.tag.toNat % 2048))
    else if isCmRequest f && f.tag.toNat < 2048 && f.opcode.toNat < 0x10 then .slice i f.tag.toNat
    else if isAtomic f || f.opcode == 0x13 || f.opcode == 0x14 then .frame f else .none_
  | .sett => if f.cls == clsBM && f.opcode == 0x04 then .flush else .frame f
  | .port _ => .frame f

/-- A request that was lost on its way ends with a status (R129, R213). -/
def endFrame (f : Frame) (st : BitVec 4) (s : State) : State :=
  if isResponse f || (f.cls == clsCM && f.opcode.toNat ≥ 0x20) then s
  else if merges s f then complete f st [] (epochNow s) s
  else targetGone f st s

/-- End what was asked of the partner of a logical port (R129, R131, R172, R178, R406). -/
def endAsker (n : Nat) (a : Asker) (st : BitVec 4) (s : State) : State :=
  match a with
  | .frame f => endFrame f st s
  | .slice i k => memoryFail i k st s
  | .sliceWrite i l => memoryLost i l st s
  | .posted f => addNotice f.binding .unavailable 0 (epochNow s) s
  | .flush => flushLost n .portDown s
  | .none_ => s

/-- A frame is lost on its way out by a port: a response is counted, a request ends; a device's CXL.cache request to its host is answered GO-Err (R129, R130, R172, R175). -/
def loseFrame (n : Nat) (src : XIn) (f : Frame) (st : BitVec 4) (s : State) : State :=
  if isResponse f then (if isCxl s n then bump .hostDisc n s else bump .respDisc n s)
  else if isCache f then
    (match src with
     | .port m => if isHost s n && f.opcode.toNat % 8 = 0 then cxlSend m .goErr s else s
     | _ => s)
  else endAsker n (askerOf src f) st s

/-- Distance of sequence numbers (R113). -/
def dist (a b : Nat) : Nat := (b + 65536 - a % 65536) % 65536

/-- A sequence number is after another (R113). -/
def isAfter (a b : Nat) : Bool := decide (1 ≤ dist a b) && decide (dist a b ≤ 32767)

/-- Send a CTRL message on a Den link (R138); a port in DL1 or DL2 wakes for it (DESIGN CHOICE, assumption 107). -/
def sendCtrl (n : Nat) (m : CtrlMsg) (s : State) : State :=
  wakeDl n (modTx n (fun t => { t with ctrls := t.ctrls ++ [{ m with serial := s.fuses.serial }] }) s)

/-- Take frames out of an egress queue: one that empties loses its deficit and is empty since now (R202, R230). -/
def dropQueued (k : Nat) (gone : QFrame → Bool) (s : State) : State :=
  modQueue k (fun x =>
    let fs := x.frames.filter (fun q => !gone q)
    if fs.isEmpty && !x.frames.isEmpty then { x with frames := [], deficit := 0, emptySince := now s } else { x with frames := fs }) s

/-- A requester is masked while its domain is not On (R222). -/
def srcMasked (s : State) : XIn → Bool
  | .port n => (tget s.pwr.doms (n / 2)).masked
  | .slice i => (tget s.pwr.doms (138 + i / 8)).masked
  | .sett => (List.range 4).all (fun k => (tget s.pwr.doms (148 + k)).masked)

/-- The output discards what it holds of a transfer (R202, R218, R230, R237). -/
def dropCrossing (n id : Nat) (s : State) : State := (List.range 8).foldl (fun s q => dropQueued (8 * n + q) (fun y => y.id == id) s) s

/-- Requests of a masked requester that were not granted are discarded with their frames, and counted (R223); a grant of this tick is withdrawn first (R237). A slice's discards count at the output. -/
def discardMasked (s : State) : State :=
  let fresh := s.sw.arbs.filterMap (fun e => match e.2.cur with
    | some x => if e.2.at_ == now s && srcMasked s x.src then some x else none
    | none => none)
  let s := fresh.foldl (fun s x => match x.dst with
    | .lp n => dropCrossing n x.id (modSw (fun w => { w with arbs := w.arbs.map (fun e => if e.2.cur.any (fun c => c.id == x.id) then (e.1, { e.2 with cur := none }) else e) }) s)
    | .slice _ => s) s
  let cur := s.sw.arbs.filterMap (fun e => e.2.cur.map (·.id))
  let gone := s.sw.reqs.filter (fun x => srcMasked s x.src && !cur.contains x.id)
  let s := modSw (fun w => { w with reqs := w.reqs.filter (fun x => !(gone.any (fun y => y.id == x.id))) }) s
  let at_ := fun (x : XReq) => match x.src, x.dst with
    | .port n, _ => some n
    | _, .lp n => some n
    | _, .slice _ => none
  gone.foldl (fun s x => copyGone x.orig (bumpAt .maskedDisc (at_ x) s)) s

/-- The frames in a logical port's egress queues that satisfy a test, in service order of queues. -/
def queuedFrames (s : State) (n : Nat) (p : QFrame → Bool) : List QFrame := (List.range 8).flatMap (fun q => (tget s.sw.queues (8 * n + (7 - q))).frames.filter p)

/-- Take those frames out. -/
def dropFrames (n : Nat) (p : QFrame → Bool) (s : State) : State := (List.range 8).foldl (fun s q => if (tget s.sw.queues (8 * n + q)).frames.any p then dropQueued (8 * n + q) p s else s) s

/-- A transfer that a logical port's link has taken already: it is granted, and no egress queue holds it (R204, R219). -/
def handedOver (s : State) (n : Nat) (x : XReq) : Bool :=
  x.dst == .lp n && s.sw.arbs.any (fun e => e.2.cur.any (fun c => c.id == x.id)) && (queuedFrames s n (fun q => q.id == x.id)).isEmpty

/-- Take crossbar requests off the list; a transfer among them ends. -/
def takeReqs (p : XReq → Bool) (s : State) : State :=
  let ids := (s.sw.reqs.filter p).map (·.id)
  modSw (fun w => { w with reqs := w.reqs.filter (fun x => !p x), arbs := w.arbs.map (fun e => if e.2.cur.any (fun c => ids.contains c.id) then (e.1, { e.2 with cur := none }) else e) }) s

/-- Take away what waits for a logical port and satisfies a test: queued frames and crossbar requests. A frame that still crosses into a queue stands as its request alone; what the link has taken stays there. -/
def takeAll (n : Nat) (p : Frame → Bool) (s : State) : List QFrame × List XReq × State :=
  let mine := fun (x : XReq) => x.dst == .lp n && p x.f && !handedOver s n x
  let xs := s.sw.reqs.filter mine
  let qs := queuedFrames s n (fun q => p q.f && !q.crossing)
  (qs, xs, dropFrames n (fun q => p q.f) (takeReqs mine s))

/-- A posted write of a transfer that the link took is acknowledged (R400). -/
def ackHanded (n : Nat) (x : XReq) (s : State) : State := if isDevice s n && isPosted x.f && isWrite x.f then ackPosted x.f.binding (epochNow s) s else s

/-- The transfers that a logical port's link has taken end with it. -/
def dropHanded (n : Nat) (s : State) : State :=
  let xs := s.sw.reqs.filter (handedOver s n)
  xs.foldl (fun s x => copyGone x.orig (ackHanded n x s)) (takeReqs (handedOver s n) s)

/-- A posted write handed to a target's egress queue was acknowledged there (R400). -/
def ackedPosted (s : State) (n : Nat) (f : Frame) : Bool := isDevice s n && isPosted f && isWrite f

/-- A frame of an egress queue or a link is lost (R129, R130): of a posted write that was acknowledged, its notice remains. -/
def loseQueued (n : Nat) (src : XIn) (f : Frame) (st : BitVec 4) (s : State) : State :=
  if ackedPosted s n f then addNotice f.binding .unavailable 0 (epochNow s) s else loseFrame n src f st s

/-- A frame that ends early carries only the bytes that arrived (R208). -/
def cutFrame (f : Frame) (avail : Nat) : Frame := { f with data := f.data.take (avail - 32) }

/-- A frame on a Den link whose ingress went down ends with the bytes that are there (R208). -/
def cutTx (n : Nat) (x : TxFrame) : TxFrame :=
  if x.early && x.src == n then { x with f := cutFrame x.f x.avail, rest := x.rest.take (x.rest.length - (frameLen x.f - x.avail)), early := false } else x

/-- Change every frame on its way into flits, those of a failover among them. -/
def mapTx (g : TxFrame → TxFrame) (s : State) : State :=
  modNet (fun t => { t with tx := t.tx.map (fun e => (e.1, { e.2 with frames := e.2.frames.map g })), fail := t.fail.map (fun e => (e.1, { e.2 with rest := e.2.rest.map g })) }) s

/-- Frames stop arriving before they are whole (R141, R208, R209): those that have not crossed are gone, with their credits returned or not; one that crosses under cut-through ends early on Den and is nullified on CXL. `p` names the originals of the port that end. -/
def loseCrossing (n : Nat) (returns : Bool) (p : Nat → Bool) (s : State) : State :=
  let part := fun (x : XReq) => x.src == .port n && p x.orig && decide (x.arrived < frameLen x.f)
  let waits := fun (h : HeldReq) => h.lp == n && p h.orig && decide (h.arrived < frameLen h.f)
  let held := s.tm.held.filter (fun e => e.2.any waits)
  let gone := ((s.sw.reqs.filter part).map (·.orig) ++ s.sw.holds.flatMap (fun e => (e.2.frames.filter part).map (·.orig))
    ++ held.flatMap (fun e => (e.2.filter waits).map (·.orig)))
  let s := takeReqs part (modSw (fun w => { w with holds := w.holds.map (fun e => (e.1, { e.2 with frames := e.2.frames.filter (fun x => !part x) })) }) s)
  let s := held.foldl (fun s e => modTm (fun t => { t with held := tmod t.held e.1 (fun l => l.filter (fun h => !waits h)) }) s) s
  let s := gone.foldl (fun s o => if returns then copyGone o s else copyDropped o s) s
  let open_ := fun (q : QFrame) => !q.whole && q.src == .port n && p q.orig
  let cut := s.sw.queues.flatMap (fun e => (e.2.frames.filter open_).map (fun _ => e.1))
  let mine := fun (x : TxFrame) => x.early && x.src == n && p x.orig
  let cut' := s.net.tx.flatMap (fun e => (e.2.frames.filter mine).map (fun _ => e.1))
  let s := (cut.map (· / 8) ++ cut').foldl (fun s m => bump .truncSent m s) s
  let s := cut.dedup.foldl (fun s k => if isCxl s (k / 8) then dropQueued k open_ s
    else modQueue k (fun x => { x with frames := x.frames.map (fun q => if open_ q then { q with f := cutFrame q.f q.avail, whole := true, crossing := false } else q) }) s) s
  modRx n (fun r => { r with early := r.early.filter (fun e => !p e.2) }) (mapTx (fun x => if p x.orig then cutTx n x else x) s)

/-- An ingress port goes down (R208); where a twin brings its unfinished frames again whole, their credits stay taken (R141). -/
def loseIngress (n : Nat) (returns : Bool) (s : State) : State := loseCrossing n returns (fun _ => true) s

/-- The requests in the unacknowledged flits of a replay buffer, and those placed in part: their outcome is unknown (R129). A slot that R140 keeps after its acknowledgement holds none. -/
def replayRequests (una : Nat) (slots : List RepSlot) (rest : List TxFrame) : List Frame :=
  (slots.filter (fun x => isAfter (una + 65535) x.seq)).flatMap (·.frames) ++ (rest.filter (·.begun)).map (·.f)

/-- The requests handed to the link and placed in no flit yet: they have not left (DEDUCED, assumption 108). -/
def unsentRequests (rest : List TxFrame) : List Frame := (rest.filter (fun x => !x.begun)).map (·.f)

/-- End a frame that a Den link held (R129, R130): a response is discarded and counted, an acknowledged posted write leaves its notice, and a request ends with a status; `m` keeps the requests outstanding. -/
def endHeld (n m : Nat) (st : BitVec 4) (s : State) (f : Frame) : State :=
  if isResponse f then bump .respDisc n s
  else if ackedPosted s n f then addNotice f.binding .unavailable 0 (epochNow s) s
  else match (tget s.net.denOut m).find? (fun o => o.tag == f.tag.toNat && o.sid == f.sid.toNat) with
    | some o => endAsker n o.asker st (modOut m (fun l => l.erase o) s)
    | none => endFrame f st s

/-- Complete everything that a logical port holds as its traffic cannot move (R129, R130, R172). -/
def loseTraffic (n : Nat) (unknown : List Frame) (unsent : List Frame) (s : State) : State :=
  let s := unsent.foldl (endHeld n n stUnavail) (unknown.foldl (endHeld n n stUnknown) (dropHanded n s))
  let (qs, xs, s) := takeAll n (fun _ => true) s
  let s := qs.foldl (fun s q => loseQueued n q.src q.f stUnavail s) s
  xs.foldl (fun s x => copyGone x.orig (loseFrame n x.src x.f stUnavail s)) s

/-- A fresh receiver and sender of a Den link; the pair's credit pool stands (R108, R128). -/
def resetSeq (n : Nat) (s : State) : State :=
  let s := modTx n (fun t => { t with next := 0, unacked := 0, replay := [], retx := [], frames := [], ctrls := [], times := [], fullSince := none, lastAdv := 0, lastTo := 0, ackSent := 0xFFFF }) s
  modRx n (fun r => { r with ack := 0xFFFF, known := 0xFFFF, held := [], partials := [], active := 0, pos := 0, bad := [] }) s

/-- A transmitter stops (R45, R77, R128). -/
def stopTx (n : Nat) (s : State) : State := modTx n (fun t => { t with on := false }) s

/-- The routing entries whose active link is a failed port move to the other link of the pair (R197); answers the destinations. -/
def moveRoutes (n via : Nat) (s : State) : List Nat × State :=
  let moves := fun (e : Nat) => rKind e == 1 && rTv e && rLp e == n && (if rActive e then rPrim e == via else rTwin e == via)
  let dids := (s.sw.routes.filter (fun e => moves e.2)).map (·.1)
  (dids, modSw (fun w => { w with routes := w.routes.map (fun e => if moves e.2 then (e.1, flipActive e.2) else e) }) s)

/-- Hold the new frames of destinations (R139, R148). -/
def holdDids (why : HoldWhy) (n : Nat) (dids : List Nat) (s : State) : State :=
  modSw (fun w => { w with holds := dids.foldl (fun h d => tmod h d (fun x => { x with why := some why, until_ := 0, oldLp := n })) w.holds }) s

/-- Steps F1 to F3 of a failover (R139): freeze, hold, reassign, and send FAILOVER on the twin. -/
def startFailover (n via ack : Nat) (s : State) : State :=
  let t := txOf s n
  let home := (failOf s via).moved
  let (dids, s) := moveRoutes n via s
  let s := holdDids .failover n dids s
  let (qs, xs, s) := takeAll n (fun _ => true) s
  let s := modSw (fun w => { w with reqs := w.reqs ++ xs.map (fun x => { x with dst := .lp via }) }) s
  let s := modFail n (fun x => { x with step := 4, t0 := now s, via := via, sentAt := now s, lastDelivered := ack, frozen := t.replay, frozenUna := t.unacked, rest := t.frames, frozenNext := t.next, held := x.held ++ qs, moved := x.moved ++ dids.filter (fun d => !home.contains d) }) s
  let s := modFail via (fun x => { x with moved := x.moved.filter (fun d => !dids.contains d) }) s
  let s := modOut via (fun l => l ++ tget s.net.denOut n) (modOut n (fun _ => []) s)
  let s := resetSeq n s
  let owed := (txOf s n).credOwed
  let s := modTx via (fun x => { x with credOwed := (x.credOwed.zip owed).map (fun e => e.1 + e.2) }) (modTx n (fun x => { x with credOwed := [0, 0, 0, 0, 0, 0, 0, 0] }) s)
  sendCtrl via { subtype := 6, subject := BitVec.ofNat 8 n, lastDelivered := BitVec.ofNat 16 ack } s

/-- The credits that a DATA flit's credit-return segments carry, by channel (R98, R99). -/
def creditSegs : Nat → Bytes → List (Nat × Nat)
  | 0, _ => []
  | fuel + 1, p =>
    match p with
    | b0 :: b1 :: b2 :: b3 :: r =>
      let kind := b0.toNat % 4
      let n := b1.toNat
      if kind = 1 then creditSegs fuel (r.drop ((n + 3) / 4 * 4))
      else if kind = 2 then (b0.toNat / 16 % 8, b2.toNat + 256 * b3.toNat) :: creditSegs fuel r
      else []
    | _ => []

/-- Insert by the place of the SOF. -/
def insertSof (base : Nat) (x : (Nat × Nat) × TxFrame) : List ((Nat × Nat) × TxFrame) → List ((Nat × Nat) × TxFrame)
  | [] => [x]
  | y :: r => if dist base x.1.1 * 256 + x.1.2 ≤ dist base y.1.1 * 256 + y.1.2 then x :: y :: r else y :: insertSof base x r

/-- Release the destinations that a failover or a retrain of a port holds (R139 step F1, R148). -/
def releaseFrom (n : Nat) (s : State) : State :=
  let dids := (s.sw.holds.filter (fun e => (e.2.why == some .failover || e.2.why == some .retrain) && e.2.oldLp == n)).map (·.1)
  dids.foldl (fun s d => releaseHeld d s) s

/-- A failback in progress of a port ends where it stands (R155): a destination held for it stays where it is. -/
def stopFailback (n : Nat) (s : State) : State :=
  let x := failOf s n
  if !x.returning && !x.sentFailback then s
  else
    let dids := (s.sw.holds.filter (fun e => e.2.why == some .failback && x.moved.contains e.1)).map (·.1)
    dids.foldl (fun s d => releaseHeld d s) (modFail n (fun y => { y with returning := false, sentFailback := false }) s)

/-- Nothing of a failover is left to move. -/
def endFailover (n : Nat) (s : State) : State := modFail n (fun y => { y with step := 0, frozen := [], rest := [], held := [] }) s

/-- A frame from its SOF segment on again (R140). -/
def again (x : TxFrame) : TxFrame := { x with rest := frameBytes x.f, begun := false, sof := (0, 0) }

/-- The frames that F5 sends again, in the order of their SOF segments (R140): those whose EOF lies after the partner's last delivered number, and those not wholly placed in flits. -/
def toReplay (x : Failover) (last : Nat) : List TxFrame :=
  let base := (x.frozen.head?.map (·.seq)).getD x.frozenNext
  let ended := (x.frozen.filter (fun sl => isAfter last sl.seq)).flatMap (fun sl => sl.sofs.zip (sl.frames.map (fun f => again { f := f })))
  let begun := (x.rest.filter (·.begun)).map (fun t => (t.sof, again t))
  ((ended ++ begun).foldl (fun l y => insertSof base y l) []).map (·.2) ++ x.rest.filter (fun t => !t.begun)

/-- Step F5 of a failover (R140): every frame not wholly received is sent again whole on the twin, ahead of the held ones, with the credits not yet returned; then the held frames follow. -/
def replayOnTwin (n last : Nat) (s : State) : State :=
  let x := failOf s n
  let s := modTx x.via (fun t => { t with frames := t.frames ++ toReplay x last }) s
  let creds := (x.frozen.filter (fun sl => isAfter last sl.seq)).flatMap (fun sl => if sl.ctrl then [] else creditSegs 60 sl.payload)
  let s := creds.foldl (fun s c => modTx x.via (fun t => { t with credOwed := t.credOwed.set c.1 (t.credOwed.getD c.1 0 + c.2) }) s) s
  let s := wakeDl x.via (x.held.foldl (fun s q => enqueue x.via q s) s)
  releaseFrom n (bump .failovers n (endFailover n s))

/-- A failover whose twin fails is abandoned (R155): what the failed port held is completed. -/
def abandonFailover (n : Nat) (s : State) : State :=
  let x := failOf s n
  let s := loseTraffic x.via (replayRequests x.frozenUna x.frozen x.rest) (unsentRequests x.rest) (dropHanded n (endFailover n s))
  releaseFrom n (x.held.foldl (fun s q => loseQueued n q.src q.f stUnavail s) s)

/-- A failover that gets no answer is abandoned while the twin keeps its own traffic (R755): what the failed port's link held is completed, and the rest goes on over the twin. -/
def abandonHeld (n : Nat) (s : State) : State :=
  let x := failOf s n
  let s := dropHanded n (endFailover n s)
  let s := (replayRequests x.frozenUna x.frozen x.rest).foldl (endHeld n x.via stUnknown) s
  let s := (unsentRequests x.rest).foldl (endHeld n x.via stUnavail) s
  releaseFrom n (x.held.foldl (fun s q => enqueue x.via q s) s)

/-- The record of a link down (R128, R133): counted, quarantined at the fourth within 60 s, else idle for 2 µs before it trains again. The error windows and the width of R149 stand (R150, DEDUCED, assumption 109). -/
def countDown (n : Nat) (s : State) : State :=
  let s := bump (if isCxl s n then .cxlDowns else .linkDowns) n (stopTx n s)
  let downs := now s :: slide (now s) 60000000000 (lpOf s n).downs
  let quar := decide (downs.length ≥ 4)
  let s := modLp n (fun l => { l with downs := downs, link := if quar then .quarantined else .training, idleUntil := some (now s + 2000), dl := .dl0, dlExit := none, dlReq := 0, sinceUpDown := true, wentDown := true, probation := none, l1 := false, l11 := false }) s
  let s := modInit n (fun i => { attempts := i.attempts }) s
  if quar then raise { code := 0x0206, cls := .severe, block := n / 2, arg := n } s else s

/-- The routes that a failover moved go back (R155). -/
def undoMove (n : Nat) (dids : List Nat) (s : State) : State :=
  modFail n (fun x => { x with moved := x.moved.filter (fun d => !dids.contains d) }) (modSw (fun w => { w with routes := w.routes.map (fun e => if dids.contains e.1 then (e.1, flipActive e.2) else e) }) s)

/-- A failover over a port that goes down on the tick on which it began: neither twin fails over, and the link down that moved no traffic is Severe (R134, R155). -/
def bothDown (via : Nat) (s : State) : State :=
  match twinOf s via with
  | none => s
  | some n =>
    let x := failOf s n
    if x.step ≠ 4 || x.via ≠ via || x.t0 ≠ now s then s
    else
      let dids := (s.sw.holds.filter (fun e => e.2.why == some .failover && e.2.oldLp == n)).map (·.1)
      raise { code := 0x0205, cls := .severe, block := n / 2, arg := n } (undoMove n dids s)

/-- A failover over a port that itself goes down is abandoned (R155). -/
def abandonVia (via : Nat) (s : State) : State :=
  ((s.net.fail.filter (fun e => e.2.step == 4 && e.2.via == via)).map (·.1)).foldl (fun s m => abandonFailover m s) (bothDown via s)

/-- What a logical port holds as its link stops (R129, R134, R139, R754): it moves to a live twin, or it is completed and its agent is lost. -/
def moveOrLose (n : Nat) (twin : Option Nat) (s : State) : State :=
  let t := txOf s n
  let ack := (rxOf s n).ack
  match twin with
  | some v => startFailover n v ack s
  | none =>
    let s := modFail n (fun x => { x with lastDelivered := ack }) (endFailover n (resetSeq n s))
    releaseFrom n (lostAgent n (loseTraffic n (replayRequests t.unacked t.replay t.frames) (unsentRequests t.frames) s))

/-- The frames that cross from a port stop, its failback and failovers over it end: what comes first as a link stops (R155, R208). -/
def cutLink (n : Nat) (returns : Bool) (s : State) : State :=
  let s := abandonVia n (loseIngress n returns (stopFailback n s))
  match twinOf s n with
  | some t => stopFailback t s
  | none => s

/-- Both twins go down on one tick: neither fails over (R155). -/
def fallenTwin (s : State) (n : Nat) : Bool := match twinOf s n with
  | some t => s.net.fallen.any (fun e => e.1 == t)
  | none => false

/-- Take a Den port down (R128, R134): its traffic moves to a live twin (R139), or it is completed (R129). -/
def denDown (n : Nat) (s : State) : State :=
  let l := (lpOf s n).link
  if l == .disabled || l == .quarantined || l == .outOfService then s
  else
    let twin := if fallenTwin s n then none else liveTwin s n
    let s := countDown n (cutLink n twin.isNone s)
    moveOrLose n twin (raise { code := if twin.isSome then 0x0204 else 0x0205, cls := if twin.isSome then .degraded else .severe, block := n / 2, arg := n } s)

/-- Complete every request outstanding towards a CXL partner with a status (R172, R178). -/
def loseCxl (n : Nat) (st : BitVec 4) (s : State) : State :=
  let outs := (cxlOf s n).out
  let s := modCxl n (fun _ => {}) s
  let s := ((outs.map (·.asker)).dedup).foldl (fun s a => endAsker n a st s) s
  loseTraffic n [] [] s

/-- Take a CXL port's link down (C10 of R176): its requests complete under R172, and it trains afresh or is quarantined. -/
def cxlDown (n : Nat) (s : State) : State :=
  let l := (lpOf s n).link
  if l == .disabled || l == .quarantined || l == .outOfService then s
  else
    let s := countDown n (loseIngress n true s)
    let s := windowEvent n 10 { code := 0x020A, cls := .degraded, block := n / 2, detail := 10 } s
    let s := modLp n (fun x => { x with rate := 0 }) s
    lostAgent n (loseCxl n stUnavail s)

/-- Complete what was asked of a partner and is not answered, and what a CXL partner holds (R129, R172, R178). -/
def endPartner (n : Nat) (s : State) : State :=
  let outs := tget s.net.denOut n
  loseCxl n stUnavail (outs.foldl (fun s o => endAsker n o.asker stUnavail s) (modOut n (fun _ => []) s))

/-- A link stops in a state that only a command ends (R84, R131, R178): what it carried moves to a live twin, or it is completed with what its partner has not answered. -/
def haltLink (n : Nat) (l' : Link) (s : State) : State :=
  let twin := liveTwin s n
  let s := stopTx n (cutLink n twin.isNone s)
  let s := modLp n (fun l => { l with link := l', dl := .dl0, dlExit := none, dlReq := 0, probation := none, rate := 0, l1 := false, l11 := false, idleUntil := none }) s
  let s := moveOrLose n twin (modInit n (fun _ => {}) s)
  if twin.isSome then s else endPartner n s

/-- Take a port out of service (R111, R178): disabled link, one Severe event naming the classes, its requests completed, RST_N low. -/
def outOfService (n : Nat) (classes : Nat) (s : State) : State :=
  if (lpOf s n).link == .outOfService || (lpOf s n).link == .disabled then s
  else
    let s := raise { code := 0x020B, cls := .severe, block := n / 2, detail := classes, arg := n } (haltLink n .outOfService s)
    modPort (n / 2) (fun p => { p with rstLow := true }) s

/-- Quarantine a port at once (R131, R133). -/
def quarantine (n : Nat) (s : State) : State :=
  if (lpOf s n).link == .quarantined || (lpOf s n).link == .disabled then s
  else raise { code := 0x0206, cls := .severe, block := n / 2, arg := n } (haltLink n .quarantined s)

/-- Take down one link of the list `fallen` with its reasons: out of service goes before a link down (R182), several classes make one event. -/
def carryFall (n : Nat) (whys : List Nat) (s : State) : State :=
  let classes := whys.foldl (fun m w => if w ≥ 16 then m ||| 2 ^ (w - 16) else m) 0
  if whys.any (fun w => w == 1 || w ≥ 16) then outOfService n classes s
  else if whys.contains 2 then quarantine n s
  else if isCxl s n then cxlDown n s else denDown n s

end Sys2Proof.Machine
end

