-- ==== Sys2Proof/Machine/Objects.lean ====
section
/-! DEFINITION. Handles, sessions and leases of a lost origin, disabled ports (R8 to R11, R488, R524 to R526, R618, R710). -/

namespace Sys2Proof.Machine

/-- The capacity of each handle type (R210, R242, R252, R270, R438): of counter groups the manual states none beyond the index field. -/
def typeCap : Nat → Nat
  | 1 => 65536
  | 2 => 262144
  | 3 => 16384
  | 4 => 67584
  | 5 => 256
  | 6 => 1048576
  | 7 => 4096
  | 8 => 4096
  | 9 => 1024
  | 10 => 64
  | _ => 0

/-- The lowest free index of a type, scanning the objects in use (DESIGN CHOICE, assumption 8). -/
def lowestFree (s : State) (ty : Nat) : Option Nat :=
  let used := (s.ten.objs.filter (fun e => e.1 / 2 ^ 20 == ty && e.2.live)).map (fun e => e.1 % 2 ^ 20)
  let i := used.foldl (fun i u => if u = i then i + 1 else i) 0
  if i < typeCap ty then some i else none

/-- Give an index of a type to a new object (R8): the generation advances each time the index is reused (DESIGN CHOICE, assumption 31). -/
def takeIndex (ty idx : Nat) (s : State) : Handle × State :=
  let key := ty * 2 ^ 20 + idx
  let o := tget s.ten.objs key
  let o' : ObjSt := { live := true, used := true, gen := if o.used then o.gen + 1 else o.gen }
  (mkHandle ty idx o'.gen.toNat, modTen (fun t => { t with objs := tset t.objs key o' }) s)

/-- Free an index: its generation stays until the index is reused (R8). -/
def freeIndex (ty idx : Nat) (s : State) : State :=
  modTen (fun t => { t with objs := tmod t.objs (ty * 2 ^ 20 + idx) (fun o => { o with live := false }) }) s

/-- Free an index whose reservation is rolled back: the generation advances (R488). -/
def unreserve (h : Handle) (s : State) : State :=
  modTen (fun t => { t with objs := tmod t.objs (hType h * 2 ^ 20 + hIdx h) (fun o => { o with live := false, used := false, gen := o.gen + 1 }) }) s

/-- Open a session (R524): its type-0x6 handle, its owner and its resource. -/
def openSession (owner : Route) (res : SessRes) (until_ : Nat) (s : State) : Option Handle × State :=
  match lowestFree s 6 with
  | none => (none, s)
  | some i =>
    let (h, s) := takeIndex 6 i s
    (some h, modTen (fun t => { t with sessions := tset t.sessions i { live := true, owner := owner, res := res, until_ := until_ } }) s)

/-- The session that holds a resource picked by a test: its handle (R525). -/
def holderOf (s : State) (p : SessRes → Bool) : Option Handle :=
  (s.ten.sessions.find? (fun e => e.2.live && p e.2.res)).map (fun e => handleOf s 6 e.1)

/-- Release what a session held (R524). -/
def releaseRes (h : Handle) (r : SessRes) (s : State) : State :=
  match r with
  | .prbs _ _ _ _ _ => s
  | .eyescan _ => s
  | .margin _ _ _ => s
  | .clkobs => { s with pwr := { s.pwr with obsClk := 0, obsN := 0, obsOut := 0, obsStopped := false, obsSession := 0 } }
  | .gpio pin => { s with pwr := { s.pwr with gpioMode := tset s.pwr.gpioMode pin 0, gpioLevel := tset s.pwr.gpioLevel pin 0 } }
  | .group => { s with ctr := { s.ctr with slots := s.ctr.slots.filter (fun p => p.group != h), groups := tset s.ctr.groups (hIdx h) default, mons := s.ctr.mons.filter (fun m => m.2.group != h) } }

/-- End a session: its resource is released, its handle is free, and the release is recorded (R524, R534). -/
def endSession (idx : Nat) (s : State) : State :=
  let x := tget s.ten.sessions idx
  let h := handleOf s 6 idx
  recordLease 0 h (freeIndex 6 idx (modTen (fun t => { t with sessions := tset t.sessions idx default }) (releaseRes h x.res s)))

/-- A scan's command still runs: its session ends with it, whoever is lost (R544). -/
def scanRuns (s : State) (idx : Nat) : Bool := s.cmd.running.any (fun r => r.waits.contains (.eyescan (handleOf s 6 idx)))

/-- An origin is lost (R488, R526): its sessions end at once, but for one whose command is running, and its leases start to lapse. -/
def originLost (p : Route → Bool) (s : State) : State :=
  let sess := (s.ten.sessions.filter (fun e => e.2.live && p e.2.owner && !scanRuns s e.1)).map (·.1)
  let s := sess.foldl (fun s i => endSession i s) s
  modTen (fun t => { t with leases := t.leases.map (fun e => if e.2.live && p e.2.owner && e.2.lostAt.isNone then (e.1, { e.2 with lostAt := some (now s) }) else e) }) s

/-- The tenants of a host logical port that went down are lost (R488). -/
def portOriginsLost (n : Nat) (s : State) : State :=
  originLost (fun r => match r with
    | .tenant b => match liveBind s b with
      | some x => x.lp == n
      | none => false
    | _ => false) s

/-- Disable one logical port: its link stops, what it held moves to a live twin or completes as for a port that is down, and its side-bands read as R84 gives. -/
def disableLp (n : Nat) (s : State) : State :=
  if (lpOf s n).link == .disabled then s
  else
    let s := haltLink n .disabled s
    portOriginsLost n (modLp n (fun l => { l with sinceUpDown := true, wentDown := false }) s)

/-- The side-band outputs of a port (R84, R90): LPMODE is high while each logical port that it has is disabled or in DL2, RST_N low while all of them are disabled. -/
def portPins (p : Nat) (s : State) : State :=
  let lps := [2 * p, 2 * p + 1].filter (lpExists s)
  let off := lps.all (fun n => (lpOf s n).link == .disabled)
  let deep := lps.all (fun n => (lpOf s n).link == .disabled || (lpOf s n).dl == .dl2)
  modPort p (fun c => { c with rstLow := off || (c.rstLow && lps.any (fun n => (lpOf s n).link == .outOfService)), lpmode := deep }) s

/-- Disable a port, both of its logical ports (R618, R704). -/
def disablePort (p : Nat) (s : State) : State := portPins p (disableLp (2 * p + 1) (disableLp (2 * p) s))

/-- Carry out the links that this step took down, the first of each logical port with all its reasons (R182). -/
def settleLinks : Nat → State → State
  | 0, s => s
  | fuel + 1, s =>
    match s.net.fallen with
    | [] => s
    | (n, w) :: r =>
      let whys := w :: (r.filter (fun e => e.1 == n)).map (·.2)
      let s := carryFall n whys s
      let s := modNet (fun t => { t with fallen := t.fallen.filter (fun e => e.1 != n) }) s
      let s := if linkLive s n then s else portOriginsLost n s
      settleLinks fuel (portPins (n / 2) s)

end Sys2Proof.Machine
end

