-- ==== Sys2Proof/Machine/Records.lean ====
section
/-! DEFINITION. The byte images of records: tenants, slices, bindings, rule sets, notices, port tables, step records and state blocks (R439, R443, R447, R476, R520, R521, R597, R599). -/

namespace Sys2Proof.Machine

/-- The live bindings of a tenant (R439). -/
def bindsOfTenant (s : State) (h : Handle) : Nat := (s.ten.bindings.filter (fun e => e.2.live && e.2.tenant == h)).length

/-- The rules that a rule set counts against its quotas: those of its staged list or its committed one, whichever is longer (DEDUCED, assumption 9). -/
def rulesOfSet (r : RuleSet) : Nat := max (max r.committed.length r.next.length) r.staged.length

/-- The live rules of a tenant (R439). -/
def rulesOfTenant (s : State) (h : Handle) : Nat :=
  (s.ten.ruleSets.filter (fun e => e.2.live && e.2.owner == h)).foldl (fun n e => n + rulesOfSet e.2) 0

/-- The live bindings of a slice (R443). -/
def bindsOfSlice (s : State) (h : Handle) : Nat := (s.ten.bindings.filter (fun e => e.2.live && e.2.slice == h)).length

/-- A tenant record (R439). -/
def tenantBytes (s : State) (h : Handle) (t : Tenant) : Bytes :=
  leBytes 4 h.toNat ++ leBytes 1 t.prio ++ leBytes 1 (b2n t.strict) ++ leBytes 2 t.bindQuota ++ leBytes 2 t.ruleQuota
    ++ leBytes 1 t.setQuota ++ leBytes 1 t.leaseQuota ++ leBytes 2 t.rate ++ zeros 2
    ++ leBytes 4 (bindsOfTenant s h) ++ leBytes 4 (rulesOfTenant s h) ++ zeros 8

/-- A slice record (R443). -/
def sliceBytes (s : State) (h : Handle) (r : SliceRec) : Bytes :=
  leBytes 4 h.toNat ++ leBytes 4 r.owner.toNat ++ leBytes 8 r.base ++ leBytes 8 r.len ++ leBytes 2 r.target
    ++ leBytes 1 (b2n r.coherent + 2 * b2n r.persistent + 4 * b2n r.locked) ++ [0] ++ leBytes 4 (bindsOfSlice s h)

/-- A binding record (R447). -/
def bindingBytes (h : Handle) (b : Binding) : Bytes :=
  leBytes 4 h.toNat ++ leBytes 4 b.tenant.toNat ++ leBytes 4 b.slice.toNat ++ leBytes 1 b.lp ++ leBytes 3 b.pasid
    ++ leBytes 8 b.wbase ++ leBytes 8 b.len ++ leBytes 8 b.off ++ leBytes 8 b.recv ++ leBytes 2 b.peer ++ leBytes 2 b.page
    ++ leBytes 1 (b2n b.irq + 2 * b2n b.faulted + 4 * b2n b.restored) ++ zeros 3

/-- The answer of `gate.status` for a rule set (R520). -/
def ruleSetBytes (r : RuleSet) : Bytes :=
  leBytes 4 r.owner.toNat ++ leBytes 2 r.staged.length ++ leBytes 2 r.committed.length
    ++ leBytes 1 (b2n (r.swapAt.isSome || r.awaitDrain)) ++ zeros 7 ++ leBytes 8 r.lastSwap

/-- The code of a notice's reason (R476). -/
def reasonCode : Reason → Nat
  | .refused => 1 | .unavailable => 2 | .flushFailed => 3

/-- A notice (R476). `delivered` says that it was recorded at a Hibernate and is delivered after the restart. -/
def noticeBytes (n : Notice) (delivered : Bool) : Bytes :=
  leBytes 1 (reasonCode n.why) ++ leBytes 1 (b2n (n.count ≥ 0xFFFFFFFF) + 2 * b2n delivered) ++ zeros 2 ++ leBytes 4 n.binding.toNat
    ++ leBytes 4 n.ruleSet.toNat ++ leBytes 4 n.count ++ leBytes 8 (ftOf n.first) ++ leBytes 8 n.epoch

/-- The table of `port.configure` in force for a logical port (R521). -/
def portCfgBytes (n : Nat) (c : PortCfg) : Bytes :=
  leBytes 1 n ++ leBytes 1 c.mode ++ leBytes 1 c.width ++ leBytes 1 c.role ++ leBytes 1 c.twin
    ++ leBytes 1 (b2n c.failback + 2 * b2n c.ignorePresent + 4 * b2n c.twinNamed) ++ leBytes 1 c.fwd ++ [0]
    ++ leBytes 2 c.crcLimit ++ leBytes 1 c.cwLimit ++ leBytes 1 c.protoLimit ++ leBytes 4 c.window
    ++ c.thresholds.flatMap (leBytes 2) ++ leBytes 4 c.respTimeout ++ leBytes 4 c.mergeTimeout ++ leBytes 4 c.freezeLimit
    ++ c.credits.flatMap (leBytes 2) ++ zeros 4

/-- A performance-slot-independent image of a soft repair (R597). -/
def repairBytes (r : Repair) : Bytes := leBytes 1 r.stack ++ leBytes 1 r.pc ++ leBytes 1 r.bank ++ [0] ++ leBytes 4 r.row

/-- The ledger's state block but for its hash (R597); the port tables are those of the logical ports. -/
def blockBytes (s : State) (b : Block) : Bytes :=
  [0x44, 0x5A, 0x42, 0x4C, 1] ++ leBytes 1 b.bank ++ leBytes 1 b.pair.val ++ leBytes 1 b.tableCopy ++ leBytes 8 b.generation
    ++ leBytes 8 b.reservation ++ leBytes 4 b.startNumber ++ leBytes 4 b.lastReady ++ leBytes 1 b.training
    ++ leBytes 1 (b2n b.journalSet) ++ leBytes 2 b.repairs.length ++ leBytes 4 b.primRoute ++ leBytes 4 b.mirrRoute ++ zeros 4
    ++ leBytes 2 b.primDid ++ leBytes 2 b.mirrDid ++ zeros 4 ++ leBytes 8 b.primAddr ++ leBytes 8 b.mirrAddr
    ++ leBytes 16 b.ports ++ zeros 8 ++ leBytes 1 b.prio ++ leBytes 1 b.timeFlags ++ zeros 30
    ++ (List.range 256).flatMap (fun n => let e := tget b.entries n; leBytes 1 (b2n e.en) ++ zeros 3 ++ sBytes 4 e.asym)
    ++ (b.repairs.flatMap repairBytes ++ zeros (4096 - 8 * b.repairs.length))
    ++ (List.range 256).flatMap (fun n => portCfgBytes n (cfgOf s n)) ++ zeros 10048

/-- Write a new state block: the generation advances (R597, R598). -/
def ledgerWrite (g : Block → Block) (s : State) : State :=
  let b := g s.ledger
  { s with ledger := { b with generation := b.generation + 1 } }

end Sys2Proof.Machine
end

