-- ==== Sys2Proof/Machine/Journal.lean ====
section
/-! DEFINITION. The durability journal: records, their chain and signatures, deltas, marks and checkpoints (R421 to R431). -/

namespace Sys2Proof.Machine

/-- The type code of a record's body (R425). -/
def JBody.code : JBody → Nat
  | .mark => 1 | .delta _ _ => 2 | .checkpoint _ _ => 3 | .drain _ => 4 | .hibernate _ => 5

/-- A record type is signed (R425). -/
def JBody.signed : JBody → Bool
  | .delta _ _ => false
  | _ => true

/-- The object of a delta in the layout that its read command returns (R426). -/
def deltaBytes (s : State) : DeltaObj → Bytes
  | .tenant i r o => tenantBytes s (mkHandle 8 i o.gen.toNat) r
  | .slice i r o => sliceBytes s (mkHandle 2 i o.gen.toNat) r
  | .binding i r o => bindingBytes (mkHandle 1 i o.gen.toNat) r
  | .ruleSet _ r _ => ruleSetBytes r ++ r.committed.flatMap (fun x => leBytes 16 x.toNat)
  | .none_ => []

/-- The configuration image as bytes: its records in handle order (R427). -/
def imageBytes (s : State) (c : CfgImage) : Bytes :=
  [BitVec.ofNat 8 (b2n c.mediated)]
    ++ c.tenants.flatMap (fun e => tenantBytes s (handleOf s 8 e.1) e.2)
    ++ c.slices.flatMap (fun e => sliceBytes s (handleOf s 2 e.1) e.2)
    ++ c.bindings.flatMap (fun e => bindingBytes (handleOf s 1 e.1) e.2)
    ++ c.ruleSets.flatMap (fun e => ruleSetBytes e.2 ++ e.2.committed.flatMap (fun x => leBytes 16 x.toNat))

/-- The code of a flush outcome (R428). -/
def flushCode : FlushOutcome → Nat
  | .flushed => 0 | .timeout => 1 | .portDown => 2 | .error => 3

/-- The body of a drain or hibernate record (R428). -/
def drainBytes (s : State) (b : DrainBody) : Bytes :=
  leBytes 8 (ftOf b.pfail) ++ leBytes 8 (ftOf b.flushDone) ++ leBytes 8 b.finalEpoch ++ leBytes 8 b.finalDurable ++ leBytes 8 b.dAt0
    ++ leBytes 8 b.lines ++ leBytes 8 b.lost ++ leBytes 8 b.checkpoint ++ leBytes 4 b.dirtyCap ++ leBytes 4 b.flags
    ++ leBytes 2 b.targets.length ++ leBytes 2 b.notices.length ++ leBytes 4 b.overflow
    ++ b.targets.flatMap (fun t => leBytes 1 t.1 ++ leBytes 1 (if isCxl s t.1 then 2 else 1) ++ leBytes 1 (flushCode t.2.1) ++ zeros 3 ++ leBytes 2 t.2.2.1 ++ leBytes 8 (ftOf t.2.2.2))
    ++ b.notices.flatMap (fun n => noticeBytes n true)

/-- The body of a record (R425 to R428). -/
def bodyBytes (s : State) : JBody → Bytes
  | .mark => []
  | .delta op o => leBytes 2 op ++ zeros 6 ++ deltaBytes s o
  | .checkpoint area image => let b := imageBytes s image; leBytes 8 area ++ leBytes 8 b.length ++ leBytes 64 (Config.sha3 b).toNat
  | .drain b | .hibernate b => drainBytes s b

/-- The header of a record (R423). -/
def jHeader (s : State) (r : JRec) : Bytes :=
  [0x48, 0x52, 0x44, 0x4A] ++ leBytes 1 r.body.code ++ [1] ++ leBytes 2 r.blocks ++ leBytes 8 r.seq ++ leBytes 8 s.fuses.serial.toNat
    ++ leBytes 8 (ftOf r.written) ++ leBytes 8 r.epoch ++ leBytes 8 r.durable ++ leBytes 64 r.prev.toNat ++ zeros 16

/-- Every block of a record: header, body, trailer and padding (R423, R424). -/
def jBytes (s : State) (r : JRec) : Bytes :=
  let b := jHeader s r ++ bodyBytes s r.body ++ r.trailer
  b ++ zeros (4096 * r.blocks - b.length)

/-- The device-identity key's seed (R551). -/
def identitySeed (s : State) : Bytes :=
  (leBytes 64 (Config.sha3 ([0x44, 0x5A, 0x31, 0x30, 0x32, 0x34, 0x2D, 0x49, 0x44, 0x53, 0x45, 0x45, 0x44] ++ leBytes 32 s.fuses.secret.toNat)).toNat).take 32

/-- The endorsement of the alias key by the device identity (R554, DEDUCED, assumption 41). -/
def endorsement (s : State) : Bytes × State :=
  let (e, s) := drawFree s
  (Config.sign (identitySeed s) ([0x44, 0x5A, 0x31, 0x30, 0x32, 0x34, 0x2D, 0x41, 0x4C, 0x49, 0x41, 0x53] ++ leBytes 8 s.fuses.serial.toNat ++ leBytes 64 (Config.sha3 (aliasKey s)).toNat) e, s)

/-- Change the journal. -/
def modJ (g : JournalSt → JournalSt) (s : State) : State := { s with journal := g s.journal }

/-- Blocks of 4 KiB that a record takes: with the 11,846 bytes of a trailer when it is signed (R423, R424). -/
def jBlocks (s : State) (b : JBody) : Nat := (128 + (bodyBytes s b).length + (if b.signed then 11846 else 0) + 4095) / 4096

/-- Drop the records that the ring's 32,512 blocks no longer hold (R421, R427). -/
def ringFit : Nat → List JRec → List JRec
  | _, [] => []
  | room, r :: t => if r.blocks ≤ room then r :: ringFit (room - r.blocks) t else []

/-- Write a record with the number that follows: chained, signed when its type is, and then waiting for the devices; with neither device left there is nothing to write to (R423 to R426, R430). Answers its sequence. -/
def jWrite (b : JBody) (s : State) : Nat × State :=
  let seq := s.journal.nextSeq
  if s.journal.set_ && (s.journal.primOk || s.journal.mirrOk) then
    let prev := (s.journal.recs.head?.map (·.hash)).getD 0
    let r : JRec := { seq := seq, blocks := jBlocks s b, written := now s, epoch := s.hoard.epoch, durable := s.hoard.durable, prev := prev, body := b }
    let (r, s) := if b.signed then
        let (en, s) := endorsement s
        let part := aliasKey s ++ en
        let (sg, s) := aliasSign (jHeader s r ++ bodyBytes s b ++ part) s
        ({ r with trailer := part ++ sg }, s)
      else (r, s)
    let r := { r with hash := Config.sha3 (jBytes s r) }
    (seq, bump .jRecs 0 (modJ (fun j => { j with recs := ringFit 32512 (r :: j.recs), nextSeq := seq + 1 }) s))
  else (seq, s)

/-- The configuration image of now (R427). -/
def imageNow (s : State) : CfgImage :=
  { objs := s.ten.objs.filter (fun e => [1, 2, 3, 7, 8].contains (e.1 / 2 ^ 20)), tenants := s.ten.tenants, slices := s.ten.slices, bindings := s.ten.bindings, ruleSets := s.ten.ruleSets.map (fun e => (e.1, { e.2 with staged := [], next := [], swapAt := none, awaitDrain := false, recallLps := [] })), mediated := s.ten.mediated, meters := s.tm.meters, attached := s.tm.attached, shapers := s.tm.shapers }

/-- Write a checkpoint to the area that the one before did not use (R427). -/
def checkpoint (s : State) : State :=
  let area := 1 - s.journal.area
  let (seq, s) := jWrite (.checkpoint area (imageNow s)) s
  modJ (fun j => { j with area := area, sinceCkpt := 0, ckptSeq := seq }) s

/-- Ring blocks that the newest checkpoint and what follows it take. -/
def ringUsed (s : State) : Nat := (s.journal.recs.filter (fun r => decide (r.seq ≥ s.journal.ckptSeq))).foldl (fun n r => n + r.blocks) 0

/-- A checkpoint falls due after 16,384 deltas or at three quarters of the ring (R425). -/
def checkpointDue (s : State) : State :=
  if s.journal.set_ && (s.journal.sinceCkpt ≥ 16384 || ringUsed s ≥ 24384) then checkpoint s else s

/-- Write a delta (R425, R426); answers its sequence. -/
def jDelta (op : Nat) (o : DeltaObj) (s : State) : Nat × State :=
  let (seq, s) := jWrite (.delta op o) s
  (seq, checkpointDue (modJ (fun j => { j with sinceCkpt := j.sinceCkpt + b2n j.set_ }) s))

/-- Write a mark (R425). -/
def jMark (s : State) : State :=
  let (_, s) := jWrite .mark s
  modJ (fun j => { j with lastMark := s.hoard.epoch }) s

/-- A record is durable on both journal devices or on the one that remains; with neither left nothing is waited for (R426, R430). -/
def jDurable (s : State) (seq : Nat) : Bool :=
  let j := s.journal
  if !j.set_ || (!j.primOk && !j.mirrOk) then true
  else match j.recs.find? (fun r => r.seq == seq) with
    | some r => (r.prim || !j.primOk) && (r.mirr || !j.mirrOk)
    | none => true

/-- A device cannot be written (R430): Degraded on the first, Severe when neither is left. -/
def jFailure (prim mirr : Bool) (s : State) : State :=
  let before := s.journal
  let s := if prim then bump .jFail 0 s else s
  let s := if mirr then bump .jFail 0 s else s
  let s := modJ (fun j => { j with primOk := j.primOk && !prim, mirrOk := j.mirrOk && !mirr }) s
  let both := !s.journal.primOk && !s.journal.mirrOk
  if both && !before.absent then
    raise { code := 0x0804, cls := .severe, block := 225 } (modJ (fun j => { j with absent := true }) s)
  else if (prim || mirr) && !before.degraded then
    raise { code := 0x0803, cls := .degraded, block := 225 } (modJ (fun j => { j with degraded := true }) s)
  else s

/-- The devices answer for a record, and for every record before it: written durably or not (R426, R430). -/
def jAnswer (seq : Nat) (prim mirr : Bool) (s : State) : State :=
  let s := modJ (fun j => { j with recs := j.recs.map (fun r => if r.seq ≤ seq then { r with prim := r.prim || (prim && j.primOk), mirr := r.mirr || (mirr && j.mirrOk) } else r) }) s
  jFailure (!prim && s.journal.primOk) (!mirr && s.journal.mirrOk) s

/-- A record waits for its devices. -/
def jWaiting (s : State) (seq : Nat) : Bool := s.journal.recs.any (fun r => r.seq == seq) && !jDurable s seq

end Sys2Proof.Machine
end

