-- ==== Sys2Proof/Machine/Complete.lean ====
section
/-! DEFINITION. Completions: their headers, their Spoor records, where they go, and the running commands whose waits are over (R497, R505 to R511, R528, R530 to R534). -/

namespace Sys2Proof.Machine

/-- The largest completion payload of a route (R497). -/
def completionLimit : Route → Nat
  | .pe _ => 1048512
  | .i3c _ _ => 4096
  | .tenant _ => 1984
  | .firmware _ => 1048512

/-- The most payload that a completion carries (R510). -/
def capacityOf (q : Req) : Nat :=
  if q.cap.toNat = 0 then completionLimit q.route else min q.cap.toNat (completionLimit q.route)

/-- A completion before it is laid out (R511). -/
structure Completion where
  req : Req
  opcode : Nat
  status : Status := .ok
  related : Handle := 0
  detail : Nat := 0
  payload : Bytes := []
  accepted : Nat := 0
  spoor : Nat := 0
  staged : Bool := false
  discard : Bool := false

/-- The bytes of a completion: its header with CCHK, then its payload, cut to the response capacity (R510, R511). -/
def completionBytes (s : State) (c : Completion) : Bytes :=
  let pay := c.payload.take (capacityOf c.req)
  let h := leBytes 2 c.opcode ++ leBytes 1 c.status.code ++ leBytes 1 (b2n (c.payload.length > pay.length) + 2 * b2n c.staged)
    ++ leBytes 4 c.req.seq.toNat ++ leBytes 4 pay.length ++ leBytes 4 c.related.toNat ++ leBytes 8 c.accepted ++ leBytes 8 (ftCount s)
    ++ leBytes 8 c.spoor ++ leBytes 4 c.detail ++ zeros 16
  h ++ leBytes 4 (crc32c (h ++ pay)).toNat ++ pay

/-- Change the mailbox registers. -/
def modMbx (g : MbxSt → MbxSt) (s : State) : State := { s with mbx := g s.mbx }

/-- Change the command engine. -/
def modCmd (g : CmdSt → CmdSt) (s : State) : State := { s with cmd := g s.cmd }

/-- Notify the host of a binding (R478, R533): vector `vec` of its logical device on CXL, or an IO_MSG to its PASID whose payload is the binding and `word`. A binding that is gone is notified nowhere (R544). -/
def notifyHost (b : Handle) (vec word : Nat) (s : State) : State :=
  match liveBind s b with
  | none => s
  | some x =>
    if isCxl s x.lp then emit (.hostIrq x.lp vec) s
    else
      let f := sealHdr { opcode := 0x04, cls := clsIO, chan := 6, did := BitVec.ofNat 12 (didOf s x.lp), sid := selfDid s, binding := BitVec.ofNat 32 x.pasid, length := 8, data := leBytes 4 b.toNat ++ leBytes 4 word }
      if linkLive s x.lp then raiseX .sett (.lp x.lp) f (frameLen f) 0 s else s

/-- The tenant mailbox whose command came through a binding. -/
def tenMbxOf (s : State) (b : Handle) : Option Nat :=
  (s.ten.mbxs.find? (fun e => e.2.origin == b && e.2.db)).map (·.1)

/-- Write a completion where its route takes it (R506 to R508, R528, R530 to R533): header last, then the done bit, then the interrupt. -/
def deliver (c : Completion) (s : State) : State :=
  let bytes := completionBytes s c
  let quiet := c.req.flags.getLsbD 0
  match c.req.route with
  | .pe k =>
    if c.discard then s
    else
      let s := modMbx (fun m => { m with bar2 := memWrite m.bar2 (k.val * 0x200000 + 0x100000) bytes, slots := tset m.slots k.val .done }) s
      if s.mbx.irqEn.getLsbD k.val && !quiet then msix 0 s else s
  | .i3c e t => emit (.i3c e t (leBytes 2 s.fuses.vendor.toNat ++ bytes)) s
  | .tenant b =>
    match tenMbxOf s b with
    | none => s
    | some i =>
      let s := modTen (fun t => { t with mbxs := tmod t.mbxs i (fun m => { m with cells := memWrite m.cells 0x800 bytes, db := false, run := false, done := true }) }) s
      if quiet then s else notifyHost b 1 2 s
  | .firmware _ => s

/-- A command leaves a Spoor record (R534): on OK, PARTIAL or a staged outcome unless it only reads, and on DENIED, AUTH_FAIL or LOCKED. -/
def recordsCommand (st : Status) (reads staged : Bool) : Bool :=
  match st with
  | .ok | .partialDone => staged || !reads
  | .denied | .authFail | .locked => true
  | _ => false

/-- Complete a command: its Spoor record, its count, then its completion (R509, R534, R543). -/
def completeCmd (r : Running) (s : State) : State :=
  let rec_ := recordsCommand r.status r.reads r.staged
  let seq := s.log.nextSeq
  let s := if rec_ then record { iface := Route.iface r.req.route, kind := 1, code := r.opcode, identity := Route.identity r.req.route, h1 := r.h1, h2 := r.h2, outcome := r.status.code, detail := r.detail % 65536, arg := r.req.seq.toNat } s else s
  let s := bumpC .cmds (Route.cls r.req.route) r.status.code 1 {} s
  deliver { req := r.req, opcode := r.opcode, status := r.status, related := r.related, detail := r.detail, payload := r.payload, accepted := r.accepted, spoor := if rec_ then seq else 0, staged := r.staged, discard := r.discard } s

/-- A wait of a running command is over. -/
def waitMet (s : State) : Wait → Bool
  | .delta q => jDurable s q
  | .drain => s.dev.drainDone
  | .resetDrain => s.start.resetRecord
  | .dreyFlush => !writesLeft s
  | .dirtyCap => (List.range 4).all (fun k => decide (dirtyCount s k ≤ quota s))
  | .gateDrain rs => let r := tget s.ten.ruleSets (hIdx rs); r.swapAt.isNone && !r.awaitDrain
  | .bindGone b => !liveHandle s b
  | .domain _ _ => false
  | .takeover => false
  | .openScope _ _ => !writesLeft s
  | .journalSet _ => s.journal.moving.isNone
  | .timeGate lp => (tget s.tm.gates lp).committed.isNone
  | .eyescan h => !liveHandle s h
  | .mediated _ => false
  | .gateLease _ => true
  | .ruleSwap rs => (tget s.ten.ruleSets (hIdx rs)).swapAt.isNone
  | .ruleRecall rs => let r := tget s.ten.ruleSets (hIdx rs); r.swapAt.isNone && r.recallLps.all (recallsDone s)

/-- What a command's end brings besides its completion: `coh.drey_flush` lets the flows it held start (R370), a debug unlock opens its scope after its flush (R492, R581), a destroyed rule set's handle is free (R757), and a lease's commit is over (R487). -/
def endOfWait (w : Wait) (s : State) : State :=
  match w with
  | .dreyFlush =>
    let s := { s with coh := { s.coh with flushHold := false } }
    (List.range 16).foldl (fun s i => pump i (wake i (fun t => t.phase == .waitFlush) s)) s
  | .gateDrain rs =>
    if (tget s.ten.ruleSets (hIdx rs)).destroying then
      freeIndex 7 (hIdx rs) (modTen (fun t => { t with ruleSets := tset t.ruleSets (hIdx rs) default }) s)
    else s
  | .openScope scope minutes =>
    let t := now s
    let s := { s with coh := { s.coh with flushHold := false }, sec := { s.sec with unlock := some (scope, t + minutes * 60000000000) } }
    let s := recordSecurity 0x0DFF 1 scope s
    (List.range 16).foldl (fun s i => pump i (wake i (fun t => t.phase == .waitFlush) s)) s
  | .gateLease h => modTen (fun t => { t with leases := tmod t.leases (hIdx h) (fun l => { l with committing := false }) }) s
  | _ => s

/-- Take the first running command that a test picks off the list and complete it as changed. -/
def completeRunning (p : Running → Bool) (g : Running → Running) (s : State) : State :=
  match s.cmd.running.find? p with
  | none => s
  | some r =>
    let s := modCmd (fun c => { c with running := c.running.erase r }) s
    completeCmd (g r) (r.waits.foldl (fun s w => endOfWait w s) s)

/-- Complete the running commands whose waits are over, oldest first. In Hibernate, Off and Grave no completion is written (R17, R437, R544). -/
def pokeCommands (s : State) : State :=
  if s.dev.st == .hibernate || s.dev.st == .off || s.dev.st == .grave then s
  else s.cmd.running.foldl (fun s r =>
    if r.waits.all (waitMet s) then completeRunning (fun x => decide (x = r)) id s else s) s

/-- Start or end a command: with nothing to wait for it completes at once. -/
def launch (r : Running) (s : State) : State :=
  if r.waits.all (waitMet s) then completeCmd r (r.waits.foldl (fun s w => endOfWait w s) s)
  else modCmd (fun c => { c with running := c.running ++ [r] }) s

end Sys2Proof.Machine
end

