-- ==== Sys2Proof/Machine/Page.lean ====
section
/-! DEFINITION. The binding page: the durable-epoch block, the notice ring, the tenant mailbox and the message window (R407 to R410, R462 to R465, R478, R530 to R532). -/

namespace Sys2Proof.Machine

/-- The binding whose page a host reaches at an index (R462). -/
def pageBinding (s : State) (lp pasid page : Nat) : Option Nat :=
  (s.ten.bindings.find? (fun e => e.2.live && e.2.lp == lp && e.2.pasid == pasid && e.2.page == page)).map (·.1)

/-- The status word of a durable-epoch block (R407). -/
def epochStatus (s : State) : Nat :=
  b2n (s.dev.st == .recovery) + 2 * b2n s.hoard.unclean + 4 * b2n s.hoard.lagging + 8 * b2n (s.ft.mode == .holdover)
    + 16 * b2n s.journal.degraded + 32 * b2n s.journal.absent

/-- The module that owns a binding's slice is this one. -/
def ownsSlice (s : State) (h : Handle) : Bool :=
  match targetLp s (sliceOf s h).target with
  | some n => !isFabric s n
  | none => true

/-- The durable-epoch block of a binding (R407, R410, DEDUCED, assumption 14). -/
def epochBlock (s : State) (i : Nat) : Bytes :=
  let b := bindOf s i
  let d := if ownsSlice s b.slice then s.hoard.durable else s.hoard.fabricDurable
  leBytes 8 d ++ leBytes 8 s.hoard.fabricDurable ++ leBytes 8 (max (epochNow s) b.highEpoch) ++ leBytes 8 (ftOf s.hoard.start)
    ++ leBytes 8 (ftOf s.hoard.durableAt) ++ leBytes 4 s.hoard.period ++ leBytes 4 (epochStatus s)
    ++ leBytes 8 (tget s.ten.rings i).lostWrites ++ leBytes 8 s.hoard.restart

/-- The tenant index whose mailbox a binding's page shows (R530). -/
def mbxIndex (s : State) (i : Nat) : Nat := hIdx (bindOf s i).tenant

/-- Bytes 0x2000 to 0x2FFF of a page: the tenant's mailbox (R530, R531). -/
def mailboxBytes (s : State) (i : Nat) : Bytes :=
  let m := tget s.ten.mbxs (mbxIndex s i)
  memRead m.cells 0 0x780 ++ leBytes 4 (b2n m.db) ++ leBytes 4 (b2n m.done) ++ zeros 120 ++ memRead m.cells 0x800 0x800

/-- The notice ring's bytes (R462, R476). -/
def ringBytes (s : State) (i : Nat) : Bytes :=
  let r := tget s.ten.rings i
  (List.range 128).flatMap (fun k => if r.ring.any (fun e => e.1 == k) then noticeBytes (tget r.ring k) (tget r.ring k).late else zeros 32)

/-- A whole binding page (R462, R463). -/
def pageBytes (s : State) (i : Nat) : Bytes :=
  let r := tget s.ten.rings i
  epochBlock s i ++ ((bindingBytes (handleOf s 1 i) (bindOf s i)).take 56 ++ zeros 8)
    ++ leBytes 4 r.prod.toNat ++ leBytes 4 r.cons.toNat ++ leBytes 4 r.drop.toNat ++ leBytes 4 (b2n (bindOf s i).irq)
    ++ zeros 3952 ++ ringBytes s i ++ mailboxBytes s i ++ zeros 4096

/-- A write of MBX_NTC_CONS: one that would leave more than 128 outstanding is ignored and counted (R464). -/
def writeCons (i : Nat) (v : BitVec 32) (s : State) : State :=
  let r := tget s.ten.rings i
  if (r.prod - v).toNat > 128 then bump .ignCons 0 s
  else modTen (fun t => { t with rings := tset t.rings i { r with cons := v } }) s

/-- Change a tenant mailbox. -/
def modMail (i : Nat) (g : TenMbx → TenMbx) (s : State) : State := modTen (fun t => { t with mbxs := tmod t.mbxs i g }) s

/-- A write of MBX_TEN_DB through a binding's page (R531, R532). -/
def tenDoorbell (i : Nat) (v : BitVec 32) (s : State) : State :=
  let k := mbxIndex s i
  let m := tget s.ten.mbxs k
  if !v.getLsbD 0 then s
  else if m.db || m.done then bumpC .tenIgn k 0 1 {} (modMail k (fun m => { m with ignored := m.ignored + 1 }) s)
  else modCmd (fun c => { c with tenQueue := c.tenQueue ++ [k] }) (modMail k (fun m => { m with db := true, origin := handleOf s 1 i }) s)

/-- A write of MBX_TEN_DONE: clearing it frees the mailbox (R531). -/
def tenDone (i : Nat) (v : BitVec 32) (s : State) : State :=
  if v.getLsbD 0 then modMail (mbxIndex s i) (fun m => { m with done := false }) s else s

/-- One 32-bit write inside a binding page (R462 to R464, R531). -/
def pageWord (i off : Nat) (v : BitVec 32) (s : State) : State :=
  if off = 0x84 then writeCons i v s
  else if off = 0x8C then modBind i (fun b => { b with irq := v.getLsbD 0 }) s
  else if off = 0x2780 then tenDoorbell i v s
  else if off = 0x2784 then tenDone i v s
  else if 0x2000 ≤ off && off < 0x2780 then modMail (mbxIndex s i) (fun m => { m with cells := memWrite m.cells (off - 0x2000) (leBytes 4 v.toNat) }) s
  else s

/-- Answer a page read: a Den request by its completion, a CXL.io request on its link. -/
def answerPage (who : PageReader) (data : Bytes) (s : State) : State :=
  match who with
  | .den f => complete f stOK data 0 s
  | .cxl n tag => cxlSend n (.ioCpl tag true data) s
  | .host => emit (.page data) s

/-- A read inside a binding page: one of the durable-epoch block waits for the binding's earlier posted writes (R410, DEDUCED, assumption 35). -/
def pageRead (i : Nat) (who : PageReader) (off len : Nat) (s : State) : State :=
  if off < 64 && (bindOf s i).posted ≠ 0 then
    modTen (fun t => { t with pageReads := t.pageReads ++ [{ idx := i, who := who, off := off, len := len }] }) s
  else answerPage who (((pageBytes s i).drop off).take len) s

/-- Serve the waiting reads whose binding has no unacknowledged posted write left (R410). -/
def servePageReads (s : State) : State :=
  let ready := s.ten.pageReads.filter (fun r => (bindOf s r.idx).posted == 0)
  let s := modTen (fun t => { t with pageReads := t.pageReads.filter (fun r => (bindOf s r.idx).posted != 0) }) s
  ready.foldl (fun s r => answerPage r.who (((pageBytes s r.idx).drop r.off).take r.len) s) s

/-- Post one notice to its binding's ring, or count it dropped; a lost-write notice adds to Lost writes; a ring that leaves empty notifies its host (R478). -/
def postNotice (n : Notice) (s : State) : State :=
  let i := hIdx n.binding
  match liveBind s n.binding with
  | none => s
  | some b =>
    let r := tget s.ten.rings i
    let lost := b2n (n.why != .refused)
    if (r.prod - r.cons).toNat ≥ 128 then
      let s := modTen (fun t => { t with rings := tset t.rings i { r with drop := if r.drop = 0xFFFFFFFF then r.drop else r.drop + 1, lostWrites := r.lostWrites + lost } }) s
      bumpC .ntcDropped i 0 1 {} s
    else
      let s := modTen (fun t => { t with rings := tset t.rings i { r with ring := tset r.ring (r.prod.toNat % 128) n, prod := r.prod + 1, lostWrites := r.lostWrites + lost } }) s
      let s := bumpC .ntcPosted i 0 1 {} s
      if r.prod == r.cons && b.irq then notifyHost n.binding 0 1 s else s

/-- Close and post the open notices that a test picks (R477). -/
def postOpen (p : Notice → Bool) (s : State) : State :=
  let l := s.ten.open_.filter p
  let s := modTen (fun t => { t with open_ := t.open_.filter (fun n => !p n) }) s
  l.foldl (fun s n => postNotice n s) s

/-- Every queued and every open notice is posted, before the durable epoch advances (R174, R434). -/
def postAll (s : State) : State :=
  let q := s.dur.queued
  postOpen (fun _ => true) (q.foldl (fun s n => postNotice n s) { s with dur := { s.dur with queued := [] } })

end Sys2Proof.Machine
end

