-- ==== Sys2Proof/Machine/Settle.lean ====
section
/-! DEFINITION. The end of a step: links that fell in it are taken down, and a Grave cause that arose in it enters Grave (R126, R178, R655). -/

namespace Sys2Proof.Machine

/-- The state as the Sett's management cores see it: commands run (R17, R655). -/
def settRuns (s : State) : Bool := s.dev.st != .off && s.dev.st != .grave

/-- Move every waiting item of the flash summary to flash (R540). -/
def flashWrite (s : State) : State :=
  let n := s.log.waitRecs.length + s.log.waitSeals.length
  let s := modLog (fun l => { l with flashSeals := (l.waitSeals ++ l.flashSeals).take 2048, flashRecs := (l.waitRecs ++ l.flashRecs).take 16384, waitSeals := [], waitRecs := [] }) s
  bumpC .flashW 0 0 n {} s

/-- Power domains of the data path switch off (R655 step G3). -/
def dataPathOff (s : State) : State :=
  discardMasked { s with pwr := { s.pwr with doms := (List.range 148).foldl (fun t d => tset t d { tget t d with st := .off, target := none, queued := none, ready := 0, masked := true, offAt := some (now s) }) s.pwr.doms } }

/-- Enter Grave (R20, R655, R656): the heartbeat and ALERT_N fall, the first cause is loaded, the data path closes, its domains switch off, and the record is written before the cores halt. -/
def enterGrave (code block : Nat) (s : State) : State :=
  if s.dev.st == .off || s.dev.st == .grave then s
  else
    let t := ftCount s
    let s := { s with hb := { s.hb with running := false, level := false }, pins := { s.pins with alertN := false } }
    let s := if s.grave.valid then s else { s with grave := { s.grave with code := BitVec.ofNat 16 code, block := BitVec.ofNat 8 block, valid := true, time := BitVec.ofNat 64 t } }
    let s := raise { code := code, cls := .grave, block := block } s
    let s := changeState .grave { identity := block, code := code, trigger := 7 } s
    let s := flashWrite s
    let s := modNet (fun x => { x with ports := (List.range 128).foldl (fun t p => tset t p { tget t p with freeze := true, rstLow := true, lpmode := true }) x.ports, lps := x.lps.map (fun e => (e.1, { e.2 with link := .disabled })), tx := [], rx := [], fallen := [] }) s
    let s := { s with dev := { s.dev with graveReq := none }, cmd := { s.cmd with running := [] }, hib := { s.hib with step := 0 } }
    dataPathOff s

/-- Change the epoch state. -/
def modHoard (g : HoardSt → HoardSt) (s : State) : State := { s with hoard := g s.hoard }

/-- A BFLUSH to a Den target (R188, R402). -/
def flushFrame (s : State) (did : Nat) : Frame :=
  sealHdr { opcode := 0x04, cls := clsBM, chan := 4, priv := true, did := BitVec.ofNat 12 did, sid := selfDid s, tag := BitVec.ofNat 16 s.sw.nextId }

/-- Step E3 (R402): BFLUSH to every Den target of this module that received a write and was not flushed since. -/
def sendFlushes (s : State) : State :=
  let dids := s.dur.targets
  let s := { s with dur := { s.dur with targets := [] } }
  dids.foldl (fun s d =>
    let e := routeEntry s d
    let n := rLp e
    if rKind e == 1 && isDevice s n && isDen s n then
      (if takesNew s n then let f := flushFrame s d; raiseX .sett (.lp n) f (frameLen f) 0 s
       else flushLost n .portDown s)
    else s) s

/-- A flush whose write-backs have completed sends its BFLUSHes (R402 step E3). -/
def flushProgress (s : State) : State :=
  match s.hoard.flushing with
  | some f => if f.stage = 2 && !writesLeft s then sendFlushes (modHoard (fun h => { h with flushing := some { f with stage := 3 } }) s) else s
  | none => s

/-- Persistent dirty lines are left in the Drey. -/
def persistentDirty (s : State) : Bool := (List.range 4).any (fun k => (dreyOf s k).ways.any (fun e => e.2.v && e.2.d && e.2.p))

/-- The write-back of Drain and of `device.reset` goes on (R19, R586): every dirty persistent line first, then the flush of every Den target that was written. -/
def drainProgress (s : State) : State :=
  if s.dev.drainStep = 0 || writesLeft s then s
  else if persistentDirty s then
    let (n, s) := flushDrey (fun _ w => w.p) s
    { s with hib := { s.hib with lines := s.hib.lines + n } }
  else if s.dur.targets.isEmpty then s else sendFlushes s

/-- Eye scans and surveys whose time is over release their engine (R74, R524). -/
def endScans (s : State) : State :=
  let due := (s.ten.sessions.filter (fun e => e.2.live && (match e.2.res with | .eyescan _ => true | _ => false) && decide (now s ≥ e.2.until_))).map (·.1)
  due.foldl (fun s i => endSession i s) s

/-- The hold-up time that the current dirty data needs, in µs, rounded up (R415, R419, R420). -/
def holdEstimate (s : State) : Nat :=
  let dirty := (List.range 4).flatMap (fun k => ((dreyOf s k).ways.filter (fun e => e.2.v && e.2.d && e.2.p)).map (fun e => dreyLine (e.1 / 16) e.2.tag))
  let lps := dirty.filterMap (fun l => (sliceAt s (l * 64)).bind (fun x => targetLp s x.2.target))
  let hbm := (dirty.length * 64 + 4372) / 4373
  let port := lps.dedup.foldl (fun m n => max m ((12 * 64 * lps.count n + gateRate s n - 1) / gateRate s n)) 0
  (11 * (100000 + max hbm port + s.dur.tDev + 2000000) + 9999) / 10000

/-- Compare the estimate with the declared hold-up; a board that declares none is not compared (R420, DEDUCED, assumption 75). -/
def holdCheck (s : State) : State :=
  if s.dur.holdup = 0 then s
  else
    let beyond := decide (holdEstimate s > s.dur.holdup)
    let was := s.dur.exceeded
    let s := { s with dur := { s.dur with exceeded := beyond } }
    if beyond && !was then raise { code := 0x0802, cls := .degraded, block := 225, arg := holdEstimate s } s else s

/-- A target whose flush failed (R406): its port goes out of service, and every binding that holds a persistent slice on it gets a lost-write notice. -/
def flushFailed (n epoch : Nat) (s : State) : State :=
  let s := bump .flushFail 0 (fall n 1 s)
  let hit := s.ten.bindings.filter (fun e => e.2.live && (let r := sliceOf s e.2.slice; r.persistent && targetLp s r.target == some n))
  hit.foldl (fun s e => addNotice (handleOf s 1 e.1) .flushFailed 0 epoch s) s

/-- The flushes that failed in this step (R406); Hibernate and Drain keep their outcomes for the record (R428). -/
def flushFailures (s : State) : State :=
  match s.dur.failedTo with
  | [] => s
  | ns =>
    let e := (s.hoard.flushing.map (·.epoch)).getD s.hoard.epoch
    let keep := s.dev.st == .hibernate || s.dev.drainStep != 0
    let s := settleLinks 512 (ns.foldl (fun s n => flushFailed n.1 e s) { s with hib := { s.hib with failed := if keep then s.hib.failed ++ ns else s.hib.failed } })
    { s with dur := { s.dur with failedTo := s.dur.failedTo.filter (fun x => !ns.any (fun y => y.1 == x.1)) } }

/-- A slice's write that waits for a port which is down ends there (R129). -/
def deadWrite (s : State) (x : XReq) : Bool :=
  match x.src, x.dst with
  | .slice _, .lp n => x.f.cls == clsBM && x.f.opcode == 0x02 && !takesNew s n
  | _, _ => false

/-- End the writes of slices towards ports that are down (R129). -/
def endDeadWrites (s : State) : State :=
  match s.sw.reqs.filter (deadWrite s) with
  | [] => s
  | xs => xs.foldl (fun s x => memoryLost (homeSlice (lineOf (fAddr x.f))) (lineOf (fAddr x.f)) stUnavail s) (takeReqs (fun x => xs.any (fun y => y.id == x.id)) s)

/-- Everything that a step set off: links first, then writes and flushes that cannot reach their target, then a flush whose write-backs are done, the hold-up estimate, then the commands whose waits are over, then Grave. -/
def settle (s : State) : State :=
  let s := flushProgress (failStarts (flushFailures (endDeadWrites (settleLinks 512 s))))
  let s := servePageReads (pokeCommands (endScans (holdCheck (drainProgress s))))
  match s.dev.graveReq with
  | some (c, b) => enterGrave c b (modDev (fun d => { d with graveReq := none }) s)
  | none => s

/-- The answer of a command: its effect, settled (DEDUCED, assumption 34). -/
def finishStep (s : State) : Host.Outcome State Fault Refusal := .next (settle s)

end Sys2Proof.Machine
end

