-- ==== Sys2Proof/Machine/Command.lean ====
section
/-! DEFINITION. The frame of every Ubind command: the ordered checks, staging under a lease, execution and completion (R6, R9 to R11, R486, R487, R496, R497, R509 to R516). -/

namespace Sys2Proof.Machine

/-- What a command's execution answers. -/
structure CmdOut where
  status : Status := .ok
  related : Handle := 0
  detail : Nat := 0
  payload : Bytes := []
  h1 : Handle := 0
  h2 : Handle := 0
  waits : List Wait := []

/-- What a command's execution sees of its request: the request, and the handle that a staged creation reserved. -/
structure CmdCtx where
  q : Req
  reserved : Handle := 0

/-- One Ubind command: its opcode and, in the order of R513, what its checks look at; then its execution. `args` pairs the byte offset of a field with whether the field is well formed; `handles` gives each handle, its required types and whether null is permitted; `names` the objects that it changes; `keeps` the statuses that leave an effect (R515); `creates` the type it creates; `deniedDetail` the Detail of a refusal with DENIED. -/
structure CmdSpec where
  op : Nat
  who : State → Route → Bytes → Bool
  args : State → Bytes → List (Nat × Bool)
  handles : Bytes → List (Handle × List Nat × Bool) := fun _ => []
  names : State → Bytes → List Handle := fun _ _ => []
  state : State → Route → Bytes → Bool := fun _ _ _ => true
  held : State → Route → Bytes → Option Handle := fun _ _ _ => none
  cap : State → Route → Bytes → Bool := fun _ _ _ => true
  reads : Bytes → Bool := fun _ => false
  keeps : Status → Bool := fun _ => false
  creates : Option Nat := none
  deniedDetail : Route → Bytes → Nat := fun _ _ => 0
  run : CmdCtx → Bytes → State → CmdOut × State

/-- The fabric manager. -/
def isFm : Route → Bool
  | .pe _ => true
  | _ => false

/-- The board management controller. -/
def isBmc : Route → Bool
  | .i3c _ _ => true
  | _ => false

/-- The firmware. -/
def isFw : Route → Bool
  | .firmware _ => true
  | _ => false

/-- Origins: the fabric manager only. -/
def fmOnly (_ : State) (r : Route) (_ : Bytes) : Bool := isFm r

/-- Origins: the fabric manager and the board management controller. -/
def fmBmc (_ : State) (r : Route) (_ : Bytes) : Bool := isFm r || isBmc r

/-- The tenant of a tenant route. -/
def routeTenant (s : State) : Route → Option Handle
  | .tenant b => (liveBind s b).map (·.tenant)
  | _ => none

/-- The owner of an object: its tenant (R443, R447, R479, R486). -/
def ownerOfObj (s : State) (h : Handle) : Handle :=
  match hType h with
  | 1 => (bindOf s (hIdx h)).tenant
  | 2 => (sliceOf s h).owner
  | 7 => (tget s.ten.ruleSets (hIdx h)).owner
  | 8 => h
  | _ => 0

/-- A tenant's own object; a handle that names nothing passes here and fails its own check later (R493, R513). -/
def ownObj (s : State) (r : Route) (h : Handle) : Bool :=
  match routeTenant s r with
  | some t => !liveHandle s h || ownerOfObj s h == t
  | none => false

/-- A payload of exactly `n` bytes (DEDUCED, assumption 10). -/
def lenIs (p : Bytes) (n : Nat) : Nat × Bool := (8, p.length == n)

/-- The payload field at an offset is well formed when `ok` holds. -/
def fld (off : Nat) (ok : Bool) : Nat × Bool := (64 + off, ok)

/-- The reserved field of `n` bytes at an offset is 0 (R6). -/
def rsv (p : Bytes) (off n : Nat) : Nat × Bool := (64 + off, fieldAt p off n == 0)

/-- The first field found wrong (R516). -/
def firstBad (l : List (Nat × Bool)) : Option Nat := (l.find? (fun e => !e.2)).map (·.1)

/-- A handle names something that is there: shapers and schedules have fixed indices (R252, R270), every other type lives and dies. R11 speaks of a live object's generation: a valid type and index at which no object lives is stale too (DESIGN CHOICE, assumption 126). -/
def handleThere (s : State) (h : Handle) : Bool :=
  match hType h with
  | 4 => if hIdx h < 65536 then (bindOf s (hIdx h)).live && hGen h == (objOf s 1 (hIdx h)).gen.toNat else hGen h == 0
  | 5 => hGen h == 0
  | _ => liveHandle s h

/-- What a handle field's check finds (R9 to R11). -/
def handleStatus (s : State) (h : Handle) (types : List Nat) (nullOk : Bool) : Option Status :=
  if h = 0 then (if nullOk then none else some .badHandle)
  else if hType h == 0 || hType h ≥ 11 || !types.contains (hType h) || hIdx h ≥ typeCap (hType h) then some .badHandle
  else if !handleThere s h then some .staleHandle
  else none

/-- The first handle check that fails. -/
def firstHandle (s : State) (l : List (Handle × List Nat × Bool)) : Option Status :=
  (l.findSome? (fun e => handleStatus s e.1 e.2.1 e.2.2))

/-- A lease belongs to a route's origin: a tenant is one origin whichever of its pages it uses (R496). -/
def leaseMine (s : State) (l : Lease) (r : Route) : Bool :=
  match routeTenant s r with
  | some t => l.tenant == t
  | none => l.tenant == 0 && sameOrigin l.owner r

/-- The lease of another origin that names an object (R486). -/
def lockedBy (s : State) (r : Route) (hs : List Handle) : Option Handle :=
  (s.ten.leases.find? (fun e => e.2.live && !leaseMine s e.2 r && hs.any (fun h => h != 0 && e.2.objects.contains h))).map (fun e => handleOf s 10 e.1)

/-- The microseconds until an origin's rate admits another command, 0 when it does now (R439, R497, R516): at most `rate` commands in any millisecond. -/
def rateWait (times : List Nat) (rate t : Nat) : Nat :=
  match times[rate - 1]? with
  | none => 0
  | some x => if t ≥ x + 1000000 then 0 else (x + 1000000 - t + 999) / 1000

/-- The wait that an origin's rate imposes now. -/
def originWait (s : State) (r : Route) : Nat :=
  match r with
  | .i3c _ _ => rateWait s.i3c.times 50 (now s)
  | .tenant b => match liveBind s b with
    | some x => let t := tenantOf s x.tenant; rateWait t.times t.rate (now s)
    | none => 0
  | _ => 0

/-- Count a command against its origin's rate. -/
def countRate (r : Route) (s : State) : State :=
  match r with
  | .i3c _ _ => { s with i3c := { s.i3c with times := (now s :: s.i3c.times).take 50 } }
  | .tenant b => match liveBind s b with
    | some x => modTen (fun t => { t with tenants := tmod t.tenants (hIdx x.tenant) (fun y => { y with times := (now s :: y.times).take 1000 }) }) s
    | none => s
  | _ => s

/-- Commands run: the runtime does, the device is not in Hibernate, Off or Grave, no takeover pauses management, and no firmware stall stands (R22, R504, R544, R573, R667, DEDUCED, assumption 36). -/
def commandsRun (s : State) : Bool := fwRuns s && s.dev.st != .hibernate && !s.sec.paused && s.hb.stallAt.isNone && s.hb.stopAt.isNone

/-- The commands that a device state serves (R17): in Boot the read-only `device` and `log` commands; in Test and Drain those of the fabric manager and the board management controller. -/
def stateServes (s : State) (c : CmdSpec) (r : Route) (p : Bytes) : Bool :=
  match s.dev.st with
  | .boot => c.reads p && (c.op / 256 == 1 || c.op / 256 == 0x0B)
  | .test | .drain => Route.cls r != 2
  | _ => true

/-- End a command with a status and no effect. -/
def refuseCmd (op : Nat) (q : Req) (st : Status) (detail : Nat) (related : Handle) (s : State) : State :=
  completeCmd { req := q, opcode := op, accepted := ftCount s, waits := [], status := st, detail := detail, related := related } s

/-- What checks 3 and 5 to 10 of R513 decide: the status, Detail and Related handle of the first that fails. -/
def checkCmd (c : CmdSpec) (q : Req) (p : Bytes) (s : State) : Option (Status × Nat × Handle) :=
  if !c.who s q.route p then some (.denied, c.deniedDetail q.route p, 0)
  else if originWait s q.route ≠ 0 then some (.busy, originWait s q.route, 0)
  else match firstBad ((3, decide (q.flags.toNat < 2)) :: c.args s p) with
    | some off => some (.invalidArg, off, 0)
    | none => match firstHandle s ((q.lease, [10], true) :: c.handles p) with
      | some st => some (st, 0, 0)
      | none => match lockedBy s q.route (c.names s p) with
        | some h => some (.locked, 0, h)
        | none =>
          if q.lease ≠ 0 && !leaseMine s (tget s.ten.leases (hIdx q.lease)) q.route then some (.locked, 0, q.lease)
          else if !stateServes s c q.route p || !c.state s q.route p then some (.badState, 0, 0)
          else match c.held s q.route p with
            | some h => some (.conflict, 0, h)
            | none => if c.cap s q.route p then none else some (.noResource, 0, 0)
/-- A command names a lease: its term starts anew (R488). -/
def nameLease (h : Handle) (s : State) : State :=
  if h = 0 then s else modTen (fun t => { t with leases := tmod t.leases (hIdx h) (fun l => { l with named := now s }) }) s

/-- Stage a command under its lease (R487): a staged creation reserves a handle. -/
def stageCmd (c : CmdSpec) (q : Req) (p : Bytes) (s : State) : State :=
  if (tget s.ten.leases (hIdx q.lease)).committing then refuseCmd c.op q .busy 0 0 s
  else
    let add := fun (h : Handle) (s : State) =>
      let s := modTen (fun t => { t with leases := tmod t.leases (hIdx q.lease) (fun l => { l with staged := l.staged ++ [{ req := q, opcode := c.op, payload := p, reserved := h }], named := now s }) }) s
      completeCmd { req := q, opcode := c.op, accepted := ftCount s, waits := [], staged := true, related := h, h1 := q.lease, h2 := h } s
    match c.creates with
    | none => add 0 s
    | some ty => match lowestFree s ty with
      | none => refuseCmd c.op q .noResource 0 0 s
      | some i => let (h, s) := takeIndex ty i s; add h s

/-- Carry a command out once its checks passed: a status other than OK and PARTIAL leaves no effect but what R515 lists. -/
def executeCmd (c : CmdSpec) (x : CmdCtx) (p : Bytes) (s : State) : CmdOut × State :=
  let (o, s1) := c.run x p s
  if o.status == .ok || o.status == .partialDone || c.keeps o.status then (o, s1) else (o, s)

/-- A Ubind command from its checks to its completion, or to the list of running commands (R509, R513). -/
def runCmd (c : CmdSpec) (q : Req) (p : Bytes) (s : State) : State :=
  if !commandsRun s || (c.op == 0x0103 && pfailHeld s) then s
  else match checkCmd c q p s with
    | some (st, d, h) =>
      let s := if st = .busy then bump .rateRef (Route.cls q.route) s else countRate q.route s
      refuseCmd c.op q st d h s
    | none =>
      let s := countRate q.route s
      if q.deadline ≠ 0 && decide (q.deadline.toNat < ftCount s) then refuseCmd c.op q .timeout 0 0 s
      else
        let s := if q.deadline ≠ 0 && q.deadline.toNat == ftCount s then bump .deadlineNear 0 s else s
        if q.lease ≠ 0 then stageCmd c q p (nameLease q.lease s)
        else
          let t := ftCount s
          let (o, s) := executeCmd c { q := q } p s
          launch { req := q, opcode := c.op, accepted := t, waits := o.waits, status := o.status, related := o.related, detail := o.detail, payload := o.payload, h1 := o.h1, h2 := o.h2, reads := c.reads p } s

/-- A command that completes with BAD_STATE in Hibernate, for an origin that may issue it (R370, R373, R437). -/
def notInHibernate (op : Nat) (may : Bool) (q : Req) (go : State → State) (s : State) : State :=
  if s.dev.st == .hibernate && may then refuseCmd op q .badState 0 0 s else go s

/-- A new object's handle: the one that staging reserved, or the lowest free index of its type. -/
def newObject (ty : Nat) (x : CmdCtx) (s : State) : Option Handle × State :=
  if x.reserved ≠ 0 then (some x.reserved, s)
  else match lowestFree s ty with
    | none => (none, s)
    | some i => let (h, s) := takeIndex ty i s; (some h, s)

end Sys2Proof.Machine
end

