-- ==== Sys2Proof/Machine/Bind.lean ====
section
/-! DEFINITION. Tenants, slices of memory, bindings and their modes: the `bind` and `slice` commands (R438 to R461, R519, R520). -/

namespace Sys2Proof.Machine

/-- The checks of a tenant record as a payload (R439, R519). -/
def tenantArgs (create : Bool) (_ : State) (p : Bytes) : List (Nat × Bool) :=
  [lenIs p 32, fld 0 (!create || fieldAt p 0 4 == 0), fld 4 (decide (fieldAt p 4 1 < 8)), fld 5 (decide (fieldAt p 5 1 < 2)), fld 6 (decide (fieldAt p 6 2 ≤ 4096)), fld 8 (decide (fieldAt p 8 2 ≤ 4096)), fld 10 (decide (fieldAt p 10 1 ≤ 64)), fld 11 (decide (fieldAt p 11 1 ≤ 4)), fld 12 (decide (fieldAt p 12 2 ≤ 1000)), rsv p 14 2, rsv p 16 4, rsv p 20 4, rsv p 24 8]

/-- A tenant as a payload gives it: a Binding quota or Mailbox rate of 0 selects its default (R439). -/
def tenantFrom (old : Tenant) (p : Bytes) : Tenant :=
  { old with live := true, prio := fieldAt p 4 1, strict := fieldAt p 5 1 == 1, bindQuota := if fieldAt p 6 2 = 0 then 64 else fieldAt p 6 2, ruleQuota := fieldAt p 8 2, setQuota := fieldAt p 10 1, leaseQuota := fieldAt p 11 1, rate := if fieldAt p 12 2 = 0 then 100 else fieldAt p 12 2 }

/-- Write the delta of an object and answer with its record (R425, R426). -/
def withDelta (op : Nat) (h : Handle) (o : DeltaObj) (payload : Bytes) (created : Bool) (s : State) : CmdOut × State :=
  let (seq, s) := jDelta op o s
  ({ related := if created then h else 0, payload := payload, h1 := h, waits := [.delta seq] }, s)

/-- Store a tenant. -/
def setTenant (i : Nat) (t : Tenant) (s : State) : State := modTen (fun x => { x with tenants := tset x.tenants i t }) s

/-- `bind.tenant_create` (R438, R439, R519). -/
def specTenantCreate : CmdSpec :=
  { op := 0x0301, who := fmOnly, args := tenantArgs true, cap := fun s _ _ => (lowestFree s 8).isSome, creates := some 8, run := fun x p s =>
      match newObject 8 x s with
      | (none, s) => ({ status := .noResource }, s)
      | (some h, s) =>
        let t := tenantFrom default p
        let s := setTenant (hIdx h) t s
        withDelta 0x0301 h (.tenant (hIdx h) t (objOf s 8 (hIdx h))) (tenantBytes s h t) true s }

/-- `bind.tenant_set` (R439, R440): no command clears the strict flag. -/
def specTenantSet : CmdSpec :=
  { op := 0x0302, who := fmOnly, args := tenantArgs false, handles := fun p => [(handleAt p 0, [8], false)], names := fun _ p => [handleAt p 0], run := fun _ p s =>
      let h := handleAt p 0
      let old := tenantOf s h
      if old.strict && fieldAt p 5 1 == 0 then ({ status := .denied, h1 := h }, s)
      else
        let t := tenantFrom old p
        let s := setTenant (hIdx h) t s
        withDelta 0x0302 h (.tenant (hIdx h) t (objOf s 8 (hIdx h))) (tenantBytes s h t) false s }

/-- A payload that is one handle of a type (R519, DEDUCED, assumption 12). -/
def oneHandle (p : Bytes) (ty : Nat) : List (Handle × List Nat × Bool) := [(handleAt p 0, [ty], false)]

/-- `bind.tenant_destroy` (R442). -/
def specTenantDestroy : CmdSpec :=
  { op := 0x0303, who := fmOnly, args := fun _ p => [lenIs p 4], handles := fun p => oneHandle p 8, names := fun _ p => [handleAt p 0], state := fun s _ p =>
      let h := handleAt p 0
      bindsOfTenant s h == 0 && !s.ten.ruleSets.any (fun e => e.2.live && e.2.owner == h) && !s.ten.leases.any (fun e => e.2.live && e.2.tenant == h),
    run := fun _ p s =>
      let h := handleAt p 0
      let t := { tenantOf s h with live := false }
      let s := freeIndex 8 (hIdx h) (modTen (fun x => { x with mbxs := tset x.mbxs (hIdx h) default }) (setTenant (hIdx h) default s))
      withDelta 0x0303 h (.tenant (hIdx h) t (objOf s 8 (hIdx h))) [] false s }

/-- `bind.tenant_read` (R439, R493, R519). -/
def specTenantRead : CmdSpec :=
  { op := 0x0304, who := fun s r p => isFm r || isBmc r || ownObj s r (handleAt p 0), args := fun _ p => [lenIs p 4], handles := fun p => oneHandle p 8, reads := fun _ => true, run := fun _ p s => ({ payload := tenantBytes s (handleAt p 0) (tenantOf s (handleAt p 0)), h1 := handleAt p 0 }, s) }

/-- A range lies within one decoded range of a target (R444): a Den target decodes the whole fabric address space (DESIGN CHOICE, assumption 11). -/
def decoded (s : State) (target base len : Nat) : Bool :=
  match targetLp s target with
  | some n => if isCxl s n && isDevice s n then Config.hdmDecoded target base len else decide (base + len ≤ 2 ^ 52)
  | none => false

/-- The target's device-facing port is on this device (R444). -/
def targetHere (s : State) (target : Nat) : Bool :=
  match targetLp s target with
  | some n => isDevice s n
  | none => false

/-- The checks of a slice record as a payload (R443 to R445, R519, DEDUCED, assumption 69). -/
def sliceArgs (create : Bool) (s : State) (p : Bytes) : List (Nat × Bool) :=
  let h := handleAt p 0
  let old := sliceOf s h
  let same := fun (v w : Nat) => create || !liveHandle s h || v == w
  let base := fieldAt p 8 8
  let len := fieldAt p 16 8
  [lenIs p 32, fld 0 (!create || fieldAt p 0 4 == 0), fld 8 (base % 4096 == 0 && decide (base < 2 ^ 52) && same base old.base && (!create || decoded s (fieldAt p 24 2) base len)), fld 16 (len % 4096 == 0 && decide (4096 ≤ len) && same len old.len), fld 24 (decide (fieldAt p 24 2 < 4096) && same (fieldAt p 24 2) old.target), fld 26 (decide (fieldAt p 26 1 < 8) && (!bitOf (fieldAt p 26 1) 0 || targetHere s (fieldAt p 24 2))), rsv p 27 1, rsv p 28 4]

/-- A slice as a payload gives it. -/
def sliceFrom (old : SliceRec) (p : Bytes) : SliceRec :=
  let a := fieldAt p 26 1
  { old with live := true, owner := handleAt p 4, base := fieldAt p 8 8, len := fieldAt p 16 8, target := fieldAt p 24 2, coherent := bitOf a 0, persistent := bitOf a 1, locked := bitOf a 2 }

/-- Store a slice. -/
def setSlice (i : Nat) (r : SliceRec) (s : State) : State := modTen (fun x => { x with slices := tset x.slices i r }) s

/-- A slice on the same target that a range overlaps (R444). -/
def sliceOverlap (s : State) (target base len : Nat) : Option Handle :=
  (s.ten.slices.find? (fun e => e.2.live && e.2.target == target && decide (e.2.base < base + len) && decide (base < e.2.base + e.2.len))).map (fun e => handleOf s 2 e.1)

/-- `slice.create` (R443, R444). -/
def specSliceCreate : CmdSpec :=
  { op := 0x0401, who := fmOnly, args := sliceArgs true, handles := fun p => [(handleAt p 4, [8], true)], names := fun _ p => [handleAt p 4], held := fun s _ p => sliceOverlap s (fieldAt p 24 2) (fieldAt p 8 8) (fieldAt p 16 8), cap := fun s _ _ => (lowestFree s 2).isSome, creates := some 2, run := fun x p s =>
      match newObject 2 x s with
      | (none, s) => ({ status := .noResource }, s)
      | (some h, s) =>
        let r := sliceFrom default p
        let s := setSlice (hIdx h) r s
        withDelta 0x0401 h (.slice (hIdx h) r (objOf s 2 (hIdx h))) (sliceBytes s h r) true s }

/-- `slice.set` (R445): owner and attributes, only while no binding of the slice is live. -/
def specSliceSet : CmdSpec :=
  { op := 0x0402, who := fmOnly, args := sliceArgs false, handles := fun p => [(handleAt p 0, [2], false), (handleAt p 4, [8], true)], names := fun _ p => [handleAt p 0, handleAt p 4], state := fun s _ p =>
      let h := handleAt p 0
      let old := sliceOf s h
      let new := sliceFrom old p
      bindsOfSlice s h == 0 || (new.owner == old.owner && new.coherent == old.coherent && new.persistent == old.persistent && new.locked == old.locked),
    run := fun _ p s =>
      let h := handleAt p 0
      let r := sliceFrom (sliceOf s h) p
      let s := setSlice (hIdx h) r s
      withDelta 0x0402 h (.slice (hIdx h) r (objOf s 2 (hIdx h))) (sliceBytes s h r) false s }

/-- Write back and invalidate every Drey line of a slice (R446). -/
def flushSlice (r : SliceRec) (s : State) : State :=
  let inIt := fun (key : Nat) (w : DreyWay) => let a := dreyLine (key / 16) w.tag * 64; decide (r.base ≤ a) && decide (a < r.base + r.len)
  let (_, s) := flushDrey inIt s
  (List.range 4).foldl (fun s k => dropWays k inIt s) s

/-- `slice.destroy` (R446). -/
def specSliceDestroy : CmdSpec :=
  { op := 0x0403, who := fmOnly, args := fun _ p => [lenIs p 4], handles := fun p => oneHandle p 2, names := fun _ p => [handleAt p 0], state := fun s _ p => bindsOfSlice s (handleAt p 0) == 0, run := fun _ p s =>
      let h := handleAt p 0
      let r := sliceOf s h
      let s := flushSlice r s
      let s := freeIndex 2 (hIdx h) (setSlice (hIdx h) default s)
      withDelta 0x0403 h (.slice (hIdx h) { r with live := false } (objOf s 2 (hIdx h))) [] false s }

/-- `slice.read` (R443). -/
def specSliceRead : CmdSpec :=
  { op := 0x0404, who := fun s r p => isFm r || isBmc r || ownObj s r (handleAt p 0), args := fun _ p => [lenIs p 4], handles := fun p => oneHandle p 2, reads := fun _ => true, run := fun _ p s => ({ payload := sliceBytes s (handleAt p 0) (sliceOf s (handleAt p 0)), h1 := handleAt p 0 }, s) }

/-- The unit that window bounds are multiples of (R448). -/
def windowUnit (s : State) : Nat := if s.ten.mediated then 2097152 else 4096

/-- The checks of a binding record as the payload of `bind.create` (R447, R448, R519). -/
def bindArgs (s : State) (p : Bytes) : List (Nat × Bool) :=
  let lp := fieldAt p 12 1
  let wb := fieldAt p 16 8
  let len := fieldAt p 24 8
  let off := fieldAt p 32 8
  let u := windowUnit s
  let sl := handleAt p 8
  let cxl := isCxl s lp
  [lenIs p 56, fld 0 (fieldAt p 0 4 == 0), fld 12 (lpExists s lp && isHost s lp), fld 13 (decide (fieldAt p 13 3 < 2 ^ 20) && (!cxl || fieldAt p 13 3 == 0)), fld 16 (wb % u == 0 && decide (wb < 2 ^ 52)), fld 24 (len != 0 && len % u == 0 && decide (wb + len ≤ 2 ^ 52)), fld 32 (off % u == 0 && (!liveHandle s sl || decide (off + len ≤ (sliceOf s sl).len))), fld 40 (cxl || fieldAt p 40 8 == 0), fld 48 (fieldAt p 48 2 / 4096 % 8 == 0), rsv p 50 2, fld 52 (decide (fieldAt p 52 1 < 2)), rsv p 53 3]

/-- A binding as a payload gives it. -/
def bindFrom (p : Bytes) (page epoch : Nat) : Binding :=
  { live := true, tenant := handleAt p 4, slice := handleAt p 8, lp := fieldAt p 12 1, pasid := fieldAt p 13 3, wbase := fieldAt p 16 8, len := fieldAt p 24 8, off := fieldAt p 32 8, recv := fieldAt p 40 8, peer := fieldAt p 48 2, page := page, irq := bitOf (fieldAt p 52 1) 0, lastEpoch := epoch }

/-- A binding of the same context whose window a range overlaps (R449): one under destruction has left the tables in step B1 (R455). -/
def windowOverlap (s : State) (lp pasid wb len : Nat) : Option Handle :=
  (s.ten.bindings.find? (fun e => e.2.live && e.2.step == 0 && e.2.lp == lp && e.2.pasid == pasid && decide (e.2.wbase < wb + len) && decide (wb < e.2.wbase + e.2.len))).map (fun e => handleOf s 1 e.1)

/-- The contexts of an I/O die: its distinct pairs of logical port and PASID (R449). -/
def contextsOf (s : State) (die : Nat) : List (Nat × Nat) :=
  ((s.ten.bindings.filter (fun e => e.2.live && e.2.step == 0 && dieOf e.2.lp == die)).map (fun e => (e.2.lp, e.2.pasid))).dedup

/-- The limits of slice mode (R457): blocks of 256 contexts per die within 64 blocks, 16 windows in a context, 64 host-facing logical ports with bindings. -/
def sliceModeFits (s : State) (lp pasid : Nat) : Bool :=
  let blocks := (List.range 8).foldl (fun n d =>
    let c := contextsOf s d
    let c := if d == dieOf lp && !c.contains (lp, pasid) then (lp, pasid) :: c else c
    n + (c.length + 255) / 256) 0
  let windows := (s.ten.bindings.filter (fun e => e.2.live && e.2.step == 0 && e.2.lp == lp && e.2.pasid == pasid)).length
  let lps := (lp :: (s.ten.bindings.filter (fun e => e.2.live)).map (fun e => e.2.lp)).dedup
  decide (blocks ≤ 64) && decide (windows < 16) && decide (lps.length ≤ 64)

/-- The lowest free binding page of a host-facing logical port (R438, R462, DESIGN CHOICE, assumption 8). -/
def freePage (s : State) (lp : Nat) : Option Nat :=
  firstBelow 1024 (fun k => !s.ten.bindings.any (fun e => e.2.live && e.2.lp == lp && e.2.page == k))

/-- The bucket of a mediated translation (R459). -/
def xlatBucket (lp pasid hg : Nat) : Nat :=
  (crc32c (leBytes 1 lp ++ leBytes 3 pasid ++ leBytes 4 hg)).toNat % 2 ^ 24

/-- Enter a window's translations, one for each 2 MiB, each in the lowest-numbered invalid entry of its bucket (R459); none when a bucket is full. -/
def xlatAdd (lp pasid wb fa idx : Nat) : Nat → Tab XlatEntry → Option (Tab XlatEntry)
  | 0, t => some t
  | n + 1, t =>
    let hg := (wb / 2097152 + n) % 2 ^ 31
    let b := xlatBucket lp pasid hg
    match firstBelow 16 (fun k => !(tget t (16 * b + k)).v) with
    | none => none
    | some k => xlatAdd lp pasid wb fa idx n (tset t (16 * b + k) { lp := lp, pasid := pasid, hg := hg, v := true, bind := idx, fg := fa / 2097152 + n })

/-- The translations that a new binding needs. -/
def xlatFor (s : State) (p : Bytes) (idx : Nat) : Option (Tab XlatEntry) :=
  xlatAdd (fieldAt p 12 1) (fieldAt p 13 3) (fieldAt p 16 8) ((sliceOf s (handleAt p 8)).base + fieldAt p 32 8) idx (fieldAt p 24 8 / 2097152) s.ten.xlat

/-- The capacities and quotas of `bind.create` (R438, R441, R453, R457, R459). -/
def bindFits (s : State) (p : Bytes) : Bool :=
  let lp := fieldAt p 12 1
  let t := handleAt p 4
  decide (bindsOfTenant s t < (tenantOf s t).bindQuota) && (lowestFree s 1).isSome && (freePage s lp).isSome
    && (if s.ten.mediated then (xlatFor s p 0).isSome else sliceModeFits s lp (fieldAt p 13 3))

/-- Make a binding (R447, R459, R463): its page, its empty notice ring, its translations in mediated mode, its delta. -/
def makeBinding (op : Nat) (x : CmdCtx) (p : Bytes) (s : State) : CmdOut × State :=
  match newObject 1 x s with
  | (none, s) => ({ status := .noResource }, s)
  | (some h, s) =>
    let i := hIdx h
    let b := bindFrom p ((freePage s (fieldAt p 12 1)).getD 0) s.hoard.durable
    let s := if s.ten.mediated then (match xlatFor s p i with
        | some t => modTen (fun y => { y with xlat := t }) s
        | none => s) else s
    let s := modTen (fun y => { y with bindings := tset y.bindings i b, rings := tset y.rings i default }) s
    withDelta op h (.binding i b (objOf s 1 i)) (bindingBytes h b) true s

/-- `bind.create` is granted by state (R454): not in Recovery, nor in Test. -/
def bindState (s : State) (_ : Route) (_ : Bytes) : Bool := s.dev.st != .recovery && s.dev.st != .test

/-- `bind.create` (R447 to R454, R457 to R459): a tenant's in mediated mode becomes a binding request event. -/
def specBindCreate : CmdSpec :=
  { op := 0x0310, who := fun s r p => isFm r || (match r with
      | .tenant b => match liveBind s b with
        | some x => handleAt p 4 == x.tenant && (!liveHandle s (handleAt p 8) || (sliceOf s (handleAt p 8)).owner == x.tenant) && fieldAt p 12 1 == x.lp && fieldAt p 13 3 == x.pasid
        | none => false
      | _ => false),
    args := bindArgs, handles := fun p => [(handleAt p 4, [8], false), (handleAt p 8, [2], false)], names := fun _ p => [handleAt p 4, handleAt p 8],
    state := bindState, held := fun s _ p => windowOverlap s (fieldAt p 12 1) (fieldAt p 13 3) (fieldAt p 16 8) (fieldAt p 24 8),
    cap := fun s _ p => bindFits s p, creates := some 1,
    run := fun x p s =>
      if s.ten.mediated && Route.cls x.q.route == 2 then
        let ev := s.log.nextSeq
        let s := raise { code := 0x03FF, cls := .notice, block := 226, h1 := handleAt p 4, h2 := handleAt p 8, detail := 1 } s
        let s := modTen (fun t => { t with medReqs := t.medReqs ++ [{ ev := ev, tenant := handleAt p 4, deadline := now s + 1000000000, payload := p }] }) s
        ({ h1 := handleAt p 4, waits := [.mediated ev] }, s)
      else makeBinding 0x0310 x p s }

/-- Change the running command that waits for a mediated request. -/
def modMediated (ev : Nat) (g : Running → Running) (s : State) : State :=
  modCmd (fun c => { c with running := c.running.map (fun r => if r.waits == [Wait.mediated ev] then g r else r) }) s

/-- The open mediated request of an event. -/
def medReqOf (s : State) (ev : Nat) : Option MedReq := s.ten.medReqs.find? (fun m => m.ev == ev && m.open_)

/-- Close a mediated request. -/
def closeMed (ev : Nat) (s : State) : State := modTen (fun t => { t with medReqs := t.medReqs.filter (fun m => m.ev != ev) }) s

/-- `bind.approve` (R454, R458, R495): makes the binding as requested, for the tenant's command too. -/
def specBindApprove : CmdSpec :=
  { op := 0x0314, who := fmOnly, args := fun _ p => [lenIs p 8], state := bindState, held := fun s _ p => match medReqOf s (fieldAt p 0 8) with
      | some m => windowOverlap s (fieldAt m.payload 12 1) (fieldAt m.payload 13 3) (fieldAt m.payload 16 8) (fieldAt m.payload 24 8)
      | none => none,
    cap := fun s _ p => match medReqOf s (fieldAt p 0 8) with
      | some m => bindFits s m.payload
      | none => true,
    run := fun x p s =>
      match medReqOf s (fieldAt p 0 8) with
      | none => ({ status := .badHandle }, s)
      | some m =>
        match firstHandle s [(handleAt m.payload 4, [8], false), (handleAt m.payload 8, [2], false)] with
        | some st => ({ status := st }, s)
        | none =>
          let (o, s) := makeBinding 0x0310 x m.payload s
          let s := modMediated m.ev (fun r => { r with waits := o.waits, related := o.related, payload := o.payload, h1 := o.h1 }) (closeMed m.ev s)
          (o, s) }

/-- `bind.refuse` (R458): the tenant's command completes with DENIED (DEDUCED, assumption 13). -/
def specBindRefuse : CmdSpec :=
  { op := 0x0315, who := fmOnly, args := fun _ p => [lenIs p 8], run := fun _ p s =>
      match medReqOf s (fieldAt p 0 8) with
      | none => ({ status := .badHandle }, s)
      | some m => ({ h1 := m.tenant }, completeRunning (fun r => r.waits == [Wait.mediated m.ev]) (fun r => { r with status := .denied }) (closeMed m.ev s)) }

/-- A mediated request that is not answered within 1 s times out (R458). -/
def mediatedTimeout (ev : Nat) (s : State) : State :=
  match medReqOf s ev with
  | none => s
  | some m =>
    if now s < m.deadline then s
    else completeRunning (fun r => r.waits == [Wait.mediated ev]) (fun r => { r with status := .timeout }) (closeMed ev s)

/-- The binding is not being destroyed (R455). -/
def bindFree (s : State) (h : Handle) : Bool := hType h != 1 || (bindOf s (hIdx h)).step == 0

/-- Discard a binding's hold list: the requests are counted and their credits return (R288). -/
def discardHeld (i : Nat) (s : State) : State :=
  let l := tget s.tm.held i
  let s := l.foldl (fun s x => bump .heldDisc i (copyGone x.orig s)) s
  modTm (fun t => { t with held := tset t.held i default }) s

/-- Step B1 (R455): the window leaves the ingress tables and the translation caches. -/
def bindB1 (h : Handle) (s : State) : State :=
  let i := hIdx h
  let keys := (s.ten.xlat.filter (fun e => e.2.v && e.2.bind == i)).map (·.1)
  let s := modTen (fun t => { t with xlat := t.xlat.filter (fun e => !(e.2.v && e.2.bind == i)), xcache := t.xcache.map (fun e => (e.1, e.2.filter (fun k => !keys.contains k))) }) s
  discardHeld i (modBind i (fun b => { b with step := 2 }) s)

/-- `bind.destroy` (R453, R455): completes when B5 frees the handle, or after B1. -/
def specBindDestroy : CmdSpec :=
  { op := 0x0311, who := fun s r p => isFm r || ownObj s r (handleAt p 0), args := fun _ p => [lenIs p 8, fld 4 (decide (fieldAt p 4 1 < 2)), rsv p 5 3], handles := fun p => oneHandle p 1, names := fun _ p => [handleAt p 0], state := fun s _ p => bindFree s (handleAt p 0), run := fun _ p s =>
      let h := handleAt p 0
      let s := bindB1 h s
      if bitOf (fieldAt p 4 1) 0 then ({ detail := 1, h1 := h }, s)
      else ({ detail := 5, h1 := h, waits := [.bindGone h] }, s) }

/-- No request of a binding that passed ingress is still on its way (R455 step B2). -/
def bindQuiet (s : State) (h : Handle) : Bool :=
  let mine := fun (f : Frame) => f.binding == h && !isResponse f
  !s.sw.reqs.any (fun x => mine x.f) && !s.sw.queues.any (fun e => e.2.frames.any (fun q => mine q.f))
    && !s.net.tx.any (fun e => e.2.frames.any (fun x => mine x.f)) && !s.net.denOut.any (fun e => e.2.any (fun o => o.binding == h))
    && !s.net.cxl.any (fun e => e.2.out.any (fun o => o.binding == h)) && !s.slices.any (fun e => e.2.trks.any (fun k => k.2.used && mine k.2.f))
    && !s.sw.merges.any (fun m => mine m.req) && !s.sw.holds.any (fun e => e.2.frames.any (fun x => mine x.f))
    && !s.net.fail.any (fun e => e.2.held.any (fun q => mine q.f) || e.2.frozen.any (fun r => r.frames.any mine) || e.2.rest.any (fun x => mine x.f))

/-- A line of a binding's window that its logical port holds and no other live binding of that port covers (R455 step B3). -/
def b3Line (s : State) (i : Nat) (e : DirEntry) : Bool :=
  let b := bindOf s i
  let r := sliceOf s b.slice
  let a := e.la * 64
  let covers := fun (x : Binding) => let y := sliceOf s x.slice; decide (y.base + x.off ≤ a) && decide (a < y.base + x.off + x.len)
  decide (r.base + b.off ≤ a) && decide (a < r.base + b.off + b.len) && recordsAgent e b.lp
    && !s.ten.bindings.any (fun o => o.1 != i && o.2.live && o.2.step == 0 && o.2.lp == b.lp && covers o.2)

/-- Step B5 (R252, R288, R455, R488, R494): unposted notices are discarded and counted, the delta is written, the handle and the page are free. -/
def bindB5 (h : Handle) (s : State) : State :=
  let i := hIdx h
  let b := bindOf s i
  let n := (s.ten.open_.filter (fun x => x.binding == h)).length + (s.dur.queued.filter (fun x => x.binding == h)).length
  let s := bumpC .ntcDiscarded i 0 n {} s
  let s := modTen (fun t => { t with open_ := t.open_.filter (fun x => x.binding != h), rings := tset t.rings i default, bindings := tset t.bindings i default }) s
  let s := { s with dur := { s.dur with queued := s.dur.queued.filter (fun x => x.binding != h) } }
  let s := modTm (fun t => { t with shapers := tset t.shapers i default, attached := t.attached.filter (fun a => a.1 != .binding h) }) s
  let s := originLost (fun r => r == .tenant h) (freeIndex 1 i s)
  let (seq, s) := jDelta 0x0311 (.binding i { b with live := false } (objOf s 1 i)) s
  modCmd (fun c => { c with running := c.running.map (fun r => if r.waits == [Wait.bindGone h] then { r with waits := [.delta seq] } else r) }) s

/-- Let a binding's destruction go on as far as its waits permit (R455). -/
def bindProgress : Nat → Handle → State → State
  | 0, _, s => s
  | fuel + 1, h, s =>
    let i := hIdx h
    let b := bindOf s i
    let r := sliceOf s b.slice
    if !liveHandle s h then s
    else match b.step with
      | 2 => if bindQuiet s h && b.posted == 0 then
          let s := modBind i (fun b => { b with step := 3 }) s
          bindProgress fuel h (if r.coherent then recallLines (fun _ e => b3Line s i e) b.lp s else s)
        else s
      | 3 => if !r.coherent || recallsDone s b.lp then bindProgress fuel h (modBind i (fun b => { b with step := 4 }) s) else s
      | 4 => if !r.persistent || decide (max b.lastEpoch b.highEpoch ≤ (if ownsSlice s b.slice then s.hoard.durable else s.hoard.fabricDurable)) then bindB5 h s else s
      | _ => s

/-- `bind.read` (R447). -/
def specBindRead : CmdSpec :=
  { op := 0x0312, who := fun s r p => isFm r || isBmc r || ownObj s r (handleAt p 0), args := fun _ p => [lenIs p 4], handles := fun p => oneHandle p 1, state := fun s _ p => bindFree s (handleAt p 0), reads := fun _ => true, run := fun _ p s => ({ payload := bindingBytes (handleAt p 0) (bindOf s (hIdx (handleAt p 0))), h1 := handleAt p 0 }, s) }

/-- `bind.mode` (R456): only in Test. -/
def specBindMode : CmdSpec :=
  { op := 0x0313, who := fmOnly, args := fun _ p => [lenIs p 4, fld 0 (decide (fieldAt p 0 1 < 2)), rsv p 1 3], state := fun s _ _ => s.dev.st == .test, run := fun _ p s => ({}, modTen (fun t => { t with mediated := fieldAt p 0 1 == 1 }) s) }

/-- `bind.reinstate` (R461): every entry of the binding is rewritten and its fault flag clears. -/
def specBindReinstate : CmdSpec :=
  { op := 0x0316, who := fmOnly, args := fun _ p => [lenIs p 4], handles := fun p => oneHandle p 1, names := fun _ p => [handleAt p 0], state := fun s _ p => bindFree s (handleAt p 0), run := fun _ p s =>
      let i := hIdx (handleAt p 0)
      let s := modTen (fun t => { t with xlat := t.xlat.map (fun e => if e.2.v && e.2.bind == i then (e.1, { e.2 with f := false }) else e) }) s
      ({ h1 := handleAt p 0 }, modBind i (fun b => { b with faulted := false }) s) }

/-- BIND_TENANT_CREATE. -/
def execBindTenantCreate (q : Req) (p : Bytes) (s : State) : Host.Outcome State Fault Refusal := finishStep (runCmd specTenantCreate q p s)
/-- BIND_TENANT_SET. -/
def execBindTenantSet (q : Req) (p : Bytes) (s : State) : Host.Outcome State Fault Refusal := finishStep (runCmd specTenantSet q p s)
/-- BIND_TENANT_DESTROY. -/
def execBindTenantDestroy (q : Req) (p : Bytes) (s : State) : Host.Outcome State Fault Refusal := finishStep (runCmd specTenantDestroy q p s)
/-- BIND_TENANT_READ. -/
def execBindTenantRead (q : Req) (p : Bytes) (s : State) : Host.Outcome State Fault Refusal := finishStep (runCmd specTenantRead q p s)
/-- BIND_CREATE. -/
def execBindCreate (q : Req) (p : Bytes) (s : State) : Host.Outcome State Fault Refusal := finishStep (runCmd specBindCreate q p s)
/-- BIND_DESTROY. -/
def execBindDestroy (q : Req) (p : Bytes) (s : State) : Host.Outcome State Fault Refusal := finishStep (runCmd specBindDestroy q p s)
/-- BIND_READ. -/
def execBindRead (q : Req) (p : Bytes) (s : State) : Host.Outcome State Fault Refusal := finishStep (runCmd specBindRead q p s)
/-- BIND_MODE. -/
def execBindMode (q : Req) (p : Bytes) (s : State) : Host.Outcome State Fault Refusal := finishStep (runCmd specBindMode q p s)
/-- BIND_APPROVE. -/
def execBindApprove (q : Req) (p : Bytes) (s : State) : Host.Outcome State Fault Refusal := finishStep (runCmd specBindApprove q p s)
/-- BIND_REFUSE. -/
def execBindRefuse (q : Req) (p : Bytes) (s : State) : Host.Outcome State Fault Refusal := finishStep (runCmd specBindRefuse q p s)
/-- BIND_REINSTATE. -/
def execBindReinstate (q : Req) (p : Bytes) (s : State) : Host.Outcome State Fault Refusal := finishStep (runCmd specBindReinstate q p s)
/-- SLICE_CREATE. -/
def execSliceCreate (q : Req) (p : Bytes) (s : State) : Host.Outcome State Fault Refusal := finishStep (runCmd specSliceCreate q p s)
/-- SLICE_SET. -/
def execSliceSet (q : Req) (p : Bytes) (s : State) : Host.Outcome State Fault Refusal := finishStep (runCmd specSliceSet q p s)
/-- SLICE_DESTROY. -/
def execSliceDestroy (q : Req) (p : Bytes) (s : State) : Host.Outcome State Fault Refusal := finishStep (runCmd specSliceDestroy q p s)
/-- SLICE_READ. -/
def execSliceRead (q : Req) (p : Bytes) (s : State) : Host.Outcome State Fault Refusal := finishStep (runCmd specSliceRead q p s)
/-- BIND_DESTROY_PROGRESS: the destruction goes on (R455). -/
def execBindDestroyProgress (b : Handle) (s : State) : Host.Outcome State Fault Refusal := finishStep (bindProgress 4 b s)
/-- MEDIATED_REQUEST_TIMEOUT (R458). -/
def execMediatedRequestTimeout (ev : Nat) (s : State) : Host.Outcome State Fault Refusal := finishStep (mediatedTimeout ev s)

end Sys2Proof.Machine
end

