-- ==== Sys2Proof/Machine/Cache.lean ====
section
/-! DEFINITION. The `coh` commands and `hoard.dirty_cap`, the cleaner, the dirty cap, the patrol scrub, repairs and relocations (R298, R325, R341, R347 to R352, R360 to R371). -/

namespace Sys2Proof.Machine

/-- The flows of a controller's four slices that a phase holds may start (R350, R365). -/
def wakeStack (k : Nat) (p : Trk → Bool) (s : State) : State :=
  (List.range 4).foldl (fun s j => pump (4 * k + j) (wake (4 * k + j) p s)) s

/-- The measures of R350 end once D_k is below 15/16 of the quota. -/
def capRelease (k : Nat) (s : State) : State :=
  let d := dreyOf s k
  if d.capHold && dirtyCount s k * 16 < quota s * 15 then
    let s := bumpC .capTime k 0 (now s - d.capSince) {} (modDrey k (fun d => { d with capHold := false }) s)
    wakeStack k (fun t => t.phase == .waitCap) s
  else s

/-- The dirty persistent ways of a controller in rising order from a place, then from the start (R349). -/
def cleanOrder (d : DreySt) : List Nat :=
  let l := (d.ways.filter (fun e => e.2.v && e.2.d && e.2.p)).map (·.1)
  l.filter (fun x => decide (d.cleanPos ≤ x)) ++ l.filter (fun x => decide (x < d.cleanPos))

/-- The cleaner writes ways back until D_k is below half the quota (R349). -/
def cleanWays (k : Nat) : List Nat → State → State
  | [], s => s
  | key :: r, s =>
    if dirtyCount s k * 2 < quota s then s
    else cleanWays k r (bump .cleanWb k (modDrey k (fun d => { d with cleanPos := key + 1 }) (writeBackWay k key s)))

/-- One run of a controller's cleaner (R349). -/
def runCleaner (k : Nat) (s : State) : State :=
  let s := capUpdate k s
  if (dreyOf s k).cleaning then capRelease k (capUpdate k (cleanWays k (cleanOrder (dreyOf s k)) s)) else s

/-- Retire a Drey region in place (R363): its dirty lines are written back and its sets become bypass sets. -/
def retireDrey (k r : Nat) (s : State) : State :=
  let inIt := fun (key : Nat) => dreyRegion (key / 16) == r
  let (_, s) := writeBackAll k (fun key _ => inIt key) s
  let s := dropWays k (fun key w => inIt key && !proxyHeld s (dreyLine (key / 16) w.tag)) s
  let s := modDrey k (fun d => { d with regions := tset d.regions r { st := 2, mapped := 0 } }) s
  capRelease k (bump .regionsRetired k s)

/-- The highest-numbered live Drey region of a stack (R363). -/
def spareRegion (s : State) (k : Nat) : Option Nat :=
  ((List.range 56).map (fun i => 87 - i)).find? (fun r => (tget (dreyOf s k).regions r).st == 0)

/-- Begin a relocation (R363, R365 step 1), or queue it behind the one that runs; one beyond the sixteenth is a Grave fault for a directory region and a Severe event for any other (R366). -/
def startReloc (k r : Nat) (s : State) : State :=
  let d := dreyOf s k
  if d.moving.isSome then modDrey k (fun d => { d with moveQueue := if d.moveQueue.contains r then d.moveQueue else d.moveQueue ++ [r], regions := tmod d.regions r (fun x => { x with st := 1 }) }) s
  else match (if d.relocs < 16 then spareRegion s k else none) with
    | some t =>
      let s := modDrey k (fun d => { d with moving := some (r, t, 1), relocs := d.relocs + 1, regions := tmod d.regions r (fun x => { x with st := 1 }) }) s
      raise { code := 0x0705, cls := .degraded, block := 158 + k, detail := r } s
    | none =>
      if r < 32 then graveCause 0x0707 (158 + k) (modDrey k (fun d => { d with regions := tmod d.regions r (fun x => { x with st := 1 }) }) s)
      else raise { code := 0x0706, cls := .severe, block := 158 + k, detail := r } s

/-- A region needs retirement (R363): a Drey region in place, any other by relocation; one already retired or on its way stays. -/
def retireRegion (k r : Nat) (s : State) : State :=
  if (tget (dreyOf s k).regions r).st != 0 then s
  else if 32 ≤ r && r < 88 then retireDrey k r s else startReloc k r s

/-- A directory entry that fails its check is recovered under a tracker of its own (R329, R365 step 3); without a free one it is left to its next reader. -/
def recoverIdle (i key : Nat) (s : State) : State :=
  match freeTrk s i with
  | some k => pump i (recoverEntry i k key (modTrk i k (fun _ => { used := true, line := (dirAt s i key).la, lp := 512, since := now s }) s))
  | none => s

/-- The copy of a directory region applies R329 to every entry that fails (R365 step 3). -/
def recoverRegion (k r : Nat) (s : State) : State :=
  (List.range 4).foldl (fun s j =>
    let i := 4 * k + j
    (((slOf s i).dir.filter (fun e => dirRegion i (e.1 / 16) == r && e.2.trk == 0 && entryFails e.2)).map (·.1)).foldl (fun s key => recoverIdle i key s) s) s

/-- A relocation's step has ended (R365): retire the target; hold and copy; switch and release; then the next in the queue. -/
def relocStep (k : Nat) (s : State) : State :=
  match (dreyOf s k).moving with
  | some (r, t, 1) => modDrey k (fun d => { d with moving := some (r, t, 2) }) (retireDrey k t s)
  | some (r, t, 2) => modDrey k (fun d => { d with moving := some (r, t, 3) }) s
  | some (r, t, 3) =>
    let s := if r < 32 then recoverRegion k r s else s
    let s := modDrey k (fun d => { d with moving := some (r, t, 4), regions := tset (tset d.regions r { st := 3, mapped := t + 1 }) t { st := 4, mapped := 0 } }) s
    wakeStack k (fun u => u.phase == .waitRegion) (bump .regionsRetired k s)
  | some _ =>
    let s := modDrey k (fun d => { d with moving := none }) s
    match (dreyOf s k).moveQueue with
    | [] => s
    | r :: q => startReloc k r (modDrey k (fun d => { d with moveQueue := q }) s)
  | none => s

/-- The region whose content a stack region holds (R365). -/
def contentRegion (s : State) (k r : Nat) : Nat :=
  match (dreyOf s k).regions.find? (fun e => e.2.mapped == r + 1) with
  | some e => e.1
  | none => r

/-- Repair a row (R362, R363): by a spare row of its bank, kept in the ledger for the hard repair of the next Boot; without one, its region is retired (PRESUMED, assumption 29). -/
def repairRow (k : Nat) (e : WordError) (s : State) : State :=
  let bank := e.pc * 256 + e.bank
  let s := modDrey k (fun d => { d with rowErrs := tset d.rowErrs (bank * 2 ^ 32 + e.row) 0 }) s
  if tget (dreyOf s k).spares bank = 0 then
    let s := modDrey k (fun d => { d with spares := tset d.spares bank 1 }) s
    let x : Repair := { stack := k, pc := e.pc, bank := e.bank, row := e.row }
    bump .rowsRepaired k (ledgerWrite (fun b => { b with repairs := (b.repairs ++ [x]).take 512 }) s)
  else retireRegion k (contentRegion s k (e.addr / 2 ^ 28)) s

/-- An uncorrectable word of the directory store (R329, R361): every entry of its set fails its check, unless the set is cached and so newer (R357). -/
def badDirWord (k off : Nat) (s : State) : State :=
  let i := 4 * k + off / 2 ^ 31
  let set := off / 256 % 2 ^ 23
  if (tget (slOf s i).cached (set % 4096)).contains set then s
  else (List.range 16).foldl (fun s w =>
    let e := dirAt s i (set * 16 + w)
    if e == default then s else modSl i (fun x => { x with dir := tset x.dir (set * 16 + w) { e with echk := ~~~(echkOf e) } }) s) s

/-- An uncorrectable word of the Drey (R361): a clean line is invalid; a dirty line is kept poisoned. -/
def badDreyWord (k off : Nat) (s : State) : State :=
  let key := off / 64
  let w := tget (dreyOf s k).ways key
  let a := dreyLine (key / 16) w.tag * 64
  if !w.v then s
  else if w.d then
    raise { code := 0x0704, cls := .degraded, block := 158 + k, arg := a } (setWay k (key / 16) (key % 16) { w with x := true } s)
  else raise { code := 0x0703, cls := .notice, block := 158 + k, arg := a } (setWay k (key / 16) (key % 16) {} s)

/-- An uncorrectable word of the translation tables (R361, R461): the entry and its binding are faulted. -/
def badTableWord (k off : Nat) (s : State) : State :=
  let keys := (List.range 4).map (fun j => (off / 256 * 4 + k) * 16 + off % 256 / 64 * 4 + j)
  keys.foldl (fun s key =>
    let x := tget s.ten.xlat key
    if x.v && !x.f then
      let h := handleOf s 1 x.bind
      let s := modBind x.bind (fun b => { b with faulted := true }) (modTen (fun t => { t with xlat := tset t.xlat key { x with f := true } }) s)
      raise { code := 0x0704, cls := .degraded, block := 158 + k, h1 := h } s
    else s) s

/-- An uncorrectable word of ring 0 (R361, R538): its record is marked damaged. The log region is taken as the four quarters in order, ring 0 first (DEDUCED, assumption 18). -/
def badLogWord (k off : Nat) (s : State) : State :=
  let n := (k * 2 ^ 30 + off) / 64
  modLog (fun l => { l with ring0 := l.ring0.map (fun r => if r.seq % 33554432 == n then { r with damaged := true } else r) }) s

/-- A wrong HBM word is found (R335, R361, R362). -/
def wordError (k : Nat) (e : WordError) (s : State) : State :=
  let r := contentRegion s k (e.addr / 2 ^ 28)
  let off := e.addr % 2 ^ 28
  let bank := e.pc * 256 + e.bank
  let row := bank * 2 ^ 32 + e.row
  if corrects e.symbols then
    let s := modDrey k (fun d => { d with rowErrs := tmod d.rowErrs row (· + 1) }) (bump .corrected k s)
    if tget (dreyOf s k).rowErrs row ≥ 16 then repairRow k e s else s
  else
    let s := bump .uncorrected k s
    let s := capture (158 + k) (if 32 ≤ r && r < 88 && !(tget (dreyOf s k).ways (((r - 32) * 2 ^ 28 + off) / 64)).d then 0x0703 else 0x0704) 4 6 k e.addr s
    let s := if r < 32 then badDirWord k (r * 2 ^ 28 + off) s
      else if r < 88 then badDreyWord k ((r - 32) * 2 ^ 28 + off) s
      else if r < 92 then badTableWord k ((r - 88) * 2 ^ 28 + off) s
      else badLogWord k ((r - 92) * 2 ^ 28 + off) s
    repairRow k e s

/-- A patrol scrub (R360 to R362): the row counts start anew with each scrub period. -/
def patrolScrub (k : Nat) (errors : List WordError) (s : State) : State :=
  let d := dreyOf s k
  let p := s.scrubHours * 3600000000000
  let t := now s
  let s := if t ≥ d.periodStart + p then modDrey k (fun d => { d with rowErrs := [], periodStart := t }) s else s
  errors.foldl (fun s e => wordError k e s) s

/-- The memory of the core dies is up: in Off and Grave nothing of it runs. -/
def memoryRuns (s : State) : Bool := s.dev.st != .off && s.dev.st != .grave

/-- DREY_CLEANER (R349). -/
def execDreyCleaner (k : Fin 4) (s : State) : Host.Outcome State Fault Refusal :=
  finishStep (if memoryRuns s then runCleaner k.val s else s)

/-- DIRTY_CAP_HOLD (R350): the measures begin when D_k reaches the quota and end below 15/16 of it. -/
def execDirtyCapHold (k : Fin 4) (s : State) : Host.Outcome State Fault Refusal :=
  finishStep (if memoryRuns s then capRelease k.val (capUpdate k.val s) else s)

/-- PATROL_SCRUB (R361). -/
def execPatrolScrub (stack : Fin 4) (errors : List WordError) (s : State) : Host.Outcome State Fault Refusal :=
  finishStep (if memoryRuns s then patrolScrub stack.val errors s else s)

/-- RELOCATION_STEP_DONE (R365). -/
def execRelocationStepDone (stack : Fin 4) (s : State) : Host.Outcome State Fault Refusal :=
  finishStep (if memoryRuns s then relocStep stack.val s else s)

/-- `coh.configure` (R298, R325). -/
def specCohConfigure : CmdSpec :=
  { op := 0x0701, who := fmOnly, args := fun s p =>
      let scope := fieldAt p 1 1
      [lenIs p 12, fld 0 (scope == 1 || lpExists s (fieldAt p 0 1)), fld 1 (decide (scope < 2)), fld 2 (decide (fieldAt p 2 1 < 2)), rsv p 3 1, fld 4 (decide (fieldAt p 4 2 ≤ 1024)), rsv p 6 2, fld 8 (fieldAt p 8 4 == 0 || (decide (100000 ≤ fieldAt p 8 4) && decide (fieldAt p 8 4 ≤ 50000000)))],
    run := fun _ p s =>
      let n := fieldAt p 0 1
      let t := fieldAt p 8 4
      let s := if t = 0 then s else { s with coh := { s.coh with snoopTimeout := t } }
      if fieldAt p 1 1 = 1 then ({}, s)
      else ({}, { s with coh := { s.coh with enabled := tset s.coh.enabled n (fieldAt p 2 1 == 1), threshold := if fieldAt p 4 2 = 0 then s.coh.threshold else tset s.coh.threshold n (fieldAt p 4 2) } }) }

/-- `coh.entry_read` (R301): the stored entry of a line, or a free way's zeros for a line in I. -/
def specCohEntryRead : CmdSpec :=
  { op := 0x0702, who := fmOnly, args := fun _ p => [lenIs p 8, fld 0 (decide (fieldAt p 0 8 < 2 ^ 52))], reads := fun _ => true, run := fun _ p s =>
      let l := lineOf (fieldAt p 0 8)
      let i := homeSlice l
      let w := match dirKey s i l with
        | some key => entryWord (dirAt s i key)
        | none => 0
      ({ payload := leBytes 16 w }, s) }

/-- `coh.drey_policy` (R341). -/
def specCohDreyPolicy : CmdSpec :=
  { op := 0x0703, who := fmOnly, args := fun _ p => [lenIs p 8, fld 4 (decide (fieldAt p 4 1 < 2)), rsv p 5 3], handles := fun p => [(handleAt p 0, [2], false)], names := fun _ p => [handleAt p 0], run := fun _ p s =>
      let h := handleAt p 0
      ({ h1 := h }, modTen (fun t => { t with slices := tmod t.slices (hIdx h) (fun r => { r with readFill := fieldAt p 4 1 == 1 }) }) s) }

/-- The flush of `coh.drey_flush` (R370): every dirty line is written back, and with invalidate every way is cleared but a proxy's copy (DEDUCED, assumption 7). New flows wait until it completes. -/
def flushAll (invalidate : Bool) (s : State) : Nat × State :=
  let s := { s with coh := { s.coh with flushHold := true } }
  let (n, s) := flushDrey (fun _ _ => true) s
  let s := if invalidate then (List.range 4).foldl (fun s k => dropWays k (fun key w => !proxyHeld s (dreyLine (key / 16) w.tag)) s) s else s
  (n, (List.range 4).foldl (fun s k => capRelease k (capUpdate k s)) s)

/-- `coh.drey_flush` (R370). -/
def specCohDreyFlush : CmdSpec :=
  { op := 0x0704, who := fun _ r _ => isFm r || isFw r, args := fun _ p => [lenIs p 4, fld 0 (decide (fieldAt p 0 1 < 2)), rsv p 1 3], state := fun s _ _ => s.dev.st != .hibernate, run := fun _ p s =>
      let (n, s) := flushAll (fieldAt p 0 1 == 1) s
      ({ payload := leBytes 8 n, waits := [.dreyFlush] }, s) }

/-- `coh.hbm_scrub` (R360). -/
def specCohHbmScrub : CmdSpec :=
  { op := 0x0705, who := fmBmc, args := fun _ p => [lenIs p 4, fld 0 (decide (1 ≤ fieldAt p 0 2) && decide (fieldAt p 0 2 ≤ 168)), rsv p 2 2], run := fun _ p s => ({}, { s with scrubHours := fieldAt p 0 2 }) }

/-- The answer of `coh.hbm_status` (R520): the banks listed are those whose spare row is used (DEDUCED, assumption 19). -/
def hbmStatusBytes (s : State) (k : Nat) : Bytes :=
  let d := dreyOf s k
  leBytes 8 (ctrVal .corrected k 0 s) ++ leBytes 8 (ctrVal .uncorrected k 0 s) ++ leBytes 8 (ctrVal .rowsRepaired k 0 s) ++ leBytes 8 (ctrVal .regionsRetired k 0 s)
    ++ leBytes 1 d.relocs ++ [0] ++ leBytes 2 d.spares.length ++ zeros 4
    ++ (List.range 96).flatMap (fun r => let x := tget d.regions r; leBytes 1 x.st ++ leBytes 1 (if x.mapped = 0 then r else x.mapped - 1) ++ zeros 2)
    ++ d.spares.flatMap (fun e => leBytes 1 (e.1 / 256) ++ leBytes 1 (e.1 % 256) ++ leBytes 1 (1 - e.2) ++ [0])

/-- `coh.hbm_status` (R371). -/
def specCohHbmStatus : CmdSpec :=
  { op := 0x0706, who := fmBmc, args := fun _ p => [lenIs p 4, fld 0 (decide (fieldAt p 0 1 < 4)), rsv p 1 3], reads := fun _ => true, run := fun _ p s => ({ payload := hbmStatusBytes s (fieldAt p 0 1) }, s) }

/-- `coh.region_retire` (R363, R371): a region that is not live is BAD_STATE; no relocation left is NO_RESOURCE (DEDUCED, assumption 76). -/
def specCohRegionRetire : CmdSpec :=
  { op := 0x0707, who := fmOnly, args := fun _ p => [lenIs p 4, fld 0 (decide (fieldAt p 0 1 < 4)), fld 1 (decide (fieldAt p 1 1 < 96)), rsv p 2 2], state := fun s _ p => (tget (dreyOf s (fieldAt p 0 1)).regions (fieldAt p 1 1)).st == 0, cap := fun s _ p =>
      let k := fieldAt p 0 1
      let r := fieldAt p 1 1
      (decide (32 ≤ r) && decide (r < 88)) || (decide ((dreyOf s k).relocs + (dreyOf s k).moveQueue.length < 16) && (spareRegion s k).isSome),
    run := fun _ p s => ({}, retireRegion (fieldAt p 0 1) (fieldAt p 1 1) s) }

/-- `hoard.dirty_cap` (R347, R352). -/
def specHoardDirtyCap : CmdSpec :=
  { op := 0x0803, who := fmOnly, args := fun _ p => [lenIs p 4, fld 0 (decide (1 ≤ fieldAt p 0 1) && decide (fieldAt p 0 1 ≤ 24)), fld 1 (decide (fieldAt p 1 1 < 2)), rsv p 2 2], state := fun s _ _ => s.dev.st != .hibernate, run := fun _ p s =>
      let s := { s with dur := { s.dur with dirtyCap := fieldAt p 0 1 } }
      let s := (List.range 4).foldl (fun s k => capRelease k (capUpdate k s)) s
      ({ waits := if fieldAt p 1 1 = 1 then [] else [.dirtyCap] }, s) }

/-- COH_CONFIGURE. -/
def execCohConfigure (q : Req) (p : Bytes) (s : State) : Host.Outcome State Fault Refusal := finishStep (runCmd specCohConfigure q p s)
/-- COH_ENTRY_READ. -/
def execCohEntryRead (q : Req) (p : Bytes) (s : State) : Host.Outcome State Fault Refusal := finishStep (runCmd specCohEntryRead q p s)
/-- COH_DREY_POLICY. -/
def execCohDreyPolicy (q : Req) (p : Bytes) (s : State) : Host.Outcome State Fault Refusal := finishStep (runCmd specCohDreyPolicy q p s)
/-- COH_DREY_FLUSH (R370). -/
def execCohDreyFlush (q : Req) (p : Bytes) (s : State) : Host.Outcome State Fault Refusal :=
  finishStep (notInHibernate 0x0704 (isFm q.route || isFw q.route) q (runCmd specCohDreyFlush q p) s)
/-- COH_HBM_SCRUB. -/
def execCohHbmScrub (q : Req) (p : Bytes) (s : State) : Host.Outcome State Fault Refusal := finishStep (runCmd specCohHbmScrub q p s)
/-- COH_HBM_STATUS. -/
def execCohHbmStatus (q : Req) (p : Bytes) (s : State) : Host.Outcome State Fault Refusal := finishStep (runCmd specCohHbmStatus q p s)
/-- COH_REGION_RETIRE. -/
def execCohRegionRetire (q : Req) (p : Bytes) (s : State) : Host.Outcome State Fault Refusal := finishStep (runCmd specCohRegionRetire q p s)
/-- HOARD_DIRTY_CAP (R373). -/
def execHoardDirtyCap (q : Req) (p : Bytes) (s : State) : Host.Outcome State Fault Refusal :=
  finishStep (notInHibernate 0x0803 (isFm q.route) q (runCmd specHoardDirtyCap q p) s)

end Sys2Proof.Machine
end

