-- ==== Sys2Proof/Machine/Ingress.lean ====
section
/-! DEFINITION. Requests at ingress: meters, binding shapers, the windows of a binding, the access gates and the classification of each role (R18, R189 to R193, R238 to R251, R261 to R268, R450 to R452, R459 to R462, R467). -/

namespace Sys2Proof.Machine

/-- One byte with the 24 fractional bits of buckets and tokens (R246, R255). -/
def one24 : Nat := 2 ^ 24

/-- A meter. -/
def meterOf (s : State) (h : Handle) : MeterSt := tget s.tm.meters (hIdx h)

/-- Change a meter. -/
def modMeter (h : Handle) (g : MeterSt → MeterSt) (s : State) : State := modTm (fun t => { t with meters := tmod t.meters (hIdx h) g }) s

/-- The meter attached to something on an I/O die (R243, R244). -/
def meterAt (s : State) (on : MeterOn) (die : Nat) : Option Handle := (s.tm.attached.find? (fun a => a.1 == on && a.2.1 == die)).map (·.2.2)

/-- The colouring of a meter (R246): the colour, and the buckets after it. -/
def meterStep (m : MeterSt) (aware : Bool) (pre : Nat) (b t : Nat) : Nat × MeterSt :=
  let tc := min (m.cbs * one24) (m.tc + m.cir * (t - m.last) * one24 / 8000000)
  let tp := min (m.pbs * one24) (m.tp + m.pir * (t - m.last) * one24 / 8000000)
  let m := { m with tc := tc, tp := tp, last := t }
  let b24 := b * one24
  if (aware && pre == 2) || tp < b24 then (2, m)
  else if (aware && pre == 1) || tc < b24 then (1, { m with tp := tp - b24 })
  else (0, { m with tp := tp - b24, tc := tc - b24 })

/-- Colour a request by the meter on its ingress, when there is one (R246 to R249, R287): on a host-facing port the pre-colour is green, on a fabric port the meter runs colour-aware. -/
def colourRequest (s : State) (lp : Nat) (f : Frame) : Frame × State :=
  let on : MeterOn := if isFabric s lp then .lp lp else .binding f.binding
  match meterAt s on (dieOf lp) with
  | none => (f, s)
  | some h =>
    let m := meterOf s h
    let (c, m') := meterStep m (isFabric s lp || m.aware) f.colour.toNat (chargedLen f) (now s)
    let s := modMeter h (fun _ => m') s
    let s := bumpC .mtrFrames (hIdx h) c 1 (ctxOf s f) s
    let s := bumpC .mtrBytes (hIdx h) c (chargedLen f) (ctxOf s f) s
    ({ f with colour := BitVec.ofNat 2 c }, s)

/-- The parameters of an unconfigured binding shaper (R261): the ingress line rate in kbit/s, 65,536 bytes. -/
def defaultPar (s : State) (lp : Nat) : ShaperPar := { rate := lineRate s lp * 1000000, burst := 65536 }

/-- An unconfigured binding shaper whose port's line rate has changed (R256, R261): a shaper no notice has lowered follows the new Rate, a lowered one stays between its new floor and Rate (DEDUCED as R756, assumption 125). -/
def followRate (x : ShaperSt) (np : ShaperPar) : ShaperSt :=
  let r := np.rate * one24
  { x with par := np, tokens := min x.tokens ((np.burst * one24 : Nat) : Int), re := if x.par.rate * one24 ≤ x.re then r else max (min x.re r) (r / 2 ^ np.f) }

/-- The shaper of an index with the parameters it acts with (R252, R261): a shaper never touched holds a full burst and its whole rate. -/
def shaperOf (s : State) (k : Nat) : ShaperSt :=
  let x := tget s.tm.shapers k
  let x := if x.configured then x else followRate x (defaultPar s (bindOf s k).lp)
  if x.started then x else { x with started := true, tokens := ((x.par.burst * one24 : Nat) : Int), re := x.par.rate * one24 }

/-- Store a shaper. -/
def setShaper (k : Nat) (x : ShaperSt) (s : State) : State := modTm (fun t => { t with shapers := tset t.shapers k x }) s

/-- The floor below which a binding shaper's tokens never fall (R264). -/
def tokenFloor (x : ShaperSt) : Int := -((x.par.burst * one24 : Nat) : Int)

/-- A binding shaper admits a request of a charged length (R262, R265): on WB only while its tokens stand above −Burst. -/
def shaperAdmits (x : ShaperSt) (f : Frame) : Bool :=
  if f.cls == clsCM && f.chan == 3 then decide (tokenFloor x < x.tokens)
  else decide (((chargedLen f * one24 : Nat) : Int) ≤ x.tokens)

/-- Charge a shaper, down to its floor (R262, R264). -/
def chargeShaper (x : ShaperSt) (len : Nat) : ShaperSt := { x with tokens := max (tokenFloor x) (x.tokens - ((len * one24 : Nat) : Int)) }

/-- Charge a response or snoop answer of a host to its binding's shaper (R264). -/
def chargeResponse (b : Handle) (len : Nat) (s : State) : State :=
  match liveBind s b with
  | some _ => setShaper (hIdx b) (chargeShaper (shaperOf s (hIdx b)) len) s
  | none => s

/-- The gate that stands before where a request goes (R466): that of the device-facing port, unless the frame goes to a home slice. -/
def gateOfRequest (s : State) (f : Frame) : Option Nat :=
  let e := routeEntry s f.did.toNat
  if rKind e == 1 && isDevice s (rLp e) && !isCmRequest f then some (16 + rLp e) else none

/-- The parts of a write that pass a gate, each as a posted write of its own (R474, DEDUCED, assumption 15). -/
def partFrame (f : Frame) (p : Nat × Nat) : Frame :=
  sealHdr { f with opcode := 0x03, addr := BitVec.ofNat 64 (fAddr f + p.1), length := BitVec.ofNat 16 p.2, data := (f.data.drop p.1).take p.2 }

/-- Route one part of a write that passed a gate (R474): it is whole when the original's bytes up to its end have come, and it never starts across before.  -/
def routePart (src : XIn) (f : Frame) (off arrived orig : Nat) (s : State) : State :=
  let a := min (frameLen f) (arrived - off)
  let s := routeRequest src f a orig s
  let upd := fun (x : XReq) => if x.orig == orig && x.f.addr == f.addr && decide (x.arrived < frameLen x.f) then { x with off := off, sf := true } else x
  if a < frameLen f then modSw (fun w => { w with reqs := w.reqs.map upd, holds := w.holds.map (fun e => (e.1, { e.2 with frames := e.2.frames.map upd })) }) s else s

/-- Steps 5 to 8 of R192: the gate before the target, which verifies the header check first (R186), then the route. -/
def passIngress (lp : Nat) (f : Frame) (arrived orig : Nat) (s : State) : State :=
  match gateOfRequest s f with
  | none => routeRequest (.port lp) f arrived orig s
  | some g =>
    if !hchkOk f then copyGone orig (hchkFailure (g - 16) ((g - 16) / 2) f s)
    else match gateCheck g f s with
    | (.pass, s) => routeRequest (.port lp) f arrived orig s
    | (.refuse rs, s) => copyGone orig (refuseAccess f rs s)
    | (.parts ok rs, s) =>
      let s := bumpC .refusals (hIdx f.binding) 0 1 (ctxOf s f) s
      let s := if isPosted f || fromCxl s f then addNotice f.binding .refused rs 0 s else s
      let extra := ok.length - b2n (isPosted f)
      let s := modBind (hIdx f.binding) (fun b => { b with posted := b.posted + extra }) s
      let s := moreCopies orig (ok.length - 1) s
      let s := ok.foldl (fun s p => routePart (.port lp) (partFrame f p) p.1 arrived orig s) s
      complete f stFault [] (epochNow s) s

/-- Steps 4 and the binding shaper between 4 and 5 of R192 (R246, R262, R263, R265). -/
def meterAndShape (lp : Nat) (f : Frame) (arrived orig : Nat) (s : State) : State :=
  let (f, s) := colourRequest s lp f
  if isHost s lp && (liveBind s f.binding).isSome && !s.tm.suspended then
    let k := hIdx f.binding
    let waits := (tget s.tm.held k).any (fun h => h.f.chan == f.chan)
    let x := shaperOf s k
    if !waits && shaperAdmits x f then passIngress lp f arrived orig (setShaper k (chargeShaper x (chargedLen f)) s)
    else
      let h : HeldReq := { f := f, lp := lp, arrived := arrived, len := chargedLen f, at_ := now s, orig := orig }
      bumpC .shHeld k 0 1 (ctxOf s f) (modTm (fun t => { t with held := tmod t.held k (fun l => l ++ [h]) }) s)
  else passIngress lp f arrived orig s

/-- A posted write to the message window leaves as one DATAGRAM to the message peer; a disabled window discards and counts it (R465). It is metered and shaped as any request of the binding (R239, R262). -/
def messageWrite (i : Nat) (data : Bytes) (s : State) : State :=
  let b := bindOf s i
  if !bitOf b.peer 15 then bump .disMsg 0 s
  else
    let f := sealHdr { opcode := 0x01, prio := BitVec.ofNat 3 (tenantOf s b.tenant).prio, chan := 7, cls := clsMG, did := BitVec.ofNat 12 b.peer, sid := BitVec.ofNat 12 (didOf s b.lp), binding := handleOf s 1 i, length := BitVec.ofNat 16 data.length, data := data }
    meterAndShape b.lp f (frameLen f) 0 s

/-- A write of bytes inside a binding page, word by word; the message window takes it whole. -/
def pageWrite (i off : Nat) (data : Bytes) (posted : Bool) (s : State) : State :=
  if 0x3000 ≤ off then (if posted && data.length ≤ 4096 then messageWrite i data s else s)
  else if off % 4 = 0 then
    (List.range (data.length / 4)).foldl (fun s k => pageWord i (off + 4 * k) (BitVec.ofNat 32 (fieldAt data (4 * k) 4)) s) s
  else s

/-- A binding that a port and PASID reach: that of its own logical port or of its twin (R243, R244). -/
def bindsAt (s : State) (lp pasid : Nat) (b : Binding) : Bool :=
  b.live && b.step == 0 && b.pasid == pasid && (b.lp == lp || twinOf s b.lp == some lp)

/-- The bindings of a context (R449). -/
def contextBinds (s : State) (lp pasid : Nat) : List (Nat × Binding) := s.ten.bindings.filter (fun e => bindsAt s lp pasid e.2)

/-- What a lookup of a host address finds. -/
inductive Resolved where
  | miss
  | faulted (idx : Nat)
  | hit (idx : Nat) (addr : Nat)

/-- Resolve a host address range in a context (R450 to R452, R459 to R461): wholly within one window; a faulted translation refuses. -/
def resolve (s : State) (lp pasid a len : Nat) : Resolved :=
  match (contextBinds s lp pasid).find? (fun e => decide (e.2.wbase ≤ a) && decide (a + len ≤ e.2.wbase + e.2.len)) with
  | none => .miss
  | some e =>
    let hgs := rangeFrom (a / 2097152) ((a + len - 1) / 2097152 + 1 - a / 2097152)
    let bad := s.ten.mediated && hgs.any (fun hg => s.ten.xlat.any (fun x => x.2.v && x.2.f && x.2.bind == e.1 && x.2.hg == hg % 2 ^ 31))
    if bad then .faulted e.1 else .hit e.1 ((sliceOf s e.2.slice).base + e.2.off + (a - e.2.wbase))

/-- Count a lookup in an I/O die's translation cache of 8,192 entries and refresh it (R460). -/
def countXlat (lp pasid a : Nat) (s : State) : State :=
  if !s.ten.mediated then s
  else
    let d := dieOf lp
    match s.ten.xlat.find? (fun x => x.2.v && x.2.lp == lp && x.2.pasid == pasid && x.2.hg == a / 2097152 % 2 ^ 31) with
    | none => bump .xMisses d s
    | some e =>
      let c := tget s.ten.xcache d
      let hit := c.contains e.1
      let s := modTen (fun t => { t with xcache := tset t.xcache d ((e.1 :: c.erase e.1).take 8192) }) s
      bump (if hit then .xHits else .xMisses) d s

/-- The lowest binding of a context, to which a window miss is told (R452, DESIGN CHOICE, assumption 16). -/
def contextFirst (s : State) (lp pasid : Nat) : Option Nat := ((contextBinds s lp pasid).head?).map (·.1)

/-- Refuse a request that lies in no window (R452, R466, R476). -/
def windowMiss (lp pasid : Nat) (f : Frame) (orig : Nat) (s : State) : State :=
  match contextFirst s lp pasid with
  | some i => copyGone orig (refuseAccess { f with binding := handleOf s 1 i } 0 (bumpC .winMiss i 0 1 {} s))
  | none => copyGone orig (complete f stFault [] 0 (bumpC .winMiss (65536 + lp) 0 1 {} s))

/-- Bytes that a request touches for its window (R452). -/
def reachOf (f : Frame) : Nat := if f.cls == clsCM && !isAtomic f then 64 else max 1 (spanOf f)

/-- A host's request, on CXL with the channel that its message has (R162), on Den with the class that its wire form has (DEDUCED, assumption 118), resolved to its binding, slice and fabric address (R191, R450, R451, R410), with a fresh HCHK (R185). In Drain it gets the target-unavailable response, and a lost write's notice goes to its binding (R18, R172, R173). -/
def hostRequest (lp pasid : Nat) (f : Frame) (arrived orig : Nat) (s : State) : State :=
  let f := { f with sid := BitVec.ofNat 12 (didOf s lp), priv := false, colour := 0, hops := 15, copy := false, marked := false, rsv := 0, chan := if isCxl s lp then f.chan else BitVec.ofNat 3 (chanOf f.cls f.opcode.toNat) }
  let a := fAddr f
  let s := countXlat lp pasid a s
  let drained := !takesRequests s && !isNotice f
  let issue := fun (i : Nat) (s : State) => if isPosted f && isWrite f then modBind i (fun b => { b with posted := b.posted + 1 }) s else s
  let gone := fun (i : Nat) (s : State) => copyGone orig (targetGone { f with binding := handleOf s 1 i } stUnavail (issue i s))
  match resolve s lp pasid a (reachOf f) with
  | .miss =>
    (match contextFirst s lp pasid with
     | some i => if drained then gone i s else windowMiss lp pasid f orig s
     | none => if drained then copyGone orig (complete f stUnavail [] (epochNow s) s) else windowMiss lp pasid f orig s)
  | .faulted i => if drained then gone i s else copyGone orig (refuseAccess { f with binding := handleOf s 1 i } 0 s)
  | .hit i fa =>
    let b := bindOf s i
    let f := { f with binding := handleOf s 1 i, addr := BitVec.ofNat 64 fa, did := BitVec.ofNat 12 (sliceOf s b.slice).target, prio := BitVec.ofNat 3 (tenantOf s b.tenant).prio }
    if drained then gone i s else meterAndShape lp (sealHdr f) arrived orig (issue i s)

/-- A Den host's IO request to a binding page (R462): UNSUPPORTED, or discarded when posted, where the page carries no binding of the port and PASID. -/
def denPage (lp pasid : Nat) (f : Frame) (orig : Nat) (s : State) : State :=
  let a := fAddr f
  let f := { f with sid := BitVec.ofNat 12 (didOf s lp) }
  let s := copyGone orig s
  match pageBinding s lp pasid (a / 16384) with
  | none => complete f stUnsup [] 0 (bump .pageMiss 0 s)
  | some i =>
    let off := a % 16384
    if !takesRequests s then
      (if isPosted f then addNotice (handleOf s 1 i) .unavailable 0 (epochNow s) s else complete f stUnavail [] 0 s)
    else if f.opcode == 0x01 then pageRead i (.den f) off (min f.length.toNat (16384 - off)) s
    else complete f stOK [] (epochNow s) (pageWrite i off f.data (isPosted f) s)

/-- The PASID that a Den host's request carries in its Binding field (R451). -/
def framePasid (f : Frame) : Nat := f.binding.toNat % 2 ^ 20

/-- An IO request that no window of its context takes goes to the binding pages (R462, DEDUCED, assumption 17). -/
def isPageAccess (s : State) (lp : Nat) (f : Frame) : Bool :=
  f.cls == clsIO && f.opcode.toNat ≤ 3 && decide (fAddr f < 2 ^ 24) && (match resolve s lp (framePasid f) (fAddr f) (reachOf f) with
    | .miss => true
    | _ => false)

/-- A frame discarded at ingress: its credits return. -/
def dropFrame (orig : Nat) (s : State) : State := copyGone orig s

/-- A mark falls on a binding's request (R170). -/
def markBinding (b : Handle) (colour : Nat) (s : State) : State :=
  modBind (hIdx b) (fun x => if colour = 2 then { x with redMark := some (now s) } else { x with lightMark := some (now s) }) s

/-- A throttle notice reaches a binding's ingress device (R235, R266, R269, R288): the effective rate falls, at most once in 8 µs. `foreign` says that it came as a frame. -/
def throttleNotice (b : Handle) (foreign : Bool) (s : State) : State :=
  match liveBind s b with
  | none => if foreign then bump .shForeign (hIdx b) s else bump .throttleDisc 0 s
  | some _ =>
    let k := hIdx b
    let x := shaperOf s k
    let recent := match x.lastDec with
      | some t => decide (now s < t + 8000)
      | none => false
    if !x.par.throttle then bump .shNotApplied k (setShaper k { x with lastNotice := now s } s)
    else if recent then bump .shNotApplied k (setShaper k { x with lastNotice := now s } s)
    else
      let r := x.par.rate * one24
      let re := max (x.re - x.re / 2 ^ x.par.d) (r / 2 ^ x.par.f)
      bump .shDec k (setShaper k { x with re := re, lastDec := some (now s), lastNotice := now s } s)

/-- A THROTTLE frame at the binding's device (R235, R269): its payload names the binding and the colour. -/
def takeThrottle (f : Frame) (s : State) : State :=
  let b := handleAt f.data 0
  let s := if (liveBind s b).isSome then markBinding b (fieldAt f.data 5 1) s else s
  throttleNotice b true s

/-- A THROTTLE frame has reached the device of its binding: its destination is no other module (R269). -/
def throttleHere (s : State) (f : Frame) : Bool :=
  f.cls == clsIO && f.opcode == 0xF0 && !(rKind (routeEntry s f.did.toNat) == 1 && isFabric s (rLp (routeEntry s f.did.toNat)))

/-- A request on a fabric port (R191, R193, R248): its fields are taken, the reserved colour becomes red, and the hops go down by one. -/
def fabricRequest (lp : Nat) (f : Frame) (arrived orig : Nat) (s : State) : State :=
  if f.hops == 0 then
    dropFrame orig (raise { code := 0x020F, cls := .notice, block := lp / 2, arg := f.did.toNat } (bump .routeDisc lp s))
  else
    let s := if f.colour == 3 then (if isCxl s lp then violation lp 2 s else protoError lp s) else s
    let f := { f with colour := if f.colour == 3 then 2 else f.colour, hops := f.hops - 1 }
    if throttleHere s f then dropFrame orig (takeThrottle f s)
    else if !takesRequests s && !isNotice f && f.opcode.toNat < 0x20 then copyGone orig (targetGone f stUnavail s)
    else meterAndShape lp f arrived orig s

/-- Classify a request that arrives on a Den link (R186, R189, R191 to R193). -/
def classifyDen (lp : Nat) (f : Frame) (arrived orig : Nat) (s : State) : State :=
  if !hchkOk f then dropFrame orig (hchkFailure lp (lp / 2) f s)
  else if !opcodeListed f.cls f.opcode.toNat then dropFrame orig (protoError lp s)
  else if isHost s lp then
    (if f.cls == clsIO && f.opcode == 0xF0 then dropFrame orig (protoError lp s)
     else if isPageAccess s lp f then denPage lp (framePasid f) f orig s
     else hostRequest lp (framePasid f) f arrived orig s)
  else if isFabric s lp then fabricRequest lp f arrived orig s
  else dropFrame orig (agentViolation lp s)

/-- What a frame on its way carries of its original's payload as it now stands: a part from its offset on (R474). -/
def refill (f : Frame) (off : Nat) (data : Bytes) : Frame := { f with data := (data.drop off).take f.data.length }

/-- More bytes of an original that was taken before it was whole (R204, R205, R208): what waits at its shaper or for its route, its crossbar requests, its egress queue or its link takes them. -/
def moreBytes (orig : Nat) (data : Bytes) (arrived : Nat) (s : State) : State :=
  let xr := fun (x : XReq) => if x.orig == orig && decide (x.arrived < frameLen x.f) then { x with f := refill x.f x.off data, arrived := min (frameLen x.f) (arrived - x.off) } else x
  let s := modSw (fun w => { w with reqs := w.reqs.map xr, holds := w.holds.map (fun e => (e.1, { e.2 with frames := e.2.frames.map xr })), queues := w.queues.map (fun e => (e.1, { e.2 with frames := e.2.frames.map (fun q => if !q.whole && q.orig == orig then { q with f := refill q.f 0 data, avail := arrived, whole := decide (frameLen q.f ≤ arrived) } else q) })) }) s
  let s := modTm (fun t => { t with held := t.held.map (fun e => (e.1, e.2.map (fun h => if h.orig == orig then { h with f := refill h.f 0 data, arrived := arrived } else h))) }) s
  mapTx (fun x => if x.early && x.orig == orig then { x with f := refill x.f 0 data, rest := (frameBytes (refill x.f 0 data)).drop (frameLen x.f - x.rest.length), avail := arrived, early := decide (arrived < frameLen x.f) } else x) s

/-- What tells a frame at its ingress port apart: its class, opcode and tag as they arrived. -/
def frameKey (f : Frame) : Nat := f.cls.toNat * 2 ^ 24 + f.opcode.toNat * 2 ^ 16 + f.tag.toNat

/-- The original of a frame that was taken before it was whole and waits for the rest of its bytes (R204). -/
def earlyOf (s : State) (lp : Nat) (f : Frame) : Option Nat := ((rxOf s lp).early.find? (fun e => e.1 == frameKey f)).map (·.2)

/-- A frame is taken: one that is not whole yet will be known again (R204). -/
def noteEarly (lp : Nat) (f : Frame) (arrived orig : Nat) (s : State) : State :=
  if arrived < frameLen f then modRx lp (fun r => { r with early := r.early ++ [(frameKey f, orig)] }) s else s

/-- More bytes of a known frame come (R204); the last ones end the knowledge. -/
def takeMore (lp : Nat) (f : Frame) (arrived orig : Nat) (s : State) : State :=
  let s := moreBytes orig f.data arrived s
  if arrived < frameLen f then s else modRx lp (fun r => { r with early := r.early.filter (fun e => e.2 != orig) }) s

end Sys2Proof.Machine
end

