-- ==== Sys2Proof/Machine/CxlOut.lean ====
section
/-! DEFINITION. Frames that leave on a CXL port: the messages they become, the requests outstanding towards a CXL device, and DevLoad (R157 to R171, R186, R308, R310). -/

namespace Sys2Proof.Machine

/-- The DevLoad of a message to a host (R170): where several rows of the table hold, the lowest row wins (DEDUCED, assumption 59). The row Light Load never stands alone: whenever it holds, Optimal Load holds too. A response whose request has no live binding reads Optimal Load (DESIGN CHOICE, assumption 119). -/
def devLoadOf (s : State) (b : Handle) : Nat :=
  match liveBind s b with
  | none => 1
  | some x =>
    let recent := fun (m : Option Nat) => match m with
      | some t => decide (now s < t + 10000)
      | none => false
    let sh := shaperOf s (hIdx b)
    if recent x.redMark || decide (sh.re < sh.par.rate * one24) then 3
    else if recent x.lightMark then 2
    else 1

/-- The kind of a CXL host's request by its tag: 0 a read of memory, 1 another M2S Req, 2 an RwD, 3 a CXL.io read, 4 a CXL.io write, 5 an AtomicOp. -/
def hostKind (s : State) (n tag : Nat) : Nat := (((cxlOf s n).hostReqs.find? (fun e => e.1 == tag)).map (·.2)).getD 1

/-- The line of all ones that a read of a target that cannot be reached returns (R172, R467). -/
def onesLine : Line := BitVec.ofNat 512 (2 ^ 512 - 1)

/-- A value with no meaning: the data that comes with Poison when none arrived (R176 class C7). -/
def freeLine (s : State) : Line × State :=
  let (v, s) := drawFree s
  (BitVec.ofNat 512 v, s)

/-- The MetaValue of a grant (R310). -/
def metaOf (f : Frame) : Meta :=
  match f.cls.toNat, f.opcode.toNat with
  | 0, 0x81 => .a
  | 0, 0x82 => .s
  | 0, 0x83 => .s
  | _, _ => .i

/-- A response that a CXL host receives (R172, R176, R310, R467): by the kind of the request, and an error by what CXL can say. -/
def hostAnswer (n : Nat) (f : Frame) (s : State) : State :=
  let tag := f.tag.toNat
  let kind := hostKind s n tag
  let dl := devLoadOf s f.binding
  let s := modCxl n (fun c => { c with hostReqs := c.hostReqs.filter (fun e => e.1 != tag) }) s
  let good := f.status == stOK || f.status == stPoison
  let poison := f.status == stPoison || f.status == stTimeout
  if kind ≥ 3 then
    -- the wire data of a completion without success is empty
    cxlSend n (.ioCpl tag good (if good then f.data else [])) s
  else if kind = 2 then cxlSend n (.ndr false tag dl) s
  else if !f.data.isEmpty && good then
    let s := if poison then bump .poison n s else s
    cxlSend n (.drs (metaOf f) false tag (lineFrom f.data) poison dl) s
  else if kind = 0 then
    (if f.status == stTimeout then
      let (d, s) := freeLine s
      cxlSend n (.drs .i false tag d true dl) s
     else cxlSend n (.drs .i true tag onesLine false dl) s)
  else cxlSend n (.ndr (f.cls == clsCM && f.opcode == 0x85) tag dl) s

/-- A snoop that a CXL host receives (R310): its tag names the slice and the tracker. -/
def hostSnoop (n : Nat) (src : XIn) (f : Frame) (s : State) : State :=
  let i := match src with
    | .slice i => i
    | _ => homeSlice (lineOf (fAddr f))
  let tag := i * 65536 + f.tag.toNat
  let s := modCxl n (fun c => { c with bisnp := c.bisnp ++ [(tag, f.opcode.toNat)] }) s
  cxlSend n (.bisnp (f.opcode != 0x20) (fAddr f) tag) s

/-- A CXL.cache message as a frame of class BM (R162, DESIGN CHOICE, assumption 25): the opcode holds the channel, the direction and whether the message ends its transaction. -/
def cacheFrame (s : State) (n t chan : Nat) (h2d : Bool) (cacheId cqid : Nat) (last : Bool) (data : Bytes) : Frame :=
  sealHdr { opcode := BitVec.ofNat 8 (0x40 + chan % 3 + 8 * b2n h2d + 16 * b2n last), cls := clsBM, chan := 4, priv := true, hops := 15, did := BitVec.ofNat 12 (didOf s t), sid := BitVec.ofNat 12 (didOf s n), tag := BitVec.ofNat 16 cqid, addr := BitVec.ofNat 64 cacheId, length := BitVec.ofNat 16 data.length, data := data }

/-- The CXL.cache message that a frame carries. -/
def cacheOf (f : Frame) : CxlMsg :=
  let op := f.opcode.toNat
  .cache (op % 8) (bitOf op 3) (fAddr f) f.tag.toNat (bitOf op 4) f.data

/-- A CXL.cache message leaves (R162): a request stays outstanding on the port by CacheID and CQID until the message that ends it (R176 class C3). -/
def sendCache (n : Nat) (f : Frame) (s : State) : State :=
  let s := if f.opcode.toNat % 8 = 0 then modCxl n (fun c => { c with cq := c.cq ++ [(fAddr f, f.tag.toNat)] }) s else s
  cxlSend n (cacheOf f) s

/-- What a CXL host receives (R158, R310, R465, R478): responses, snoops, datagrams for its Receive address, CXL.cache, and messages. -/
def toHost (n : Nat) (src : XIn) (f : Frame) (s : State) : State :=
  if f.cls == clsMG then
    (match liveBind s f.binding with
     | some b => cxlSend n (.io .writeP 0 b.recv 0 f.data.length f.data) s
     | none => bump .mgDisc n s)
  else if isCache f then sendCache n f s
  else if isResponse f then hostAnswer n f s
  else if f.cls == clsCM && f.opcode.toNat ≥ 0x20 then hostSnoop n src f s
  else if f.cls == clsIO then cxlSend n (.io (if f.opcode == 0x04 then .message else .writeP) 0 f.addr.toNat 0 f.data.length f.data) s
  else s

/-- The lines that an access touches. -/
def lineSpan (a len : Nat) : List Nat := if len = 0 then [] else rangeFrom (a / 64) ((a + len - 1) / 64 + 1 - a / 64)

/-- Enter a request outstanding towards a CXL device; answers its tag (R177). -/
def openOut (n : Nat) (f : Frame) (read io : Bool) (a : Asker) (addr : Nat) (s : State) : Nat × State :=
  let t := (cxlOf s n).nextTag
  let o : OutReq := { tag := t, sid := f.sid.toNat, at_ := now s, read := read, asker := a, binding := f.binding, addr := addr, since := now s, io := io }
  (t, modCxl n (fun c => { c with nextTag := (t + 1) % 65536, out := c.out ++ [o] }) s)

/-- M2S Req for one line of a read. -/
def readLine (n : Nat) (f : Frame) (a : Asker) (l : Nat) (s : State) : State :=
  let (t, s) := openOut n f true false a (l * 64) s
  cxlSend n (.req .memRd .i (l * 64) t) s

/-- M2S RwD for one line of a write: MemWr for a whole line, MemWrPtl for a part. -/
def writeLine (n : Nat) (f : Frame) (a : Asker) (l : Nat) (s : State) : State :=
  let lo := max (fAddr f) (l * 64)
  let hi := min (fAddr f + f.data.length) (l * 64 + 64)
  let whole := decide (hi - lo = 64)
  let d := linePut 0 (lo - l * 64) ((f.data.drop (lo - fAddr f)).take (hi - lo))
  let mask := 2 ^ (hi - l * 64) - 2 ^ (lo - l * 64)
  let (t, s) := openOut n f false false a (l * 64) s
  cxlSend n (.rwd (!whole) .i (l * 64) t (BitVec.ofNat 64 mask) d (f.status == stPoison)) s

/-- What a CXL device receives (R158, R162, R310): bulk requests line by line, a home's answers to its back-invalidates, CXL.cache, AtomicOps unchanged, and CXL.io. A BFLUSH has no counterpart there, as the completion of a CXL write says that it is held (R402, DEDUCED, assumption 60). -/
def toDevice (n : Nat) (src : XIn) (f : Frame) (s : State) : State :=
  let asker := if isPosted f then .none_ else askerOf src f
  if isCache f then sendCache n f s
  else match f.cls.toNat, f.opcode.toNat with
  | 1, 0x01 =>
    let asker := match asker with
      | .frame g => .frame { g with data := zeros g.length.toNat }
      | a => a
    (lineSpan (fAddr f) f.length.toNat).foldl (fun s l => readLine n f asker l s) s
  | 1, 0x02 => (lineSpan (fAddr f) f.data.length).foldl (fun s l => writeLine n f asker l s) s
  | 1, 0x03 => (lineSpan (fAddr f) f.data.length).foldl (fun s l => writeLine n f (.posted f) l s) s
  | 1, _ => complete f stUnsup [] (epochNow s) s
  | 0, op =>
    if op = 0x05 || op = 0x06 || op = 0x07 then
      let (t, s) := openOut n f true true asker (fAddr f) s
      cxlSend n (.io (.atomic f.opcode) 0 (fAddr f) t f.data.length f.data) s
    else if op < 0x90 then s
    else
      let s := if f.data.isEmpty || op == 0x92 || op == 0x94 || op == 0x97 then s
        else writeLine n f .none_ (lineOf (fAddr f)) s
      cxlSend n (.birsp (op == 0x91 || op == 0x94 || op == 0x95) false f.tag.toNat) s
  | 2, op =>
    if op = 0x01 then
      let (t, s) := openOut n f true true asker (fAddr f) s
      cxlSend n (.io .read 0 (fAddr f) t f.length.toNat []) s
    else if op = 0x02 then
      let (t, s) := openOut n f false true asker (fAddr f) s
      cxlSend n (.io .writeNP 0 (fAddr f) t f.data.length f.data) s
    else cxlSend n (.io (if op = 0x03 then .writeP else .message) 0 (fAddr f) 0 f.data.length f.data) s
  | _, _ => s

/-- A header and the data units of a CXL.io message (R165). -/
def ioNeeds (chan bytes : Nat) : List (Nat × Nat) := (chan, 1) :: (if bytes = 0 then [] else [(chan + 4, dataUnits bytes)])

/-- The CXL credits that a frame needs at a port: channel and number (R163, R164). The channels are those of the credit table. -/
def cxlNeeds (s : State) (n : Nat) (f : Frame) : List (Nat × Nat) :=
  if isFabric s n then creditNeeds (.pbr f)
  else if isCache f then creditNeeds (cacheOf f)
  else if isHost s n then
    (if f.cls == clsMG || (f.cls == clsIO && !isResponse f) then ioNeeds 6 f.data.length
     else if isResponse f then
       (let k := hostKind s n f.tag.toNat
        if k ≥ 3 then ioNeeds 8 f.data.length else if k = 0 || !f.data.isEmpty then [(4, 1)] else [(3, 1)])
     else [(5, 1)])
  else match f.cls.toNat, f.opcode.toNat with
    | 1, 0x01 => [(0, (lineSpan (fAddr f) f.length.toNat).length)]
    | 1, _ => [(1, (lineSpan (fAddr f) f.data.length).length)]
    | 0, op => if op < 0x90 then ioNeeds 7 f.data.length else if f.data.isEmpty then [(2, 1)] else [(1, 1), (2, 1)]
    | 2, op => if op = 0x01 then ioNeeds 7 0 else ioNeeds (if op = 0x02 then 7 else if op ≥ 0x80 then 8 else 6) f.data.length
    | _, _ => []

/-- The partner's credits suffice, ahead of nothing that waits for them (R164). -/
def cxlCredits (s : State) (n : Nat) (f : Frame) : Bool :=
  (cxlNeeds s n f).all (fun e => decide (e.2 ≤ tget (cxlOf s n).credits e.1))

/-- Hand a frame to a CXL link (R162, R164, R186): a frame that fails its header check is never delivered; on a fabric port the frame crosses as it is (R194). -/
def sendCxl (n : Nat) (src : XIn) (f : Frame) (s : State) : State :=
  if !hchkOk f then hchkFailure n (n / 2) f s
  else if isFabric s n then cxlSend n (.pbr f) s
  else if isHost s n then toHost n src f s
  else toDevice n src f s

/-- Take a message's credits (R163, R176 class C1): beyond what the port advertised it is discarded. Answers the number of its place in the channel buffer. -/
def takeCredits (n : Nat) (m : CxlMsg) (s : State) : Option Nat × State :=
  match chanOfCxl m with
  | none => (match m with
    | .pbr _ => let (o, s) := openOrig n 255 0 1 true s
                (some o, s)
    | _ => (some 0, s))
  | some (c, d) =>
    let used := (cxlOf s n).used
    let over_ := decide (tget used c ≥ creditLimit s n c) || (d > 0 && decide (tget used (c + 4) + d > creditLimit s n (c + 4)))
    if over_ then (none, violation n 1 s)
    else
      let s := modCxl n (fun x => { x with used := if d = 0 then tmod x.used c (· + 1) else tmod (tmod x.used c (· + 1)) (c + 4) (· + d) }) s
      let (o, s) := openOrig n c d 1 true s
      (some o, s)

/-- Note a host's request by its tag and kind. -/
def noteHost (n tag kind : Nat) (s : State) : State := modCxl n (fun c => { c with hostReqs := c.hostReqs ++ [(tag, kind)] }) s

/-- The kind of a host's request from its frame (see `hostKind`). -/
def hostKindOf (f : Frame) : Nat :=
  if f.cls == clsIO then (if f.opcode == 0x01 then 3 else 4)
  else if isAtomic f then 5
  else if f.opcode == 0x01 || (f.cls == clsCM && (f.opcode == 0x02 || f.opcode == 0x04)) then 0
  else if isWrite f then 2
  else 1

end Sys2Proof.Machine
end

