-- ==== Sys2Proof/Machine/Table.lean ====
section
/-! DEFINITION. The board table: when it is accepted, its lane entries, and the coefficients interpolated to the lid temperature (R49 to R56). -/

namespace Sys2Proof.Machine

/-- Two's complement of an n-bit number. -/
def signedOf (n v : Nat) : Int := if v < 2 ^ (n - 1) then (v : Int) else (v : Int) - (2 ^ n : Nat)

/-- A temperature point's coefficients (R49): five FIR taps, CTLE peaking and gain, then FFE c0 to c23. -/
def pointAt (b : Bytes) (off : Nat) : List Int :=
  let h := (b.drop off).take 64
  (List.range 5).map (fun k => sfieldAt h k 1) ++ [(fieldAt h 5 1 : Int), (fieldAt h 6 1 : Int)]
    ++ (List.range 24).map (fun k => sfieldAt h (8 + 2 * k) 2)

/-- The limits of a temperature point (R49). -/
def pointOk (b : Bytes) (off : Nat) : Bool :=
  let p := pointAt b off
  decide (((p.take 5).foldl (fun n x => n + x.natAbs) 0) ≤ 127) && decide (p.getD 3 0 ≥ 64) && decide (p.getD 5 0 ≤ 31) && decide (p.getD 6 0 ≤ 15)
    && fieldAt b (off + 7) 1 == 0 && fieldAt b (off + 56) 8 == 0

/-- The limits of a lane entry (R49, R51); those of a set hold whether or not its flag says that it is valid (DEDUCED, assumption 24). -/
def laneOk (b : Bytes) (lane : Nat) : Bool :=
  let e := (b.drop (128 + 400 * lane)).take 400
  let fl := fieldAt e 2 1
  fieldAt e 0 2 == lane && decide (fl < 16) && decide (fieldAt e 3 1 % 16 ≤ 10) && decide (fieldAt e 3 1 / 16 ≤ 10) && fieldAt e 4 12 == 0
    && [16, 80, 144, 208, 272, 336].all (pointOk e)

/-- A digest matches an owner-key slot that is programmed and not revoked (R49, R549). -/
def ownerKnown (f : Fuses) (d : Digest) : Bool :=
  (List.range 4).any (fun k => bitOf f.programmed k && !bitOf f.revoked k && tget f.owners k == d)

/-- The table's embedded public key. -/
def tableKey (b : Bytes) : Bytes := (b.drop 409728).take 2592

/-- The table's owner-key hash field. -/
def tableKeyHash (b : Bytes) : Digest := BitVec.ofNat 512 (fieldAt b 24 64)

/-- The header and lane entries of a table keep their limits (R49, R51). -/
def tableForm (b : Bytes) : Bool :=
  b.length == 416947 && fieldAt b 0 4 == 0x42545145 && fieldAt b 4 2 == 1 && fieldAt b 6 2 == 1024 && fieldAt b 20 2 == 400
    && fieldAt b 22 2 == 0 && fieldAt b 88 40 == 0 && (List.range 1024).all (laneOk b)

/-- The table's signature verifies with its key, and the key is an owner's (R49). -/
def tableAuth (f : Fuses) (b : Bytes) : Bool :=
  Config.sha3 (tableKey b) == tableKeyHash b && ownerKnown f (tableKeyHash b)
    && Config.verify (tableKey b) (b.take 412320) ((b.drop 412320).take 4627)

/-- The table in use: the ledger's copy, once accepted. -/
def tableBytes (s : State) : Bytes := (tget s.sec.tables s.ledger.tableCopy).bytes

/-- A lane's flags in the table (R49). -/
def laneFlags (s : State) (lane : Nat) : Nat := fieldAt (tableBytes s) (128 + 400 * lane + 2) 1

/-- Every lane of a logical port has a valid set for its mode (R52). -/
def setsValid (s : State) (n : Nat) : Bool :=
  (lanesOf s n).all (fun l => bitOf (laneFlags s l) (if isCxl s n then 3 else 2))

/-- Linear interpolation rounded half away from zero (R54); temperatures in 0.1 °C. -/
def interp (a b : Int) (lo hi t : Int) : Int :=
  let num := a * (hi - t) + b * (t - lo)
  let den := hi - lo
  let m := (2 * num.natAbs + den.natAbs) / (2 * den.natAbs)
  if num < 0 then -(m : Int) else (m : Int)

/-- A lane's coefficients at a lid estimate (R54, R55): the two points that bracket it, or the end point beyond them. -/
def laneCoeffs (s : State) (n lane : Nat) (t : Int) : List Int :=
  let base := 128 + 400 * lane + (if isCxl s n then 208 else 16)
  let p := fun (k : Nat) => pointAt (tableBytes s) (base + 64 * k)
  if t ≤ -200 then p 0
  else if t ≥ 800 then p 2
  else if t ≤ 350 then ((p 0).zip (p 1)).map (fun x => interp x.1 x.2 (-200) 350 t)
  else ((p 1).zip (p 2)).map (fun x => interp x.1 x.2 350 800 t)

/-- The lid estimate of a logical port's die (R54). -/
def lidOf (s : State) (n : Nat) : Int := s.therm.lids.getD (dieOf n) 0

/-- Load and freeze a port's coefficients at its link-up (R54, R56, R57). -/
def loadCoeffs (n : Nat) (s : State) : State :=
  let t := lidOf s n
  let s := (lanesOf s n).foldl (fun s l => modLane l (fun x => { x with coeffs := laneCoeffs s n l t }) s) s
  modLp n (fun l => { l with lidAtUp := t, driftRaised := false }) s

end Sys2Proof.Machine
end

