-- ==== Sys2Proof/Machine/Flits.lean ====
section
/-! DEFINITION. Flits on the lanes of a Den port: their bytes, the lanes that carry them, alignment markers, codewords, and how a port sends one (R45, R46, R92 to R97, R109, R116, R154). -/

namespace Sys2Proof.Machine

/-- The CRC-64 of a flit (R95). -/
def crc64 (p : Bytes) : BitVec 64 := ~~~ (p.foldl (crcByteMsb 64 0x42F0E1EBA9EA3693#64) 0xFFFFFFFFFFFFFFFF#64)

/-- The 256 bytes of a flit (R92, R93, R95). -/
def flitBytes (ty seq ack snak : Nat) (rpl : Bool) (payload : Bytes) : Bytes :=
  let h := seq % 65536 + ack % 65536 * 2 ^ 16 + snak % 65536 * 2 ^ 32 + ty % 16 * 2 ^ 48 + b2n rpl * 2 ^ 52
  let body := leBytes 8 h ++ (payload ++ zeros 240).take 240
  body ++ leBytes 8 (crc64 body).toNat

/-- The body of an INIT flit (R109). -/
def initBody (m : InitMsg) : Bytes :=
  [m.subtype, m.version, m.lp, m.width, m.twin, m.twinPartner, BitVec.ofNat 8 (b2n m.twinNamed + 2 * b2n m.partnerNamed + 4 * b2n m.resume), 0]
    ++ leBytes 8 m.serial.toNat ++ leBytes 8 m.sendStamp.toNat ++ leBytes 8 m.echoed.toNat ++ leBytes 8 m.residence.toNat
    ++ (List.range 8).flatMap (fun c => leBytes 2 (m.credits.getD c 0)) ++ leBytes 2 m.resumeAck.toNat ++ leBytes 2 m.resumeSeq.toNat

/-- A receiver holds a flit out of order (R119). -/
def heldFlit (r : DenRx) (q : Nat) : Bool := r.held.any (fun x => x.seq == q)

/-- The SNAK that a receiver sends (R120). -/
def snakOf (r : DenRx) : Nat :=
  (List.range 16).foldl (fun m i =>
    let q := (r.ack + 1 + i) % 65536
    if dist r.ack q ≤ dist r.ack r.known && !heldFlit r q then m + 2 ^ i else m) 0

/-- The lanes that a link runs on: 8, or 4 (R109, R149). -/
def widthNow (s : State) (n : Nat) : Nat := if (cfgOf s n).width == 4 || (lpOf s n).width4.isSome then 4 else 8

/-- The device lanes that a link runs on: all of its port's or half-port's, or those of one half (R149). -/
def lanesInUse (s : State) (n : Nat) : List Nat :=
  match (lpOf s n).width4 with
  | some h => if (lanesOf s n).length = 8 then ((lanesOf s n).drop (4 * h.val)).take 4 else lanesOf s n
  | none => lanesOf s n

/-- The bytes of a flit that lane `m` of `w` carries: byte k goes to lane k mod w (R96). -/
def stripe (w m : Nat) (p : Bytes) : Bytes := (List.range (256 / w)).map (fun j => p.getD (w * j + m) 0)

/-- The flit that its lanes' bytes make up: byte k is byte k / w of lane k mod w (R96). -/
def unstripe (w : Nat) (lane : Nat → Bytes) : Bytes := (List.range 256).map (fun k => (lane (k % w)).getD (k / w) 0)

/-- The flits of one marker interval on `w` lanes (R45, R96): 16,384 codewords hold 642.5 × 16,384 bytes of each lane. -/
def flitsPerMarker (w : Nat) : Nat := 10526720 / (256 / w)

/-- The flits that have a byte in a lane's codeword `idx` since the marker (R96, R97): the first, and the one after the last. A codeword holds 5,140 data bits of its lane. -/
def condemnedBy (w idx : Nat) : Nat × Nat := (5140 * idx / 8 / (256 / w), (5140 * (idx + 1) - 1) / 8 / (256 / w) + 1)

/-- An alignment marker on every lane that a link runs on, each with its lane's number within the port (R45, R46); the transmitted polarity follows the board table (R33). The next flit is the first after it. -/
def sendMarkers (n : Nat) (s : State) : State :=
  let s := (lanesInUse s n).foldl (fun s k => emit (.marker k (k % 8) (tget s.net.lanes k).txInv) s) s
  modTx n (fun t => { t with pos := 0 }) s

/-- A transmitter that starts or restarts is led by a marker (R45, R58 step 3, R83). -/
def startTx (n : Nat) (s : State) : State :=
  if (txOf s n).on then s else sendMarkers n (modTx n (fun t => { t with on := true }) s)

/-- Put the bytes of a flit on the lanes, after the marker that is due (R45, R96). -/
def putFlit (n : Nat) (p : Bytes) (s : State) : State :=
  let w := widthNow s n
  let s := startTx n s
  let s := if (txOf s n).pos ≥ flitsPerMarker w then sendMarkers n s else s
  let s := bump .flitsSent n (modTx n (fun t => { t with pos := t.pos + 1 }) s)
  emit (.flit n ((lanesInUse s n).map (fun k => (k, stripe w (k % w) p)))) s

/-- Send a flit with the port's ACK and SNAK (R116, R154). -/
def sendFlit (n ty seq : Nat) (rpl : Bool) (payload : Bytes) (s : State) : State :=
  let r := rxOf s n
  let s := if rpl then bump .retx n s else s
  putFlit n (flitBytes ty seq r.ack (snakOf r) rpl payload) (modTx n (fun t => { t with ackSent := r.ack }) s)

/-- Send an INIT flit (R110): its ACK and SNAK, which R116 leaves open, are 0 (DESIGN CHOICE, assumption 104). -/
def sendInit (n : Nat) (m : InitMsg) (s : State) : State :=
  putFlit n (flitBytes 3 (txOf s n).next 0 0 false (initBody m)) s

end Sys2Proof.Machine
end

