-- ==== Sys2Proof/Machine/DenInit.lean ====
section
/-! DEFINITION. The Den link: acknowledgements, initialisation, probation, failover and failback, retraining, width changes and the power states (R58, R77 to R83, R108 to R112, R121, R132 to R153, R753 to R755). -/

namespace Sys2Proof.Machine

/-- An acknowledged slot of a valid twin pair stays while a frame with a segment in it has no acknowledged EOF (R140). -/
def slotKept (s : State) (n a : Nat) (x : RepSlot) : Bool :=
  (twinOf s n).isSome && x.open_ &&
    ((txOf s n).replay.any (fun y => isAfter a y.seq && y.sofs.any (fun f => !isAfter x.seq f.1)) || (txOf s n).frames.any (fun t => t.begun && !isAfter x.seq t.sof.1))

/-- Leave the replay-full time of R118: counted while the buffer held 4,096 flits (R154). -/
def replaySpace (n : Nat) (s : State) : State :=
  match (txOf s n).fullSince with
  | some t => if (txOf s n).replay.length < 4096 then bumpC .replayFull n 0 (now s - t) {} (modTx n (fun x => { x with fullSince := none }) s) else s
  | none => s

/-- Queue one retransmission of a held slot, when its holdoff is over (R121). -/
def askAgain (n q : Nat) (s : State) : State :=
  let t := txOf s n
  match t.replay.find? (fun x => x.seq == q) with
  | none => s
  | some x =>
    if now s < x.holdoff then s
    else modTx n (fun t => { t with retx := if t.retx.contains q then t.retx else t.retx ++ [q], replay := t.replay.map (fun y => if y.seq == q then { y with holdoff := now s + t.rtt + 500 } else y) }) s

/-- When the replay timer next expires (R122): an interval after u advanced, or after it last expired. -/
def replayDue (t : DenTx) : Nat := max t.lastAdv t.lastTo + 2 * t.rtt + 1000

/-- A sender handles an arriving ACK and SNAK (R121); an ACK that advances u on the tick of the replay timer counts a near miss (R155). -/
def takeAck (n a snak : Nat) (s : State) : State :=
  let t := txOf s n
  let u1 := t.unacked + 65535
  if dist u1 a > dist u1 (t.next + 65535) then protoError n s
  else
    let moved := dist u1 a != 0
    let s := if moved && now s == replayDue t then bump .denNear n s else s
    let s := if moved then modTx n (fun t => { t with unacked := (a + 1) % 65536, replay := t.replay.filter (fun x => isAfter a x.seq || slotKept s n a x), retx := t.retx.filter (fun q => isAfter a q), lastAdv := now s }) s else s
    let s := replaySpace n s
    (List.range 16).foldl (fun s i => if bitOf snak i then askAgain n ((a + 1 + i) % 65536) s else s) s

/-- The HELLO of a port (R109, R145). -/
def helloOf (s : State) (n : Nat) : InitMsg :=
  let c := cfgOf s n
  let i := initOf s n
  { subtype := 1, lp := BitVec.ofNat 8 n, width := BitVec.ofNat 8 (widthNow s n), twin := BitVec.ofNat 8 c.twin, twinNamed := c.twinNamed, twinPartner := BitVec.ofNat 8 (if c.twinNamed && linkLive s c.twin then (initOf s c.twin).peer.lp.toNat else 0), partnerNamed := c.twinNamed && linkLive s c.twin, resume := i.resume, serial := s.fuses.serial, sendStamp := BitVec.ofNat 64 (ftCount s), credits := c.credits, resumeAck := if i.resume then BitVec.ofNat 16 (rxOf s n).ack else 0, resumeSeq := if i.resume then BitVec.ofNat 16 (txOf s n).next else 0 }

/-- The power domain of a logical port's port is On (R18, R58). -/
def portOn (s : State) (n : Nat) : Bool := decide ((tget s.pwr.doms (n / 2)).st = .on) && (tget s.pwr.doms (n / 2)).target.isNone

/-- The lanes that a link may come up on (R47, R149, R150), of those that locked: an unsplit x8 port takes all eight; the half that it runs on since R149, or that a partner's WIDTH_REQ names, when a width change does not ask for x8; and in a retrain the one half that locked. -/
def lockedWidth (s : State) (n : Nat) (ok : Nat → Bool) : Option (Option (Fin 2)) :=
  let i := initOf s n
  let half := fun (h : Nat) => (List.range 4).all (fun k => ok (4 * h + k))
  let asked : Option (Fin 2) := if i.want = 0x40 then some 0 else if i.want = 0x41 then some 1 else if i.retrain = 4 then none else (lpOf s n).width4
  if (lanesOf s n).length = 4 then (if half 0 then some none else none)
  else match asked with
    | some h => if half h.val then some (some h) else none
    | none =>
      if half 0 && half 1 then some none
      else if i.retrain = 3 || i.retrain = 4 then (if half 0 then some (some 0) else if half 1 then some (some 1) else none)
      else none

/-- The lane numbers in the partner's markers fit the port's lanes in order, or all of them reversed (R31, R46). -/
def marksFit (w : Nat) (marks : List (Option Nat)) (ks : List Nat) : Bool :=
  ks.all (fun k => (marks.getD k none).any (fun m => m % w == k % w)) || ks.all (fun k => (marks.getD k none).any (fun m => m % w == w - 1 - k % w))

/-- The places, within a logical port, of the lanes that a link comes up on. -/
def lanePlaces (w : Nat) (half : Option (Fin 2)) : List Nat :=
  match half with
  | some h => rangeFrom (4 * h.val) 4
  | none => List.range w

/-- The polarities of a lane as the board table's flags give them (R33, R34). -/
def setPolarity (lane : Nat) (s : State) : State :=
  let fl := laneFlags s lane
  modLane lane (fun x => { x with txInv := bitOf fl 0, rxInv := bitOf fl 1 }) s

/-- Steps 2 to 4 of a link-up are done (R31, R33, R34, R46, R47, R58, R109, R149): coefficients are loaded and frozen, the transmitter runs, led by a marker, and HELLO flits start. `marks` holds the lane number in the marker that each lane found, `inv` the lanes whose signal arrives inverted: a lane that the table's flag does not correct finds no marker. Skew beyond 80 ns, lanes that did not lock, and a port in electrical idle bring nothing up. An exit from DL2 keeps its coefficients (R77). -/
def denLinkUp (n : Nat) (marks : List (Option Nat)) (inv : BitVec 8) (skew : Nat) (s : State) : State :=
  let l := lpOf s n
  if !isDen s n || l.link != .training || l.idleUntil.isSome || (initOf s n).step ≠ 0 || !portOn s n || !s.sec.tableOk || decide (skew > 80) then s
  else
    let lanes := lanesOf s n
    let w := lanes.length
    let s0 := lanes.foldl (fun s k => setPolarity k s) s
    let ok := fun (i : Nat) => decide (i < w) && (marks.getD i none).isSome && inv.getLsbD i == (tget s0.net.lanes (lanes.getD i 0)).rxInv
    match lockedWidth s n ok with
    | none => s
    | some half =>
      if !marksFit w marks (lanePlaces w half) then s
      else
        let degraded := half.isSome && l.width4.isNone && (initOf s n).want = 0
        let s := if (initOf s n).resume then s0 else takeNext n s0
        let s := modLp n (fun l => { l with width4 := half, huntFrom := none }) s
        let s := if (initOf s n).retrain = 5 then s else loadCoeffs n s
        let s := lanes.zipIdx.foldl (fun s e => modLane e.1 (fun x => { x with locked := ok e.2, num := (marks.getD e.2 none).getD 0, huntSince := none }) s) s
        let s := modRx n (fun r => { r with pos := 0, bad := [] }) s
        let s := if degraded then raise { code := 0x020D, cls := .degraded, block := n / 2, arg := n } s else s
        let t := now s
        let s := modInit n (fun i => { i with step := 1, began := t, hellos := 0, gotDone := false, resume := decide (i.retrain ≥ 3) && !l.sinceUpDown }) s
        sendInit n (helloOf s n) (startTx n s)

/-- Hold a port out of service as its initialisation does not fit (R111). -/
def initMismatch (n : Nat) (s : State) : State :=
  let carried := (initOf s n).retrain ≠ 0
  let s := raise { code := 0x0208, cls := .severe, block := n / 2, arg := n } s
  if carried then fall n 1 s
  else modInit n (fun _ => {}) (modLp n (fun l => { l with link := .outOfService }) s)

/-- A resume's numbers agree with this end's (R146). -/
def resumeOk (s : State) (n : Nat) (m : InitMsg) : Bool :=
  let t := txOf s n
  let u1 := t.unacked + 65535
  decide (dist u1 m.resumeAck.toNat ≤ dist u1 (t.next + 65535)) && !isAfter ((m.resumeSeq.toNat + 65535) % 65536) (rxOf s n).ack

/-- A valid HELLO (R110, R111, R146): after eight in a row each further one is answered with ECHO (DESIGN CHOICE, assumption 71). -/
def hello (n : Nat) (m : InitMsg) (s : State) : State :=
  let i := initOf s n
  if (lpOf s n).link != .training || i.step = 0 then s
  else if m.version != 1 || m.width.toNat != widthNow s n then initMismatch n s
  else if m.resume != i.resume || (m.resume && !resumeOk s n m) then fall n 0 s
  else
    let s := modInit n (fun i => { i with hellos := i.hellos + 1, step := if i.hellos + 1 ≥ 8 then max i.step 2 else i.step, peer := m }) s
    if i.hellos ≥ 8 then sendInit n { helloOf s n with subtype := 2, echoed := m.sendStamp, residence := 0 } s else s

/-- The pairing of R135 as both initialisations show it. -/
def pairingOk (s : State) (n t : Nat) : Bool :=
  let c := cfgOf s n
  let d := cfgOf s t
  let a := (initOf s n).peer
  let b := (initOf s t).peer
  d.mode == 1 && d.twinNamed && d.twin == n && d.width == c.width && a.serial == b.serial && a.twinNamed && a.twin == b.lp && b.twinNamed && b.twin == a.lp

/-- Check the pairing as a link comes up beside its named twin (R108, R135, R136): the credits of the link that is up go into the pool of a pair that is valid, and stay its own beside one that is not. -/
def checkPair (n : Nat) (s : State) : State :=
  let c := cfgOf s n
  let t := c.twin
  if !c.twinNamed || !linkLive s t then s
  else if pairingOk s n t then
    let s := modLp n (fun l => { l with twinBad := false, pooled := true }) (modLp t (fun l => { l with twinBad := false }) s)
    setPooled t true s
  else
    let s := setPooled t false s
    let s := modLp n (fun l => { l with twinBad := true, pooled := false }) (modLp t (fun l => { l with twinBad := true }) s)
    raise { code := 0x0207, cls := .degraded, block := n / 2, arg := n } s

/-- Send FAILBACK for a restored port on its twin, when it has moved destinations and its failback flag is set (R142, R143). -/
def sendFailback (n : Nat) (s : State) : State :=
  match liveTwin s n with
  | none => s
  | some t =>
    let x := failOf s n
    if x.moved.isEmpty || x.returning || x.sentFailback || !(cfgOf s n).failback || x.step ≠ 0 || !lpUp s n then s
    else sendCtrl t { subtype := 7, subject := BitVec.ofNat 8 n } (modFail n (fun x => { x with sentFailback := true }) s)

/-- A port returns to traffic (R132, R142, R753): its moved destinations come back by failback, or, when its twin is down, every destination of the twin moves to it. -/
def backToTraffic (n : Nat) (s : State) : State :=
  let s := agentBack n s
  match twinOf s n with
  | none => s
  | some t =>
    if lpUp s t then sendFailback n s
    else if linkLive s t || (initOf s t).retrain ≠ 0 || (failOf s t).step = 4 then s
    else if (didsVia s t).isEmpty then s
    else startFailover t n (failOf s t).lastDelivered s

/-- The credits of a fresh link: the partner's, unless the pair's pool stands (R108, R110, R226). The frames of the link before it return none. -/
def loadCredits (n : Nat) (s : State) : State :=
  let pooled := match twinOf s n with
    | some t => linkLive s t
    | none => false
  if pooled then s
  else
    let c := (initOf s n).peer.credits
    let p := poolOf s n
    let own := (cfgOf s n).credits
    let s := modSw (fun w => { w with origs := w.origs.map (fun e => if e.2.lp == n && !e.2.cxl then (e.1, { e.2 with cells := 0 }) else e) }) s
    modRx p (fun r => { r with open_ := own }) (modTx p (fun t => { t with credits := c, credOwed := [0, 0, 0, 0, 0, 0, 0, 0] }) s)

/-- Step I4 (R91, R108, R110, R132, R133, R144, R145, R148): the link is up, fresh or as a resume, and a DL2 entry asked for during an exit follows (DEDUCED, assumption 74). -/
def linkUp (n : Nat) (s : State) : State :=
  let l := lpOf s n
  let i := initOf s n
  let t := now s
  let fresh := !i.resume
  let s := if fresh then loadCredits n (checkPair n (resetSeq n s)) else s
  let s := if fresh then s else takeAck n i.peer.resumeAck.toNat 0 s
  let s := if fresh then s else modTx n (fun x => { x with retx := (x.replay.filter (fun y => isAfter i.peer.resumeAck.toNat y.seq)).map (·.seq) }) s
  let prob := l.wentDown || l.probation.isSome
  let s := modInit n (fun i => { peer := i.peer }) s
  let s := modLp n (fun l => { l with link := if prob then .probation else .up, probation := if prob then some (t + 10000000) else none, dl := .dl0, dlExit := none, dlReq := if l.dlReq = 3 then 2 else 0, sinceUpDown := false, wentDown := false, partner := i.peer.lp.toNat, lastFlit := t }) s
  let s := startUp n (modTx n (fun x => { x with lastAdv := t }) s)
  let s := if l.dlReq = 3 then sendCtrl n { subtype := 12, subject := BitVec.ofNat 8 n } s else s
  if prob then s else backToTraffic n s

/-- The first valid ECHO (R110 step I3, R125): the round trip, then DONE. -/
def echo (n : Nat) (m : InitMsg) (s : State) : State :=
  let i := initOf s n
  if (lpOf s n).link != .training || i.step ≠ 2 then s
  else
    let rtt := (ftCount s - m.echoed.toNat - m.residence.toNat) / 65536
    let s := modTx n (fun t => { t with rtt := rtt }) s
    let s := if rtt > (if widthNow s n == 8 then 9400 else 19300) then raise { code := 0x0209, cls := .notice, block := n / 2, arg := rtt } s else s
    let s := modInit n (fun i => { i with step := 3 }) s
    let s := sendInit n { helloOf s n with subtype := 3 } s
    if i.gotDone then linkUp n s else s

/-- A DONE (R110 step I4). -/
def doneMsg (n : Nat) (m : InitMsg) (s : State) : State :=
  let i := initOf s n
  if (lpOf s n).link != .training || i.step < 2 then s
  else if i.step = 3 then linkUp n (modInit n (fun i => { i with gotDone := true }) s)
  else modInit n (fun i => { i with gotDone := true, peer := { i.peer with lp := m.lp } }) s

/-- Initialisation has not completed within 10 ms of I1 (R112): it starts again, and the third failure quarantines the port. -/
def initTimeout (n : Nat) (s : State) : State :=
  let i := initOf s n
  if (lpOf s n).link != .training || i.step = 0 || decide (now s < i.began + 10000000) then s
  else
    let s := modInit n (fun i => { i with step := 0, hellos := 0, gotDone := false, attempts := i.attempts + 1 }) s
    if i.attempts + 1 ≥ 3 then fall n 2 s else s

/-- The 2 µs of electrical idle end (R128): the link-up starts from step 3, and a Den transmitter runs again, led by a marker (R45, R58). -/
def idleEnd (n : Nat) (s : State) : State :=
  match (lpOf s n).idleUntil with
  | some t =>
    if now s < t then s
    else
      let s := modLp n (fun l => { l with idleUntil := none }) s
      if isDen s n && (lpOf s n).link == .training && portOn s n then startTx n s else s
  | none => s

/-- Probation has lasted 10 ms (R132). -/
def probationEnd (n : Nat) (s : State) : State :=
  match (lpOf s n).probation with
  | some t =>
    if (lpOf s n).link != .probation || decide (now s < t) then s
    else backToTraffic n (modLp n (fun l => { l with link := .up, probation := none, lastFlit := now s }) s)
  | none => s

/-- The partner's FAILOVER on a twin link (R139 to R141, R754, R755): it ends the link's probation, is answered with FAILOVER unless one was sent, takes the subject port down, and starts the replay. -/
def failover (n : Nat) (m : CtrlMsg) (s : State) : State :=
  if !linkLive s n then s
  else match twinOf s n with
    | none => s
    | some t =>
      let s := if (lpOf s n).link == .probation then backToTraffic n (modLp n (fun l => { l with link := .up, probation := none, lastFlit := now s }) s) else s
      let s := if (failOf s t).step = 4 then s
        else if linkLive s t || (initOf s t).retrain ≠ 0 then denDown t s
        else startFailover t n (failOf s t).lastDelivered s
      replayOnTwin t m.lastDelivered.toNat s

/-- No FAILOVER from the partner 1 ms after F3 (R755). -/
def failoverAbandon (n : Nat) (s : State) : State :=
  let x := failOf s n
  if x.step ≠ 4 || decide (now s < x.sentAt + 1000000) then s else abandonHeld n s

/-- A FAILBACK is answered on the twin (R142). -/
def failback (n : Nat) (m : CtrlMsg) (s : State) : State :=
  if linkLive s n then sendCtrl n { subtype := 8, subject := m.subject } s else s

/-- The moved destinations of a port that its failback returns (R142, R197): those on its twin whose Primary it is. -/
def returnable (s : State) (n d : Nat) : Bool :=
  let e := routeEntry s d
  rKind e == 1 && rPrim e == n && (match twinOf s n with
    | some t => rLp e == t
    | none => false)

/-- Hold the next destination to be returned to a restored port (R142): its frames stay in their egress queues. When none is left the failback is complete, and it counts once for the port (DEDUCED, assumption 110). -/
def holdNext (n : Nat) (s : State) : State :=
  match twinOf s n, (failOf s n).moved.find? (returnable s n) with
  | some t, some d => modSw (fun w => { w with holds := tmod w.holds d (fun h => { h with why := some .failback, until_ := now s + (txOf s t).rtt + 1000, oldLp := t }) }) s
  | _, _ => bump .failbacks n (modFail n (fun x => { x with returning := false, moved := [] }) s)

/-- FAILBACK_DONE starts the return of the moved destinations (R142). -/
def failbackDone (n : Nat) (s : State) : State :=
  match twinOf s n with
  | none => s
  | some t =>
    if !(failOf s t).sentFailback || !lpUp s t then s
    else holdNext t (modFail t (fun x => { x with sentFailback := false, returning := true }) s)

/-- A flit of a link that is not acknowledged carries a frame of a destination, or the link holds one for its next flits (R142, R198). -/
def carries (s : State) (n did : Nat) : Bool :=
  let t := txOf s n
  t.frames.any (fun x => x.f.did.toNat == did) || t.replay.any (fun x => isAfter (t.unacked + 65535) x.seq && x.frames.any (fun f => f.did.toNat == did))

/-- A destination returns to its restored port once the twin's flits that carry it are acknowledged (R142, R197): its entry, its queued frames and its requests; then the next one. -/
def failbackMove (n did : Nat) (s : State) : State :=
  let h := tget s.sw.holds did
  if !(failOf s n).returning || h.why != some .failback || !(failOf s n).moved.contains did || carries s h.oldLp did then s
  else
    let s := modSw (fun w => { w with routes := w.routes.map (fun e => if e.1 == did && rLp e.2 == h.oldLp then (e.1, flipActive e.2) else e) }) s
    let (qs, xs, s) := takeAll h.oldLp (fun f => f.did.toNat == did) s
    let s := modSw (fun w => { w with reqs := w.reqs ++ xs.map (fun x => { x with dst := .lp n }) }) s
    let s := qs.foldl (fun s q => enqueue n q s) s
    let s := releaseHeld did (modFail n (fun x => { x with moved := x.moved.filter (· != did) }) s)
    holdNext n s

/-- A retrain begins (R144, R147), or an exit from DL2 initialises (R83, R145): sequence state, credits and buffers stay, and the initialisation will be a resume. `kind` is 3 for a retrain and 4 for a width change. -/
def beginRetrain (n kind : Nat) (s : State) : State :=
  let s := stopTx n (modLp n (fun l => { l with link := .training, idleUntil := none, dl := .dl0, dlExit := none, dlReq := 0 }) s)
  modInit n (fun i => { peer := i.peer, retrain := kind, want := i.want, resume := true }) s

/-- Ask the partner for a retrain, or for a width change back to x8 (R144, R150); what R148 held goes on. -/
def askRetrain (n : Nat) (widen : Bool) (s : State) : State :=
  let t := now s
  let s := modInit n (fun i => { i with retrain := if widen then 2 else 1, reqAt := some t, held := false }) s
  releaseFrom n (sendCtrl n { subtype := if widen then 3 else 1, subject := BitVec.ofNat 8 n, width := if widen then 8 else 0 } s)

/-- A retrain that `port.retrain` asks for (R148): on a twin pair the new frames of its destinations are held until the replay buffer is empty. -/
def portRetrain (n : Nat) (s : State) : State :=
  let widen := (lpOf s n).width4.isSome
  if (liveTwin s n).isSome then holdDids .retrain n (didsVia s n) (modInit n (fun i => { i with held := true, holdFor := widen }) s) else askRetrain n widen s

/-- The held port's replay buffer is empty (R148): its destinations move to the twin without loss, the frames queued for it first, and the retrain is asked for. -/
def retrainRelease (n : Nat) (s : State) : State :=
  let i := initOf s n
  let t := txOf s n
  if !i.held || !t.replay.isEmpty || !t.frames.isEmpty then s
  else match liveTwin s n with
    | none => askRetrain n i.holdFor s
    | some v =>
      let (dids, s) := moveRoutes n v s
      let (qs, xs, s) := takeAll n (fun f => dids.contains f.did.toNat) s
      let s := modSw (fun w => { w with reqs := w.reqs ++ xs.map (fun x => { x with dst := .lp v }) }) s
      let s := modFail n (fun x => { x with moved := x.moved ++ dids }) s
      askRetrain n i.holdFor (qs.foldl (fun s q => enqueue v q s) s)

/-- Own and partner's requests are simultaneous, and this end keeps its own (R151 to R153). -/
def keepsOwn (s : State) (n : Nat) (m : CtrlMsg) : Bool :=
  if s.fuses.serial == m.serial then decide (n > (lpOf s n).partner) else decide (s.fuses.serial.toNat > m.serial.toNat)

/-- The partner asks for a retrain or a width change (R138, R144, R150 to R153, R155): accepted, unless this end keeps its own request; the end that gives way withdraws first. The retrain begins as the acceptance leaves. -/
def retrainAsked (n : Nat) (widen : Bool) (m : CtrlMsg) (s : State) : State :=
  let i := initOf s n
  if !linkLive s n then s
  else
    let own := i.retrain = 1 || i.retrain = 2
    if own && keepsOwn s n m then s
    else
      let s := if own then sendCtrl n { subtype := 5, subject := BitVec.ofNat 8 n } s else s
      let s := releaseFrom n (modInit n (fun i => { i with retrain := 0, want := if widen then m.width.toNat else 0, reqAt := none, held := false }) s)
      sendCtrl n { subtype := if widen then 4 else 2, subject := BitVec.ofNat 8 n } s

/-- The partner accepts this end's request (R144, R150, R151). -/
def retrainAccepted (n : Nat) (widen : Bool) (s : State) : State :=
  if linkLive s n && (initOf s n).retrain = (if widen then 2 else 1) then beginRetrain n (if widen then 4 else 3) (modInit n (fun i => { i with want := 0 }) s) else s

/-- The partner withdraws its request and will accept this end's (R152): only the record that it stands is left. -/
def withdraw (n : Nat) (s : State) : State :=
  if linkLive s n then modInit n (fun i => { i with reqAt := i.reqAt.or (if i.retrain = 1 || i.retrain = 2 then some (now s) else none) }) s else s

/-- Nothing is queued for a port's link (R79, R82). -/
def nothingQueued (s : State) (n : Nat) : Bool :=
  (txOf s n).frames.isEmpty && (List.range 8).all (fun q => (tget s.sw.queues (8 * n + q)).frames.isEmpty)

/-- Every flit of a port is acknowledged, and it has acknowledged every flit that it received (R79). -/
def allAcked (s : State) (n : Nat) : Bool :=
  let t := txOf s n
  t.next == t.unacked && (rxOf s n).held.isEmpty && t.ackSent == (rxOf s n).ack

/-- Nothing is queued for a port and every flit is acknowledged (R79). -/
def linkQuiet (s : State) (n : Nat) : Bool :=
  nothingQueued s n && allAcked s n && (txOf s n).ctrls.isEmpty && (txOf s n).retx.isEmpty

/-- The idle time has passed, and nothing waits for a port's partner (R88, R89). -/
def cxlQuiet (s : State) (n : Nat) : Bool :=
  (List.range 8).all (fun q => (tget s.sw.queues (8 * n + q)).frames.isEmpty) && (cxlOf s n).out.isEmpty && (cxlOf s n).waiting.isEmpty && (cxlOf s n).replay.isEmpty

/-- A CXL port enters L1 (R88, R90): with L1.1 enabled it lets go of its CLKREQ_N, and L1.1 follows once the partner has as well. -/
def enterL1 (n : Nat) (s : State) : State :=
  let on_ := hasClkreq s n && (lpOf s n).l11En
  let s := modLp n (fun l => { l with l1 := true, l11 := on_ && !(portOf s (n / 2)).clkreqLow }) s
  if on_ && (isHost s n || !(portOf s (n / 2)).clkreqLow) then modPort (n / 2) (fun p => { p with clkreqOut := false }) s else s

/-- The idle time has passed (R78, R79, R89): a DL1 request, or ASPM L1 on a host-facing CXL port whose host enabled it. -/
def idleTimeout (n : Nat) (s : State) : State :=
  let l := lpOf s n
  if l.link != .up || decide (now s < l.lastFlit + l.idle) then s
  else if isDen s n then
    (if l.dl == .dl0 && l.dlReq = 0 && !l.dl1Barred && linkQuiet s n then
      sendCtrl n { subtype := 9, subject := BitVec.ofNat 8 n } (modLp n (fun l => { l with dlReq := 1 }) s)
     else s)
  else if isHost s n && l.aspmEn && !l.l1 && cxlQuiet s n then enterL1 n s
  else s

/-- Enter DL1 or DL2; what was queued meanwhile starts the exit at once (R82, R91). -/
def enterDl (n : Nat) (d : Dl) (s : State) : State :=
  let s := portPins (n / 2) (stopTx n (modLp n (fun l => { l with dl := d, dlReq := 0, dlExit := none }) s))
  let s := modRx n (fun r => { r with pos := 0, bad := [] }) s
  if nothingQueued s n && (txOf s n).ctrls.isEmpty then s else wakeDl n s

/-- A port whose ends agreed on DL1 enters it once its replay buffer is empty and every received flit is acknowledged (R79). -/
def tryDl1 (n : Nat) (s : State) : State :=
  if lpUp s n && (lpOf s n).dl == .dl0 && (lpOf s n).dlReq = 4 && allAcked s n && (txOf s n).ctrls.isEmpty then enterDl n .dl1 s else s

/-- The ends agree on DL1 (R79, R91). -/
def agreeDl1 (n : Nat) (s : State) : State := modLp n (fun l => { l with dlReq := 4 }) s

/-- The partner asks for DL1 (R79, R91): when both ask both requests stand; an end with a flit queued or not acknowledged refuses. -/
def dl1Req (n : Nat) (s : State) : State :=
  let l := lpOf s n
  let m := fun (k : Byte) => { subtype := k, subject := BitVec.ofNat 8 n : CtrlMsg }
  if !isDen s n || l.link != .up || l.dl != .dl0 then s
  else if l.dlReq = 1 then agreeDl1 n s
  else if l.dlReq ≠ 0 || l.dl1Barred || !nothingQueued s n || (txOf s n).next != (txOf s n).unacked || !(txOf s n).ctrls.isEmpty then sendCtrl n (m 11) s
  else sendCtrl n (m 10) s

/-- The partner acknowledges DL1 (R79). -/
def dl1Ack (n : Nat) (s : State) : State :=
  let l := lpOf s n
  if l.link == .up && l.dl == .dl0 && l.dlReq = 1 then agreeDl1 n s else s

/-- The partner refuses DL1 (R79): the port stays in DL0, and its idle time starts anew (DESIGN CHOICE, assumption 111). -/
def dl1Refuse (n : Nat) (s : State) : State :=
  if (lpOf s n).dlReq = 1 then modLp n (fun l => { l with dlReq := 0, lastFlit := now s }) s else s

/-- The partner asks for DL2 (R80, R81): acknowledged, but not on a port that serves as a twin (DEDUCED, assumption 54). -/
def dl2Req (n : Nat) (s : State) : State :=
  let l := lpOf s n
  if !isDen s n || l.link != .up || l.dl == .dl2 || (twinOf s n).isSome then s
  else if l.dlReq = 2 then enterDl n .dl2 s
  else sendCtrl n { subtype := 13, subject := BitVec.ofNat 8 n } s

/-- The partner acknowledges DL2 (R80). -/
def dl2Ack (n : Nat) (s : State) : State :=
  if (lpOf s n).link == .up && (lpOf s n).dlReq = 2 then enterDl n .dl2 s else s

/-- The exit from DL1 or DL2 ends (R83, R91, R145): a marker leads. A DL1 exit checks each lane's lock, and a DL2 entry asked for meanwhile follows; a DL2 exit goes on with an initialisation that is a resume. -/
def dlExitDone (n : Nat) (s : State) : State :=
  let l := lpOf s n
  match l.dlExit with
  | none => s
  | some t =>
    if now s < t || l.dl == .dl0 then s
    else
      let s := (lanesOf s n).foldl (fun s k => modLane k (fun x => if !x.locked && x.huntSince.isNone then { x with huntSince := some (now s) } else x) s) s
      let hunting := (lanesOf s n).any (fun k => !(tget s.net.lanes k).locked)
      let s := modLp n (fun l => { l with lastFlit := now s, huntFrom := if hunting then l.huntFrom.or (some (now s)) else none }) s
      if l.dl == .dl2 then
        let s := modInit n (fun i => { i with step := 1, began := now s }) (modLp n (fun x => { x with dlReq := if l.dlReq = 3 then 3 else 0 }) (beginRetrain n 5 s))
        sendInit n (helloOf s n) (portPins (n / 2) (startTx n s))
      else
        let s := portPins (n / 2) (startTx n (modLp n (fun l => { l with dl := .dl0, dlExit := none }) s))
        if l.dlReq = 3 then sendCtrl n { subtype := 12, subject := BitVec.ofNat 8 n } (modLp n (fun l => { l with dlReq := 2 }) s) else s

/-- The codeword periods for which some lane of a port has hunted for lock without a break (R127); a period is 48.57 ns. -/
def huntPeriods (s : State) (n : Nat) : Nat :=
  match (lpOf s n).huntFrom with
  | some t => (now s - t) * 100 / 4857
  | none => 0

/-- The error counts that declare a Den link down, looked at again; on a CXL port the loss of its link (R126, R127, R172). -/
def linkDown (n : Nat) (s : State) : State :=
  if !linkLive s n && (lpOf s n).link != .training then s
  else if isCxl s n then fall n 0 s
  else
    let c := cfgOf s n
    let w := winOf s n
    let t := now s
    let hunt := if (lpOf s n).dl == .dl0 then huntPeriods s n else 0
    if (slide t c.window w.crc).length ≥ c.crcLimit || (slide t c.window w.proto).length ≥ c.protoLimit then fall n 0 s
    else if (slide t c.window w.cw).length + hunt ≥ c.cwLimit then fall n 0 (bumpC .uncorrCw n 0 hunt {} s)
    else s

/-- The alignment marker that is due on every lane of a Den link whose transmitter runs, after 16,384 codewords (R45, R46). -/
def marker (n : Nat) (s : State) : State :=
  if isDen s n && (txOf s n).on && decide ((txOf s n).pos ≥ flitsPerMarker (widthNow s n)) then sendMarkers n s else s

/-- DEN_LINK_UP (R58). -/
def execDenLinkUp (lp : LpId) (marks : List (Option Nat)) (inv : BitVec 8) (skewNs : Nat) (s : State) : Host.Outcome State Fault Refusal :=
  finishStep (denLinkUp lp.val marks inv skewNs s)

/-- HELLO (R110). -/
def execHello (lp : LpId) (m : InitMsg) (s : State) : Host.Outcome State Fault Refusal := finishStep (hello lp.val m s)
/-- ECHO (R110). -/
def execEcho (lp : LpId) (m : InitMsg) (s : State) : Host.Outcome State Fault Refusal := finishStep (echo lp.val m s)
/-- DONE (R110). -/
def execDone (lp : LpId) (m : InitMsg) (s : State) : Host.Outcome State Fault Refusal := finishStep (doneMsg lp.val m s)
/-- INIT_TIMEOUT (R112). -/
def execInitTimeout (lp : LpId) (s : State) : Host.Outcome State Fault Refusal := finishStep (initTimeout lp.val s)
/-- LINK_DOWN (R126). -/
def execLinkDown (lp : LpId) (s : State) : Host.Outcome State Fault Refusal := finishStep (linkDown lp.val s)
/-- ELECTRICAL_IDLE_END (R128). -/
def execElectricalIdleEnd (lp : LpId) (s : State) : Host.Outcome State Fault Refusal := finishStep (idleEnd lp.val s)
/-- PROBATION_END (R132). -/
def execProbationEnd (lp : LpId) (s : State) : Host.Outcome State Fault Refusal := finishStep (probationEnd lp.val s)
/-- FAILOVER (R754). -/
def execFailover (lp : LpId) (m : CtrlMsg) (s : State) : Host.Outcome State Fault Refusal := finishStep (failover lp.val m s)
/-- FAILOVER_ABANDON (R755). -/
def execFailoverAbandon (lp : LpId) (s : State) : Host.Outcome State Fault Refusal := finishStep (failoverAbandon lp.val s)
/-- FAILBACK (R142). -/
def execFailback (lp : LpId) (m : CtrlMsg) (s : State) : Host.Outcome State Fault Refusal := finishStep (failback lp.val m s)
/-- FAILBACK_DONE (R142). -/
def execFailbackDone (lp : LpId) (_m : CtrlMsg) (s : State) : Host.Outcome State Fault Refusal := finishStep (failbackDone lp.val s)
/-- FAILBACK_DEST_MOVE (R142). -/
def execFailbackDestMove (lp : LpId) (did : BitVec 12) (s : State) : Host.Outcome State Fault Refusal := finishStep (failbackMove lp.val did.toNat s)
/-- RETRAIN_REQ (R144). -/
def execRetrainReq (lp : LpId) (m : CtrlMsg) (s : State) : Host.Outcome State Fault Refusal := finishStep (retrainAsked lp.val false m s)
/-- RETRAIN_ACCEPT (R151). -/
def execRetrainAccept (lp : LpId) (_m : CtrlMsg) (s : State) : Host.Outcome State Fault Refusal := finishStep (retrainAccepted lp.val false s)
/-- WIDTH_REQ (R150). -/
def execWidthReq (lp : LpId) (m : CtrlMsg) (s : State) : Host.Outcome State Fault Refusal := finishStep (retrainAsked lp.val true m s)
/-- WIDTH_ACCEPT (R150). -/
def execWidthAccept (lp : LpId) (_m : CtrlMsg) (s : State) : Host.Outcome State Fault Refusal := finishStep (retrainAccepted lp.val true s)
/-- WITHDRAW (R152). -/
def execWithdraw (lp : LpId) (_m : CtrlMsg) (s : State) : Host.Outcome State Fault Refusal := finishStep (withdraw lp.val s)
/-- RETRAIN_HOLD_RELEASE (R148). -/
def execRetrainHoldRelease (lp : LpId) (s : State) : Host.Outcome State Fault Refusal := finishStep (retrainRelease lp.val s)
/-- DL1_IDLE_TIMEOUT (R78). -/
def execDl1IdleTimeout (lp : LpId) (s : State) : Host.Outcome State Fault Refusal := finishStep (idleTimeout lp.val s)
/-- DL1_REQ (R79). -/
def execDl1Req (lp : LpId) (_m : CtrlMsg) (s : State) : Host.Outcome State Fault Refusal := finishStep (dl1Req lp.val s)
/-- DL1_ACK (R79). -/
def execDl1Ack (lp : LpId) (_m : CtrlMsg) (s : State) : Host.Outcome State Fault Refusal := finishStep (dl1Ack lp.val s)
/-- DL1_REFUSE (R79). -/
def execDl1Refuse (lp : LpId) (_m : CtrlMsg) (s : State) : Host.Outcome State Fault Refusal := finishStep (dl1Refuse lp.val s)
/-- DL2_REQ (R80). -/
def execDl2Req (lp : LpId) (_m : CtrlMsg) (s : State) : Host.Outcome State Fault Refusal := finishStep (dl2Req lp.val s)
/-- DL2_ACK (R80). -/
def execDl2Ack (lp : LpId) (_m : CtrlMsg) (s : State) : Host.Outcome State Fault Refusal := finishStep (dl2Ack lp.val s)
/-- DL_EXIT_DONE (R83). -/
def execDlExitDone (lp : LpId) (s : State) : Host.Outcome State Fault Refusal := finishStep (dlExitDone lp.val s)
/-- ALIGNMENT_MARKER (R45). -/
def execAlignmentMarker (lp : LpId) (s : State) : Host.Outcome State Fault Refusal := finishStep (marker lp.val s)

end Sys2Proof.Machine
end

