-- ==== Sys2Proof/Machine/Traffic.lean ====
section
/-! DEFINITION. Queue maps, buffers, random early profiles, meters, shapers and time gates: the `traffic` commands and the clocked events of shapers and gates (R199 to R201, R225, R228, R231, R242 to R283, R756). -/

namespace Sys2Proof.Machine

/-- A port of a logical port is frozen and drained (R220). -/
def portDrained (s : State) (p : Nat) : Bool :=
  let lps := [2 * p, 2 * p + 1]
  (portOf s p).freeze && !s.sw.arbs.any (fun e => (e.1 == p || e.1 == 128 + p) && e.2.cur.isSome)
    && lps.all (fun n => (List.range 8).all (fun q => (tget s.sw.queues (8 * n + q)).frames.isEmpty))

/-- The queue of kind `k` at priority `p` in a queue-map payload: nibble 8k + p (R520). -/
def mapNibble (p : Bytes) (i : Nat) : Nat := fieldAt p (4 + i / 2) 1 / 16 ^ (i % 2) % 16

/-- The whole map of a payload. -/
def mapFrom (p : Bytes) : List Nat := (List.range 56).map (mapNibble p)

/-- CM on RSP, SNP and WB map to Q7 and nothing else does (R201). -/
def mapGood (p : Bytes) (i : Nat) : Bool := if i / 8 == 1 then mapNibble p i == 7 else decide (mapNibble p i < 7)

/-- `traffic.queue_map` (R199, R201). -/
def specQueueMap : CmdSpec :=
  { op := 0x0601, who := fmOnly, args := fun s p => [lenIs p 32, fld 0 (lpExists s (fieldAt p 0 1)), rsv p 1 3] ++ (List.range 56).map (fun i => fld (4 + i / 2) (mapGood p i)), state := fun s _ p => portDrained s (fieldAt p 0 1 / 2), run := fun _ p s => ({}, modSw (fun w => { w with egress := tmod w.egress (fieldAt p 0 1) (fun e => { e with qmap := mapFrom p }) }) s) }

/-- The most cells that the frames of a CXL port's advertised credits fill (R165, R224, R225): 3,584 for CXL.mem towards a host or a device, 892 for CXL.io posted and again for completions, 396 for non-posted, 1,024 for CXL.cache; half on x4. -/
def cxlCells (c : PortCfg) : Nat :=
  let k := (if c.role = 3 then 0 else 3584) + 892 + 892 + 396 + 1024
  if c.width = 4 then k / 2 else k

/-- The cells that a logical port reserves: its Den channel buffers and its queues' minima (R225). -/
def reservedCells (s : State) (n : Nat) : Nat :=
  let c := cfgOf s n
  (if lpExists s n then (if c.mode == 1 then c.credits.foldl (· + ·) 0 else if c.mode == 2 then cxlCells c else 0) + ((List.range 8).map (fun q => (tget s.sw.queues (8 * n + q)).minCells)).foldl (· + ·) 0 else 0)

/-- The reservation of a port: both of its logical ports (R225). -/
def portCells (s : State) (p : Nat) : Nat := reservedCells s (2 * p) + reservedCells s (2 * p + 1)

/-- `traffic.buffer_set` (R225, R228). -/
def specBufferSet : CmdSpec :=
  { op := 0x0602, who := fmOnly, args := fun s p => [lenIs p 8, fld 0 (lpExists s (fieldAt p 0 1)), fld 1 (decide (fieldAt p 1 1 < 8)), fld 2 (decide (-4 ≤ sfieldAt p 2 1) && decide (sfieldAt p 2 1 ≤ 3)), rsv p 3 1], cap := fun s _ p =>
      let n := fieldAt p 0 1
      let old := (tget s.sw.queues (8 * n + fieldAt p 1 1)).minCells
      decide (portCells s (n / 2) + fieldAt p 4 4 - old ≤ 8192),
    run := fun _ p s => ({}, modQueue (8 * fieldAt p 0 1 + fieldAt p 1 1) (fun q => { q with k := sfieldAt p 2 1, minCells := fieldAt p 4 4 }) s) }

/-- A profile of a `traffic.red_set` payload. -/
def profileAt (p : Bytes) (off : Nat) : RedProfile := ⟨fieldAt p off 4, fieldAt p (off + 4) 4, fieldAt p (off + 8) 1⟩

/-- The checks of a profile (R231). -/
def profileArgs (p : Bytes) (off : Nat) : List (Nat × Bool) :=
  [fld off (decide (fieldAt p off 4 < fieldAt p (off + 4) 4)), fld (off + 4) (decide (fieldAt p (off + 4) 4 ≤ 131072)), rsv p (off + 9) 3]

/-- `traffic.red_set` (R230, R231). -/
def specRedSet : CmdSpec :=
  { op := 0x0603, who := fmOnly, args := fun s p => [lenIs p 40, fld 0 (lpExists s (fieldAt p 0 1)), fld 1 (decide (fieldAt p 1 1 < 7)), fld 2 (decide (fieldAt p 2 1 < 16)), rsv p 3 1] ++ profileArgs p 4 ++ profileArgs p 16 ++ profileArgs p 28, run := fun _ p s => ({}, modQueue (8 * fieldAt p 0 1 + fieldAt p 1 1) (fun q => { q with w := fieldAt p 2 1, green := profileAt p 4, yellow := profileAt p 16, red := profileAt p 28 }) s) }

/-- The checks of a meter's parameters at payload offset 4 (R242). -/
def meterArgs (create : Bool) (p : Bytes) : List (Nat × Bool) :=
  [lenIs p 24, fld 0 (!create || fieldAt p 0 4 == 0), fld 4 (decide (1000 ≤ fieldAt p 4 4) && decide (fieldAt p 4 4 ≤ 896000000)), fld 8 (decide (fieldAt p 4 4 ≤ fieldAt p 8 4) && decide (fieldAt p 8 4 ≤ 896000000)), fld 12 (decide (4128 ≤ fieldAt p 12 4) && decide (fieldAt p 12 4 ≤ 16777216)), fld 16 (decide (4128 ≤ fieldAt p 16 4) && decide (fieldAt p 16 4 ≤ 16777216)), fld 20 (decide (fieldAt p 20 1 < 2)), fld 21 (!create || decide (fieldAt p 21 1 < 8)), rsv p 22 2]

/-- A meter with its parameters and full buckets (R242, R251). -/
def meterFrom (old : MeterSt) (p : Bytes) (t : Nat) : MeterSt :=
  { old with cir := fieldAt p 4 4, pir := fieldAt p 8 4, cbs := fieldAt p 12 4, pbs := fieldAt p 16 4, aware := fieldAt p 20 1 == 1, tc := fieldAt p 12 4 * one24, tp := fieldAt p 16 4 * one24, last := t }

/-- `traffic.meter_create` (R242, R251): 2,048 meters on each I/O die. -/
def specMeterCreate : CmdSpec :=
  { op := 0x0610, who := fmOnly, args := fun _ p => meterArgs true p, creates := some 3, cap := fun s _ p => (lowestFree s 3).isSome && decide ((s.tm.meters.filter (fun e => e.2.cir != 0 && e.2.die == fieldAt p 21 1)).length < 2048), run := fun x p s =>
      match newObject 3 x s with
      | (none, s) => ({ status := .noResource }, s)
      | (some h, s) => ({ related := h, h1 := h }, modMeter h (fun _ => meterFrom { die := fieldAt p 21 1 } p (now s)) s) }

/-- `traffic.meter_set` (R242, R251). -/
def specMeterSet : CmdSpec :=
  { op := 0x0611, who := fmOnly, args := fun _ p => meterArgs false p, handles := fun p => oneH p, run := fun _ p s => ({ h1 := handleAt p 0 }, modMeter (handleAt p 0) (fun m => meterFrom m p (now s)) s) }
where
  /-- The meter handle. -/
  oneH (p : Bytes) : List (Handle × List Nat × Bool) := [(handleAt p 0, [3], false)]

/-- `traffic.meter_destroy` (R288): BAD_STATE while the meter is attached. -/
def specMeterDestroy : CmdSpec :=
  { op := 0x0612, who := fmOnly, args := fun _ p => [lenIs p 4], handles := fun p => [(handleAt p 0, [3], false)], state := fun s _ p => !s.tm.attached.any (fun a => a.2.2 == handleAt p 0), run := fun _ p s => ({ h1 := handleAt p 0 }, freeIndex 3 (hIdx (handleAt p 0)) (modMeter (handleAt p 0) (fun _ => default) s)) }

/-- What a `traffic.meter_attach` names (R243, R520). -/
def attachOn (p : Bytes) : MeterOn := if fieldAt p 4 1 = 0 then .binding (handleAt p 8) else .lp (fieldAt p 5 1)

/-- The I/O dies whose ports carry the traffic of what a meter is attached to (R243). -/
def attachDies (s : State) (p : Bytes) : List Nat :=
  if fieldAt p 4 1 = 0 then
    let n := (bindOf s (hIdx (handleAt p 8))).lp
    match twinOf s n with
    | some t => [dieOf n, dieOf t]
    | none => [dieOf n]
  else [dieOf (fieldAt p 5 1)]

/-- The bindings that a meter measures (R245). -/
def meterBindings (s : State) (m : Handle) : List Handle :=
  s.tm.attached.filterMap (fun a => if a.2.2 == m then (match a.1 with
    | .binding h => some h
    | .lp _ => none) else none)

/-- `traffic.meter_attach` (R243 to R245). -/
def specMeterAttach : CmdSpec :=
  { op := 0x0613, who := fmOnly, args := fun s p =>
      let m := handleAt p 0
      let die := fieldAt p 6 1
      [lenIs p 12, fld 0 (m == 0 || !liveHandle s m || !liveHandle s (handleAt p 8) && fieldAt p 4 1 == 0 || (attachDies s p).contains (meterOf s m).die), fld 4 (decide (fieldAt p 4 1 < 2)), fld 5 (fieldAt p 4 1 == 0 || (lpExists s (fieldAt p 5 1) && isFabric s (fieldAt p 5 1))), fld 6 (die == 0xFF || (if m == 0 then decide (die < 8) else !liveHandle s m || die == (meterOf s m).die)), rsv p 7 1, fld 8 (fieldAt p 4 1 == 0 || fieldAt p 8 4 == 0)],
    handles := fun p => (handleAt p 0, [3], true) :: (if fieldAt p 4 1 = 0 then [(handleAt p 8, [1], false)] else []),
    names := fun _ p => if fieldAt p 4 1 = 0 then [handleAt p 8] else [],
    state := fun s _ p => fieldAt p 4 1 != 0 || bindFree s (handleAt p 8),
    held := fun s _ p =>
      if fieldAt p 4 1 = 0 && handleAt p 0 != 0 then
        (meterBindings s (handleAt p 0)).find? (fun h => (bindOf s (hIdx h)).tenant != (bindOf s (hIdx (handleAt p 8))).tenant)
      else none,
    run := fun _ p s =>
      let on := attachOn p
      let m := handleAt p 0
      let die := if m = 0 then fieldAt p 6 1 else (meterOf s m).die
      let s := modTm (fun t => { t with attached := t.attached.filter (fun a => !(a.1 == on && (die == 0xFF || a.2.1 == die))) }) s
      ({ h1 := m, h2 := handleAt p 8 }, if m = 0 then s else modTm (fun t => { t with attached := t.attached ++ [(on, die, m)] }) s) }
where
  /-- A binding is not being destroyed (R455). -/
  bindFree (s : State) (h : Handle) : Bool := (bindOf s (hIdx h)).step == 0

/-- The parameters of a `traffic.shaper_set` payload, defaults chosen by 0 (R254). -/
def shaperPar (p : Bytes) : ShaperPar :=
  { rate := fieldAt p 4 4, burst := fieldAt p 8 4, toFull := bitOf (fieldAt p 12 1) 0, throttle := bitOf (fieldAt p 12 1) 1, d := if fieldAt p 13 1 = 0 then 3 else fieldAt p 13 1, f := if fieldAt p 14 1 = 0 then 6 else fieldAt p 14 1, recov := if fieldAt p 16 4 = 0 then 50000 else fieldAt p 16 4 }

/-- The checks of a `traffic.shaper_set` payload (R253, R254). -/
def shaperArgs (_ : State) (p : Bytes) : List (Nat × Bool) :=
  let i := hIdx (handleAt p 0)
  [lenIs p 20, fld 0 (!(hType (handleAt p 0) == 4 && decide (65536 ≤ i) && (i - 65536) % 8 == 7)), fld 4 (decide (1000 ≤ fieldAt p 4 4) && decide (fieldAt p 4 4 ≤ 896000000)), fld 8 (decide (4128 ≤ fieldAt p 8 4) && decide (fieldAt p 8 4 ≤ 16777216)), fld 12 (decide (fieldAt p 12 1 < 4)), fld 13 (decide (fieldAt p 13 1 ≤ 7)), fld 14 (decide (fieldAt p 14 1 ≤ 10)), rsv p 15 1, fld 16 (fieldAt p 16 4 == 0 || (decide (1000 ≤ fieldAt p 16 4) && decide (fieldAt p 16 4 ≤ 1000000)))]

/-- Re when new parameters apply (R756). -/
def newRe (x : ShaperSt) (np : ShaperPar) : Nat :=
  if x.re < x.par.rate * one24 then max (min x.re (np.rate * one24)) (np.rate * one24 / 2 ^ np.f) else np.rate * one24

/-- Apply new parameters (R259, R260): `reset` sets the tokens to zero or full, otherwise they are kept and clipped; an unconfigured queue shaper counts as full. -/
def applyPar (s : State) (k : Nat) (np : ShaperPar) (reset : Bool) : ShaperSt :=
  let was := tget s.tm.shapers k
  let x := shaperOf s k
  let full : Int := ((np.burst * one24 : Nat) : Int)
  let tokens := if reset then (if np.toFull then full else 0) else if !was.configured && 65536 ≤ k then full else min x.tokens full
  { x with configured := true, par := np, tokens := tokens, re := if !was.configured && 65536 ≤ k then np.rate * one24 else newRe x np, started := true, pendingPar := none }

/-- Admit the held requests of a binding that its tokens cover, the oldest of each channel first (R263). -/
def admitHeld : Nat → Nat → State → State
  | 0, _, s => s
  | fuel + 1, k, s =>
    let l := tget s.tm.held k
    let x := shaperOf s k
    let isOldest := fun (h : HeldReq) => match l.find? (fun y => y.f.chan == h.f.chan) with
      | some y => decide (y = h)
      | none => false
    match l.find? (fun h => isOldest h && shaperAdmits x h.f) with
    | none => s
    | some h =>
      let s := modTm (fun t => { t with held := tset t.held k (l.erase h) }) s
      admitHeld fuel k (passIngress h.lp h.f h.arrived h.orig (setShaper k (chargeShaper x h.len) s))

/-- Admit what a shaper's new tokens cover of its hold list (R263). -/
def admitAll (k : Nat) (s : State) : State := if s.tm.suspended then s else admitHeld (tget s.tm.held k).length k s

/-- One refill of a shaper (R255, R256, R260). -/
def refillShaper (s : State) (k : Nat) : ShaperSt :=
  let was := tget s.tm.shapers k
  let x := match was.pendingPar with
    | some np => applyPar s k np false
    | none => shaperOf s k
  { x with tokens := min ((x.par.burst * one24 : Nat) : Int) (x.tokens + ((x.re * 128 / 8000000 : Nat) : Int)) }

/-- A change that lands on a refill tick applies before that tick's refill (R288): where the refill has been taken, the changed shaper takes its own (DEDUCED, assumption 129). -/
def afterRefill (k : Nat) (s : State) : State := if s.tm.refilled = now s + 1 then setShaper k (refillShaper s k) s else s

/-- `traffic.shaper_set` (R253, R254, R259, R260): Detail 1 or 2 says which rule applied. -/
def specShaperSet : CmdSpec :=
  { op := 0x0620, who := fmOnly, args := shaperArgs, handles := fun p => [(handleAt p 0, [4], false)], run := fun _ p s =>
      let k := hIdx (handleAt p 0)
      if s.dev.st == .service || s.dev.st == .drain then
        ({ detail := 1, h1 := handleAt p 0 }, admitAll k (afterRefill k (setShaper k (applyPar s k (shaperPar p) true) s)))
      else ({ detail := 2, h1 := handleAt p 0 }, modTm (fun t => { t with shapers := tmod t.shapers k (fun x => { x with pendingPar := some (shaperPar p) }) }) s) }

/-- `traffic.shaper_clear` (R252): the instants of the last decrease and notice stay (R266, R267). -/
def specShaperClear : CmdSpec :=
  { op := 0x0621, who := fmOnly, args := fun _ p => [lenIs p 4], handles := fun p => [(handleAt p 0, [4], false)], run := fun _ p s =>
      let k := hIdx (handleAt p 0)
      ({ h1 := handleAt p 0 }, admitAll k (setShaper k { lastDec := (tget s.tm.shapers k).lastDec, lastNotice := (tget s.tm.shapers k).lastNotice } s)) }

/-- The head frame of a queue is withheld by its shaper (R257, R258). -/
def shaperBlocks (s : State) (n q : Nat) : Bool :=
  match (tget s.sw.queues (8 * n + q)).frames.head? with
  | none => false
  | some h =>
    let x := tget s.tm.shapers (65536 + 8 * n + q)
    x.configured && !s.tm.suspended && decide (x.tokens < ((frameLen h.f * one24 : Nat) : Int))

/-- A refill tick: an instant whose nanosecond count is a multiple of 128, once (R256, R263, R287, DEDUCED, assumption 64). -/
def shaperRefill (s : State) : State :=
  let t := now s
  if t % 128 != 0 || s.tm.refilled == t + 1 || s.tm.suspended then s
  else
    let blocked := s.sw.queues.filter (fun e => shaperBlocks s (e.1 / 8) (e.1 % 8))
    let s := blocked.foldl (fun s e => bumpC .qBlocked (e.1 / 8) (e.1 % 8) 128 {} s) s
    let s := s.tm.held.foldl (fun s e => bumpC .shHeldTime e.1 0 128 {} s) s
    let keys := s.tm.shapers.map (·.1)
    let s := modTm (fun x => { x with refilled := t + 1 }) s
    let s := keys.foldl (fun s k => let x := tget s.tm.shapers k
      if x.configured || x.started || x.pendingPar.isSome then setShaper k (refillShaper s k) s else s) s
    (s.tm.held.map (fun e => (e.1, e.2.length))).foldl (fun s e => admitHeld e.2 e.1 s) s

/-- A recovery interval without a notice (R267). -/
def throttleRecover (b : Handle) (s : State) : State :=
  match liveBind s b with
  | none => s
  | some _ =>
    let k := hIdx b
    let x := shaperOf s k
    let r := x.par.rate * one24
    if x.re < r && decide (now s > x.lastNotice + x.par.recov) then
      setShaper k { x with re := min r (x.re + r / 32), lastNotice := x.lastNotice + x.par.recov } s
    else s

/-- The slot table of a copy. -/
def copyOf (g : TgSt) (c : Bool) : SlotTab := if c then g.copy1 else g.copy0

/-- The cycle length of a slot table (R271). -/
def cycleLen (t : SlotTab) : Nat := t.slots.foldl (fun n x => n + x.1) 0

/-- The first cycle boundary of a table at or after an instant (R273). -/
def boundaryFrom (t : SlotTab) (x : Nat) : Nat :=
  let c := cycleLen t
  if c = 0 then x
  else if t.base ≤ x then t.base + roundUp (x - t.base) c
  else t.base - (t.base - x) / c * c

/-- The instant at which a commit's copies swap (R274, R275). -/
def swapInstant (g : TgSt) (t : Nat) : Nat :=
  let at_ := max (t + 1000) (copyOf g !g.active).base
  if g.live then boundaryFrom (copyOf g g.active) at_ else at_

/-- The slot table of a `traffic.gate_write` payload (R270). -/
def slotsFrom (p : Bytes) : SlotTab :=
  { base := fieldAt p 8 8 / 65536, slots := (List.range (fieldAt p 16 2)).map (fun k => let w := fieldAt p (24 + 4 * k) 4; (w % 2 ^ 20, w / 2 ^ 24)) }

/-- A logical port's gates. -/
def tgOf (s : State) (n : Nat) : TgSt := tget s.tm.gates n

/-- Change a logical port's gates. -/
def modTg (n : Nat) (g : TgSt → TgSt) (s : State) : State := modTm (fun t => { t with gates := tmod t.gates n g }) s

/-- A port's gates with a swap whose instant has come taken (R288: the swap is taken first). -/
def gateDue (g : TgSt) (t : Nat) : TgSt :=
  match g.committed with
  | some u => if t < u then g else { g with active := !g.active, live := true, committed := none }
  | none => g

/-- The copies swap at their instant (R274, R275). -/
def gateSwapAt (n : Nat) (s : State) : State :=
  match (tgOf s n).committed with
  | some t => if now s < t then s else bump .tgSwaps n (modTg n (fun g => gateDue g (now s)) s)
  | none => s

/-- `traffic.gate_write` (R270 to R272, R288). -/
def specTgWrite : CmdSpec :=
  { op := 0x0630, who := fmOnly, handles := fun p => [(handleAt p 0, [5], false)], args := fun _ p =>
      let t := slotsFrom p
      [lenIs p 1048, fld 4 (decide (fieldAt p 4 1 < 2)), rsv p 5 3, rsv p 8 2, fld 16 (decide (1 ≤ fieldAt p 16 2) && decide (fieldAt p 16 2 ≤ 256)), rsv p 18 6]
        ++ (List.range (min 256 (fieldAt p 16 2))).map (fun k => let w := fieldAt p (24 + 4 * k) 4; fld (24 + 4 * k) (decide (16 ≤ w % 2 ^ 20) && decide (w % 2 ^ 20 ≤ 1000000) && w / 2 ^ 20 % 16 == 0 && bitOf w 31))
        ++ [fld 24 (decide (1000 ≤ cycleLen t) && decide (cycleLen t ≤ 1000000))],
    state := fun s _ p => (gateDue (tgOf s (hIdx (handleAt p 0))) (now s)).active != (fieldAt p 4 1 == 1),
    run := fun _ p s =>
      let n := hIdx (handleAt p 0)
      let c := fieldAt p 4 1 == 1
      ({ h1 := handleAt p 0 }, modTg n (fun g => if c then { g with copy1 := slotsFrom p } else { g with copy0 := slotsFrom p }) (gateSwapAt n s)) }

/-- `traffic.gate_commit` (R274 to R276): completes at once with the swap time. -/
def specTgCommit : CmdSpec :=
  { op := 0x0631, who := fmOnly, args := fun _ p => [lenIs p 4], handles := fun p => [(handleAt p 0, [5], false)], state := fun s _ p => let g := gateDue (tgOf s (hIdx (handleAt p 0))) (now s); !(copyOf g !g.active).slots.isEmpty, run := fun _ p s =>
      let n := hIdx (handleAt p 0)
      let s := gateSwapAt n s
      if (tgOf s n).committed.isSome then ({ status := .busy, h1 := handleAt p 0 }, s)
      else
        let t := swapInstant (tgOf s n) (now s)
        ({ payload := leBytes 8 (ftOf t), h1 := handleAt p 0 }, modTg n (fun g => { g with committed := some t }) s) }

/-- A slot boundary: a hold-open after a step ends at its boundary (R273, R283). -/
def slotBoundary (n : Nat) (s : State) : State :=
  match (tgOf s n).openUntil with
  | some u => if now s ≥ u then modTg n (fun g => { g with openUntil := none }) s else s
  | none => s

/-- After a step of fabric time every gate holds its queues open until the next boundary, and pending swaps are placed anew (R283, R288). -/
def stepGates (s : State) : State :=
  modTm (fun x => { x with gates := x.gates.map (fun e => (e.1, { e.2 with openUntil := if e.2.live then some (boundaryFrom (copyOf e.2 e.2.active) (now s + 1)) else e.2.openUntil, committed := if e.2.committed.isSome then some (swapInstant e.2 (now s)) else none })) }) s

/-- How long a run of slots stays open for a queue, from a list of slots. -/
def openRun (q : Nat) : List (Nat × Nat) → Nat
  | [] => 0
  | (d, m) :: r => if bitOf m q then d + openRun q r else 0

/-- The time left in a queue's open window (R273, R277): none when it never ends, 0 when it is closed. -/
def windowLeft (t : SlotTab) (q at_ : Nat) : Option Nat :=
  if t.slots.all (fun x => bitOf x.2 q) then none
  else
    let c := cycleLen t
    let pos := (((at_ : Int) - (t.base : Int)) % (c : Int)).toNat
    some (go t.slots pos (t.slots ++ t.slots))
where
  /-- Find the slot of a position, then add what is open after it. -/
  go : List (Nat × Nat) → Nat → List (Nat × Nat) → Nat
    | [], _, _ => 0
    | (d, _) :: r, pos, all => if pos < d then (match all with
        | (d', m') :: r' => if bitOf m' q then (d' - pos) + openRun q r' else 0
        | [] => 0)
      else go r (pos - d) (all.drop 1)

/-- The longest window of a queue (R277, R280). -/
def longestWindow (t : SlotTab) (q : Nat) : Nat :=
  (List.range t.slots.length).foldl (fun m k => max m (min (cycleLen t) (openRun q ((t.slots ++ t.slots).drop k)))) 0

/-- The wire time of a frame (R278). -/
def wireTime (s : State) (n len : Nat) : Nat := let r := gateRate s n; (len * 8 + r - 1) / r

/-- What a gate says of a queue's head frame (R277 to R281): it may go, it runs over, it waits in an open window, or its window is closed. -/
inductive GateSays where
  | go
  | overrun
  | defer
  | closed
deriving DecidableEq

/-- The gate's answer for a head frame of a length (R275, R278 to R283, R285). -/
def gateSays (s : State) (n q len : Nat) : GateSays :=
  let g := gateDue (tgOf s n) (now s)
  let held := match g.openUntil with
    | some u => decide (now s < u)
    | none => false
  if s.tm.suspended || held then .go
  else if !g.live then .go
  else
      let t := copyOf g g.active
      match windowLeft t q (now s) with
      | none => .go
      | some left =>
        let w := wireTime s n len
        if left = 0 then .closed
        else if w ≤ left then .go
        else if w > longestWindow t q && left == longestWindow t q then .overrun
        else .defer

/-- TRAFFIC_QUEUE_MAP. -/
def execTrafficQueueMap (q : Req) (p : Bytes) (s : State) : Host.Outcome State Fault Refusal := finishStep (runCmd specQueueMap q p s)
/-- TRAFFIC_BUFFER_SET. -/
def execTrafficBufferSet (q : Req) (p : Bytes) (s : State) : Host.Outcome State Fault Refusal := finishStep (runCmd specBufferSet q p s)
/-- TRAFFIC_RED_SET. -/
def execTrafficRedSet (q : Req) (p : Bytes) (s : State) : Host.Outcome State Fault Refusal := finishStep (runCmd specRedSet q p s)
/-- TRAFFIC_METER_CREATE. -/
def execTrafficMeterCreate (q : Req) (p : Bytes) (s : State) : Host.Outcome State Fault Refusal := finishStep (runCmd specMeterCreate q p s)
/-- TRAFFIC_METER_SET. -/
def execTrafficMeterSet (q : Req) (p : Bytes) (s : State) : Host.Outcome State Fault Refusal := finishStep (runCmd specMeterSet q p s)
/-- TRAFFIC_METER_DESTROY. -/
def execTrafficMeterDestroy (q : Req) (p : Bytes) (s : State) : Host.Outcome State Fault Refusal := finishStep (runCmd specMeterDestroy q p s)
/-- TRAFFIC_METER_ATTACH. -/
def execTrafficMeterAttach (q : Req) (p : Bytes) (s : State) : Host.Outcome State Fault Refusal := finishStep (runCmd specMeterAttach q p s)
/-- TRAFFIC_SHAPER_SET. -/
def execTrafficShaperSet (q : Req) (p : Bytes) (s : State) : Host.Outcome State Fault Refusal := finishStep (runCmd specShaperSet q p s)
/-- TRAFFIC_SHAPER_CLEAR. -/
def execTrafficShaperClear (q : Req) (p : Bytes) (s : State) : Host.Outcome State Fault Refusal := finishStep (runCmd specShaperClear q p s)
/-- TRAFFIC_GATE_WRITE. -/
def execTrafficGateWrite (q : Req) (p : Bytes) (s : State) : Host.Outcome State Fault Refusal := finishStep (runCmd specTgWrite q p s)
/-- TRAFFIC_GATE_COMMIT. -/
def execTrafficGateCommit (q : Req) (p : Bytes) (s : State) : Host.Outcome State Fault Refusal := finishStep (runCmd specTgCommit q p s)
/-- SHAPER_REFILL (R256). -/
def execShaperRefill (s : State) : Host.Outcome State Fault Refusal := finishStep (shaperRefill s)
/-- THROTTLE: a THROTTLE frame arrives (R269). -/
def execThrottle (f : Frame) (s : State) : Host.Outcome State Fault Refusal := finishStep (takeThrottle f s)
/-- THROTTLE_RECOVERY (R267). -/
def execThrottleRecovery (b : Handle) (s : State) : Host.Outcome State Fault Refusal := finishStep (throttleRecover b s)
/-- TIME_GATE_SLOT (R273). -/
def execTimeGateSlot (lp : LpId) (s : State) : Host.Outcome State Fault Refusal := finishStep (slotBoundary lp.val s)
/-- GATE_SWAP (R274). -/
def execGateSwap (lp : LpId) (s : State) : Host.Outcome State Fault Refusal := finishStep (gateSwapAt lp.val s)

end Sys2Proof.Machine
end

