-- ==== Sys2Proof/Machine/Switch.lean ====
section
/-! DEFINITION. The crossbar: arbiters, grants, revocation, random early decisions, buffer limits, merges, freezes and route holds; the routing commands (R195 to R236, R291, R296). -/

namespace Sys2Proof.Machine

/-- The crossbar half of an output port or slice (R12, DEDUCED, assumption 66). -/
def halfOf : XOut → Nat
  | .lp n => n / 128
  | .slice i => i / 8

/-- The key of an arbiter's state. -/
def arbKey : ArbId → Nat
  | .port p => p.val
  | .portFar p => 128 + p.val
  | .slice i => 256 + i.val

/-- Which arbiter a request asks (R215): a slice of the other half goes through the port's second arbiter. -/
def arbOf (x : XReq) : Nat :=
  match x.dst with
  | .slice i => 256 + i
  | .lp n => match x.src with
    | .slice i => if i / 8 == n / 128 then n / 2 else 128 + n / 2
    | _ => n / 2

/-- The rotation number of a requester (R215, R216, R291): the 128 input ports, then the slices, then the Sett. -/
def reqNo (x : XReq) : Nat :=
  match x.src with
  | .port n => n / 2
  | .slice i => 128 + i
  | .sett => 144

/-- The level at which a request stands at its arbiter (R216, R217). -/
def xLevel (x : XReq) : Nat :=
  match x.dst with
  | .slice _ => sliceLevelOf x.f
  | .lp _ => levelOf x.f

/-- The bytes a request needs before it may ask (R204, R205). -/
def bytesNeeded (x : XReq) : Nat := if x.sf then frameLen x.f else min 128 (frameLen x.f)

/-- An egress queue by number. -/
def queueAt (s : State) (n q : Nat) : QueueSt := tget s.sw.queues (8 * n + q)

/-- The cells that a queue holds (R224). -/
def depthOf (x : QueueSt) : Nat := x.frames.foldl (fun n q => n + cellsOf (frameLen q.f)) 0

/-- The free cells of an I/O die's shared pool (R224, R225, R228): what no port reserves and no queue holds beyond its minimum. -/
def freeCells (s : State) (die : Nat) : Nat :=
  let res := (List.range 16).foldl (fun n k => n + portCells s (16 * die + k)) 0
  let used := (s.sw.queues.filter (fun e => e.1 / 8 / 32 == die)).foldl (fun n e => n + (depthOf e.2 - e.2.minCells)) 0
  131072 - res - used

/-- The most cells that a queue may hold (R228). -/
def queueLimit (s : State) (n q : Nat) : Nat :=
  let x := queueAt s n q
  let f := freeCells s (dieOf n)
  x.minCells + (if 0 ≤ x.k then f * 2 ^ x.k.toNat else f / 2 ^ (-x.k).toNat)

/-- A frame would take its queue past the limit (R229). -/
def queueFull (s : State) (n : Nat) (f : Frame) : Bool :=
  let q := queueOf s n f
  decide (depthOf (queueAt s n q) + cellsOf (frameLen f) > queueLimit s n q)

/-- A request may be granted now (R139, R148, R198, R204, R205, R219 to R222, R229, R296): its destination is not held, and an MG frame goes on to its tail drop. -/
def mayGrant (s : State) (x : XReq) : Bool :=
  decide (bytesNeeded x ≤ x.arrived) && !srcMasked s x.src && (match x.dst with
    | .lp n => !(portOf s (n / 2)).freeze && !keepsNew (tget s.sw.holds x.f.did.toNat) && (x.f.cls == clsMG || !queueFull s n x.f)
    | .slice i => !needsTracker x.f || (freeTrk s i).isSome)

/-- A requester offers the oldest of its requests at a level (R215, R216): a split port's two inputs are one requester. -/
def offers (l : List XReq) (x : XReq) : Bool :=
  match l.find? (fun y => reqNo y == reqNo x && xLevel y == xLevel x) with
  | some y => y.id == x.id
  | none => false

/-- Choose what an arbiter grants (R215 to R217, R291): the highest level, a split port's two outputs in turn, then the requester after the last one granted; requester 0 stands first at reset (DESIGN CHOICE, assumption 127). -/
def chooseGrant (s : State) (key : Nat) : Option XReq :=
  let mine := s.sw.reqs.filter (fun x => arbOf x == key && mayGrant s x)
  let cand := mine.filter (offers mine)
  match cand with
  | [] => none
  | c :: cs =>
    let lvl := cs.foldl (fun m x => min m (xLevel x)) (xLevel c)
    let top := cand.filter (fun x => xLevel x == lvl)
    let a := tget s.sw.arbs key
    let other := top.filter (fun x => match x.dst with
      | .lp n => (n % 2 == 1) != a.lastHalf
      | .slice _ => false)
    let top := if key < 256 && !other.isEmpty && other.length < top.length then other else top
    let next := tget a.next lvl
    let best := fun (x : XReq) => (reqNo x + 145 - next) % 145
    top.foldl (fun m x => match m with
      | none => some x
      | some y => if best x < best y then some x else m) none

/-- Change an arbiter. -/
def modArb (key : Nat) (g : ArbSt → ArbSt) (s : State) : State := modSw (fun w => { w with arbs := tmod w.arbs key g }) s

/-- Take a request off the list. -/
def takeReq (x : XReq) (s : State) : State := modSw (fun w => { w with reqs := w.reqs.filter (fun y => y.id != x.id) }) s

/-- Note what an arbiter granted: the requester after it comes first next time (R216). -/
def noteGrant (key : Nat) (x : XReq) (s : State) : State :=
  modArb key (fun a => { a with next := tset a.next (xLevel x) ((reqNo x + 1) % 145), lastHalf := match x.dst with | .lp n => n % 2 == 1 | .slice _ => a.lastHalf }) s

/-- The average depth after a grant (R230), with 16 fractional bits. -/
def redAverage (x : QueueSt) (q t : Nat) : Nat :=
  let m := if x.frames.isEmpty then (t - x.emptySince) / 64 else 0
  let a := if m = 0 then x.avg else if x.w = 0 then 0 else if m ≥ 40 * 2 ^ x.w then 0 else x.avg * (2 ^ x.w - 1) ^ m / 2 ^ (x.w * m)
  ((a : Int) + (((q * 65536 : Nat) : Int) - (a : Int)) / ((2 ^ x.w : Nat) : Int)).toNat

/-- The profile of a colour (R231): the reserved colour counts as red. -/
def profileOf (x : QueueSt) (c : Nat) : RedProfile := match c with
  | 0 => x.green | 1 => x.yellow | _ => x.red

/-- The random early decision for a frame of a queue Q0 to Q6 (R230 to R232): the pseudo-random value is a free value. -/
def redDecision (n q : Nat) (f : Frame) (s : State) : Bool × State :=
  let x := queueAt s n q
  let avg := redAverage x (depthOf x) (now s)
  let s := modQueue (8 * n + q) (fun x => { x with avg := avg }) s
  if q = 7 then (false, s)
  else
    let p := profileOf x f.colour.toNat
    let lo := p.minT * 65536
    let hi := p.maxT * 65536
    let (r, s) := drawFree s
    if avg < lo then (false, s)
    else if avg ≥ hi then (true, s)
    else (decide (r % 65536 < p.p * 256 * (avg - lo) / (hi - lo)), s)

/-- The endpoint at a binding's ingress: a request's source, a response's destination. -/
def ingressDid (f : Frame) : BitVec 12 := if isResponse f then f.did else f.sid

/-- A throttle notice for a marked frame (R170, R233, R235): at most one per binding and queue in 1 µs, taken here or sent to the frame's SID. Only a mark on a request counts for its binding's DevLoad. -/
def markNotice (n q : Nat) (f : Frame) (s : State) : State :=
  let e := routeEntry s (ingressDid f).toNat
  let remote := rKind e == 1 && isFabric s (rLp e)
  let s := if remote || isResponse f || (liveBind s f.binding).isNone then s else markBinding f.binding f.colour.toNat s
  let key := hIdx f.binding * 8 + q
  let recent := match tget s.sw.notices key with
    | some t => decide (now s < t + 1000)
    | none => false
  if f.binding = 0 || recent then s
  else
    let s := modSw (fun w => { w with notices := tset w.notices key (some (now s)) }) s
    if remote then
      let pay := leBytes 4 f.binding.toNat ++ leBytes 1 q ++ leBytes 1 f.colour.toNat ++ leBytes 1 n ++ [0] ++ leBytes 8 (ftCount s)
      let g := sealHdr { opcode := 0xF0, cls := clsIO, chan := 6, priv := true, did := f.sid, sid := selfDid s, binding := f.binding, length := 16, data := pay }
      routeRequest .sett g (frameLen g) 0 s
    else throttleNotice f.binding false s

/-- A frame has left its ingress buffer whole (R212, R227). -/
def crossed (x : XReq) (s : State) : State := copyGone x.orig s

/-- A frame has crossed into its egress queue: a posted write to a target of this module is acknowledged, with the epoch in force (R400). -/
def landed (n : Nat) (x : XReq) (s : State) : State :=
  crossed x (if isDevice s n && isPosted x.f && isWrite x.f then ackPosted x.f.binding (epochNow s) s else s)

/-- Deliver a granted frame to its egress queue (R205, R207, R229, R232, R233, R236): an MG frame may be dropped, another may be marked. -/
def grantToLp (key n : Nat) (x : XReq) (s : State) : State :=
  let q := queueOf s n x.f
  if x.f.cls == clsMG && queueFull s n x.f then crossed x (bump .tailDrops n (takeReq x s))
  else
    let (hit, s) := redDecision n q x.f s
    if hit && x.f.cls == clsMG then crossed x (bumpC .drops n x.f.colour.toNat 1 (ctxOf s x.f) (takeReq x s))
    else
      let s := if hit then bumpC .marks n x.f.colour.toNat 1 (ctxOf s x.f) s else s
      let f := if hit then { x.f with marked := true } else x.f
      let s := bumpC .qFrames n q 1 (ctxOf s f) s
      let s := bumpC .qBytes n q (frameLen f) (ctxOf s f) s
      let whole := decide (frameLen f ≤ x.arrived)
      let holdIt := x.f.cls == clsBM || !whole
      let s := enqueue n { f := f, whole := whole, avail := x.arrived, sf := x.sf, src := x.src, since := x.since, id := x.id, crossing := holdIt, orig := x.orig } s
      let s := if hit then markNotice n q f s else s
      if holdIt then modArb key (fun a => { a with cur := some x, at_ := now s }) s
      else landed n x (takeReq x s)

/-- The logical port of a request's source, for a slice. -/
def srcLp (x : XReq) : Nat := match x.src with
  | .port n => n
  | _ => 0

/-- Carry out a grant (R216, R237): to a port that is down, what R129 and R130 give. -/
def carryGrant (key : Nat) (x : XReq) (s : State) : State :=
  let s := noteGrant key x s
  match x.dst with
  | .slice i => pump i (sliceReceive i (srcLp x) x.f (crossed x (takeReq x s)))
  | .lp n =>
    if linkLive s n || (initOf s n).retrain ≠ 0 then grantToLp key n x s
    else crossed x (loseFrame n x.src x.f stUnavail (takeReq x s))

/-- The egress has started to transmit a frame that is still crossing (R219). -/
def egressStarted (s : State) (n id : Nat) : Bool := !(List.range 8).any (fun q => (queueAt s n q).frames.any (fun y => y.id == id))

/-- The queue entry of a transfer changes. -/
def modCrossing (n id : Nat) (g : QFrame → QFrame) (s : State) : State :=
  (List.range 8).foldl (fun s q => if (queueAt s n q).frames.any (fun y => y.id == id) then
    modQueue (8 * n + q) (fun x => { x with frames := x.frames.map (fun y => if y.id == id then g y else y) }) s else s) s

/-- The request of a transfer as it stands: more of its bytes may have come. -/
def curReq (s : State) (x : XReq) : XReq := (s.sw.reqs.find? (fun y => y.id == x.id)).getD x

/-- The transfer in progress of an arbiter ends or is revoked (R208, R218, R219): a waiting CM request revokes a BM transfer that was revoked less than four times and that no egress started; a frame that is not whole keeps its grant. Answers whether the arbiter is idle. -/
def settleCur (key : Nat) (s : State) : Bool × State :=
  match (tget s.sw.arbs key).cur with
  | none => (true, s)
  | some x0 =>
    let x := curReq s x0
    if !s.sw.reqs.any (fun y => y.id == x0.id) then (true, modArb key (fun a => { a with cur := none }) s)
    else match x.dst with
    | .slice _ => (true, modArb key (fun a => { a with cur := none }) s)
    | .lp n =>
      let cm := s.sw.reqs.any (fun y => arbOf y == key && y.f.cls == clsCM && mayGrant s y)
      if x.f.cls == clsBM && cm && x.revoked < 4 && !egressStarted s n x.id then
        let s := dropCrossing n x.id s
        let s := bump .revocations n s
        let s := if x.revoked = 3 then bump .pins n s else s
        let s := modSw (fun w => { w with reqs := w.reqs.map (fun y => if y.id == x.id then { y with revoked := y.revoked + 1 } else y) }) s
        (true, modArb key (fun a => { a with cur := none }) s)
      else if frameLen x.f ≤ x.arrived then
        let s := modCrossing n x.id (fun y => { y with crossing := false, whole := true, avail := frameLen y.f }) s
        (true, modArb key (fun a => { a with cur := none }) (landed n x (takeReq x s)))
      else (false, s)

/-- An arbiter's decision (R215 to R219): what it was transferring ends or is revoked, then it grants. A transfer in progress is not offered again (DEDUCED, assumption 61). -/
def grant (a : ArbId) (s : State) : State :=
  let key := arbKey a
  let (idle, s) := settleCur key s
  if !idle then s
  else match chooseGrant s key with
    | some x => carryGrant key x s
    | none => match a with
      | .slice i => noteFull i.val s
      | _ => s

/-- A merge that is not whole after its timeout (R213, R237): each open member counts as TIMEOUT. -/
def mergeExpire (id : Nat) (s : State) : State :=
  match s.sw.merges.find? (fun m => m.id == id) with
  | none => s
  | some m =>
    if now s ≤ m.deadline then s
    else
      let worst := (mergeOrder.find? (fun x => (6 :: m.statuses).contains x)).getD 6
      let s := modSw (fun w => { w with merges := w.merges.filter (fun x => x.id != id) }) s
      answer m.req (BitVec.ofNat 4 worst) [] m.epoch s

/-- Frames that waited for a frozen output longer than the hold limit complete as not yet handed to the link (R221); a transfer in progress completes (R220). -/
def freezeExpire (p : Nat) (s : State) : State :=
  if !(portOf s p).freeze then s
  else
    let cur := s.sw.arbs.filterMap (fun e => e.2.cur.map (·.id))
    let late := fun (x : XReq) => !cur.contains x.id && (match x.dst with
      | .lp n => n / 2 == p && decide (now s > x.since + (cfgOf s n).freezeLimit)
      | .slice _ => false)
    let gone := s.sw.reqs.filter late
    let s := modSw (fun w => { w with reqs := w.reqs.filter (fun x => !late x) }) s
    gone.foldl (fun s x => match x.dst with
      | .lp n => copyGone x.orig (loseFrame n x.src x.f stUnavail (bump .freezeExp n s))
      | .slice _ => s) s

/-- Every frame that was forwarded for a destination on a link has been acknowledged (R198). -/
def didQuiet (s : State) (n did : Nat) : Bool :=
  let mine := fun (f : Frame) => f.did.toNat == did
  let t := txOf s n
  let unacked := t.replay.filter (fun r => decide ((r.seq + 65536 - t.unacked) % 65536 < (t.next + 65536 - t.unacked) % 65536))
  !(List.range 8).any (fun q => (queueAt s n q).frames.any (fun x => mine x.f)) && !t.frames.any (fun x => mine x.f) && !unacked.any (fun r => r.frames.any mine)

/-- The hold of an ordered route change ends (R198). -/
def routeRelease (did : Nat) (s : State) : State :=
  let h := tget s.sw.holds did
  if h.why == some .route && (decide (now s ≥ h.until_) || didQuiet s h.oldLp did) then releaseHeld did s else s

/-- A route's links are logical ports that exist (R27). -/
def routeLinks (s : State) (e : Nat) : Bool := rKind e != 1 || (lpExists s (rPrim e) && (!rTv e || lpExists s (rTwin e)))

/-- `port.route_set` (R27, R195, R198, R237): BUSY while a failover, a failback or a retrain has the destination. -/
def specRouteSet : CmdSpec :=
  { op := 0x0208, who := fmOnly, args := fun s p => [lenIs p 8, fld 0 (decide (fieldAt p 0 2 < 4096) && fieldAt p 0 2 != 0xBFF), fld 2 (decide (fieldAt p 2 1 < 2)), rsv p 3 1, fld 4 (decide (fieldAt p 4 4 < 2 ^ 30) && routeLinks s (fieldAt p 4 4))], run := fun _ p s =>
      let d := fieldAt p 0 2
      let e := fieldAt p 4 4
      let old := routeEntry s d
      let h := tget s.sw.holds d
      if h.why.isSome && h.why != some .route then ({ status := .busy }, s)
      else
        let s := modSw (fun w => { w with routes := tset w.routes d e }) s
        if bitOf (fieldAt p 2 1) 0 && rKind old == 1 && old != e then
          let n := rLp old
          ({}, modSw (fun w => { w with holds := tset w.holds d { h with why := some .route, until_ := now s + (txOf s n).rtt + 1000, oldLp := n } }) s)
        else ({}, s) }

/-- The members of a group payload (R210). -/
def membersFrom (p : Bytes) : List (Nat × Nat) := (List.range (fieldAt p 4 2)).map (fun k => (fieldAt p (8 + 4 * k) 1, fieldAt p (10 + 4 * k) 2))

/-- The checks of a group payload (R210). -/
def mcastArgs (create : Bool) (s : State) (p : Bytes) : List (Nat × Bool) :=
  [lenIs p (8 + 4 * fieldAt p 4 2), fld 0 (!create || fieldAt p 0 4 == 0), fld 4 (decide (1 ≤ fieldAt p 4 2) && decide (fieldAt p 4 2 ≤ 256)), rsv p 6 2]
    ++ (List.range (min 256 (fieldAt p 4 2))).flatMap (fun k => [fld (8 + 4 * k) (lpExists s (fieldAt p (8 + 4 * k) 1)), rsv p (9 + 4 * k) 1, fld (10 + 4 * k) (decide (fieldAt p (10 + 4 * k) 2 < 0xC00))])

/-- The routing entry of a group's DID (R195, R210, DEDUCED, assumption 65). -/
def groupEntry (i : Nat) : Nat := 3 + i * 2 ^ 19

/-- `port.mcast_create` (R210): the group's DID comes to name it. -/
def specMcastCreate : CmdSpec :=
  { op := 0x0209, who := fmOnly, args := mcastArgs true, cap := fun s _ _ => (lowestFree s 9).isSome, creates := some 9, run := fun x p s =>
      match newObject 9 x s with
      | (none, s) => ({ status := .noResource }, s)
      | (some h, s) => ({ related := h, h1 := h }, modSw (fun w => { w with groups := tset w.groups (hIdx h) { members := membersFrom p }, routes := tset w.routes (0xC00 + hIdx h) (groupEntry (hIdx h)) }) s) }

/-- `port.mcast_update` (R210, R237). -/
def specMcastUpdate : CmdSpec :=
  { op := 0x020A, who := fmOnly, args := mcastArgs false, handles := fun p => oneHandle p 9, run := fun _ p s => ({ h1 := handleAt p 0 }, modSw (fun w => { w with groups := tset w.groups (hIdx (handleAt p 0)) { members := membersFrom p } }) s) }

/-- `port.mcast_destroy` (R196, R520). -/
def specMcastDestroy : CmdSpec :=
  { op := 0x020B, who := fmOnly, args := fun _ p => [lenIs p 4], handles := fun p => oneHandle p 9, run := fun _ p s =>
      let i := hIdx (handleAt p 0)
      ({ h1 := handleAt p 0 }, freeIndex 9 i (modSw (fun w => { w with groups := tset w.groups i default, routes := tset w.routes (0xC00 + i) 0 }) s)) }

/-- `port.freeze` (R220). -/
def specFreeze : CmdSpec :=
  { op := 0x0207, who := fmOnly, args := fun s p => [lenIs p 4, fld 0 (lpExists s (fieldAt p 0 1)), fld 1 (decide (fieldAt p 1 1 < 2)), rsv p 2 2], run := fun _ p s => ({}, modPort (fieldAt p 0 1 / 2) (fun x => { x with freeze := fieldAt p 1 1 == 1 }) s) }

/-- PORT_ROUTE_SET. -/
def execPortRouteSet (q : Req) (p : Bytes) (s : State) : Host.Outcome State Fault Refusal := finishStep (runCmd specRouteSet q p s)
/-- PORT_MCAST_CREATE. -/
def execPortMcastCreate (q : Req) (p : Bytes) (s : State) : Host.Outcome State Fault Refusal := finishStep (runCmd specMcastCreate q p s)
/-- PORT_MCAST_UPDATE. -/
def execPortMcastUpdate (q : Req) (p : Bytes) (s : State) : Host.Outcome State Fault Refusal := finishStep (runCmd specMcastUpdate q p s)
/-- PORT_MCAST_DESTROY. -/
def execPortMcastDestroy (q : Req) (p : Bytes) (s : State) : Host.Outcome State Fault Refusal := finishStep (runCmd specMcastDestroy q p s)
/-- PORT_FREEZE. -/
def execPortFreeze (q : Req) (p : Bytes) (s : State) : Host.Outcome State Fault Refusal := finishStep (runCmd specFreeze q p s)
/-- CROSSBAR_GRANT (R216). -/
def execCrossbarGrant (a : ArbId) (s : State) : Host.Outcome State Fault Refusal := finishStep (grant a s)
/-- MERGE_TIMEOUT (R213). -/
def execMergeTimeout (id : Nat) (s : State) : Host.Outcome State Fault Refusal := finishStep (mergeExpire id s)
/-- FREEZE_HOLD_EXPIRY (R221). -/
def execFreezeHoldExpiry (p : PortId) (s : State) : Host.Outcome State Fault Refusal := finishStep (freezeExpire p.val s)
/-- ROUTE_HOLD_RELEASE (R198). -/
def execRouteHoldRelease (did : BitVec 12) (s : State) : Host.Outcome State Fault Refusal := finishStep (routeRelease did.toNat s)
/-- BROCK_REQUEST: a request granted at a slice (R293, R316). -/
def execBrockRequest (i : SliceId) (lp : LpId) (f : Frame) (s : State) : Host.Outcome State Fault Refusal := finishStep (pump i.val (sliceRequest i.val lp.val f s))
/-- WB_M: a write-back granted at a slice (R317, R318). -/
def execWbM (i : SliceId) (lp : LpId) (f : Frame) (s : State) : Host.Outcome State Fault Refusal := finishStep (pump i.val (if f.opcode == 0x10 then sliceNotice i.val lp.val f s else s))
/-- EVICT_E: the notice of an exclusive holder (R317, R318). -/
def execEvictE (i : SliceId) (lp : LpId) (f : Frame) (s : State) : Host.Outcome State Fault Refusal := finishStep (pump i.val (if f.opcode == 0x11 then sliceNotice i.val lp.val f s else s))
/-- EVICT_S: the notice of a shared holder (R305, R317, R318). -/
def execEvictS (i : SliceId) (lp : LpId) (f : Frame) (s : State) : Host.Outcome State Fault Refusal := finishStep (pump i.val (if f.opcode == 0x12 then sliceNotice i.val lp.val f s else s))
/-- SNOOP_ANSWER (R319). -/
def execSnoopAnswer (i : SliceId) (lp : LpId) (f : Frame) (s : State) : Host.Outcome State Fault Refusal := finishStep (pump i.val (sliceAnswer i.val lp.val f s))
/-- SNOOP_TIMEOUT (R325). -/
def execSnoopTimeout (i : SliceId) (lp : LpId) (trk : Fin 2048) (s : State) : Host.Outcome State Fault Refusal := finishStep (pump i.val (snoopExpired i.val lp.val trk.val s))
/-- MEMORY_DATA_RETURN (R316). -/
def execMemoryDataReturn (i : SliceId) (trk : Fin 2048) (r : MemRet) (s : State) : Host.Outcome State Fault Refusal := finishStep (pump i.val (memoryReturn i.val trk.val r s))
/-- MEMORY_WRITE_COMPLETE (R321, R364). -/
def execMemoryWriteComplete (i : SliceId) (line : BitVec 46) (s : State) : Host.Outcome State Fault Refusal := finishStep (pump i.val (memoryWritten i.val line.toNat s))
/-- LOST_AGENT_SWEEP_DONE (R326, R328). -/
def execLostAgentSweepDone (i : SliceId) (lp : LpId) (s : State) : Host.Outcome State Fault Refusal := finishStep (pump i.val (sweepDone i.val lp.val s))
/-- SET_CACHE_FILL (R355). -/
def execSetCacheFill (i : SliceId) (set : BitVec 23) (ok : Bool) (s : State) : Host.Outcome State Fault Refusal := finishStep (pump i.val (setFill i.val set.toNat ok s))

end Sys2Proof.Machine
end

