-- ==== Sys2Proof/Machine/Monitor.lean ====
section
/-! DEFINITION. The bandwidth monitors of the logical ports (R688). -/

namespace Sys2Proof.Machine

/-- Change a bandwidth monitor. -/
def modMon (n : Nat) (g : BwMon → BwMon) (s : State) : State := { s with ctr := { s.ctr with mons := tmod s.ctr.mons n g } }

/-- Count frame bytes as a frame's last byte crosses a port's contacts (R688): from the first whole window on. -/
def bwCount (n : Nat) (inward : Bool) (len : Nat) (s : State) : State :=
  if (tget s.ctr.mons n).window = 0 || decide (now s < (tget s.ctr.mons n).start) then s
  else modMon n (fun m => if inward then { m with inBytes := m.inBytes + len } else { m with outBytes := m.outBytes + len }) s

/-- Close the window of a monitor at an instant (R688): its totals are kept, and the next window starts there. -/
def bwClose (t : Nat) (short : Bool) (m : BwMon) : BwMon :=
  { m with lastStart := m.start, lastShort := short, lastIn := m.inBytes, lastOut := m.outBytes, peakIn := max m.peakIn m.inBytes, peakOut := max m.peakOut m.outBytes, inBytes := 0, outBytes := 0, start := t }

/-- A window that ends by now is closed at its end (R688): windows start at the multiples of W. -/
def bwEnd (n : Nat) (s : State) : State :=
  let m := tget s.ctr.mons n
  if m.window = 0 then s
  else
    let e := (m.start / m.window + 1) * m.window
    if now s < e then s else modMon n (bwClose e false) s

/-- A step of the count closes every window, marked short (R688). -/
def bwStep (s : State) : State := { s with ctr := { s.ctr with mons := s.ctr.mons.map (fun e => (e.1, if e.2.window = 0 || decide (now s < e.2.start) then e.2 else bwClose (now s) true e.2)) } }

/-- BANDWIDTH_WINDOW_END's effect is `bwEnd`; a port without a monitor has none. -/
def hasMonitor (s : State) (n : Nat) : Bool := (tget s.ctr.mons n).window != 0

end Sys2Proof.Machine
end

