-- ==== Sys2Proof/Machine/Hoard.lean ====
section
/-! DEFINITION. Hoard epochs: the grid, boundaries, flushes, the durable epoch and the hold-up estimate; steps of the count (R392, R395 to R406, R419, R420, R429, R434). -/

namespace Sys2Proof.Machine

/-- Change the fabric-time unit. -/
def modFt (g : FtSt → FtSt) (s : State) : State := { s with ft := g s.ft }

/-- The lowest durable epoch of this module and its subtree (R389). -/
def subtreeDurable (s : State) : Nat := (childrenHeard s).foldl (fun n e => min n e.2.msg.subtree) s.hoard.durable

/-- The fabric durable epoch: on the grandmaster the lowest of its tree; elsewhere what its parent announces (R389, R407). -/
def updateFabric (s : State) : State :=
  if s.ft.gm then modHoard (fun h => { h with fabricDurable := subtreeDurable s }) s
  else match s.ft.parent with
    | some p => modHoard (fun h => { h with fabricDurable := (tget s.ft.heard p.val).msg.subtree }) s
    | none => s

/-- Keep the epoch reservation ahead of the epoch number, in advances of 2^24 (R429). -/
def reserveEpochs (s : State) : State :=
  let near := s.hoard.epoch + 2 ^ 23
  if near ≥ s.ledger.reservation then ledgerWrite (fun b => { b with reservation := b.reservation + ((near - b.reservation) / 2 ^ 24 + 1) * 2 ^ 24 }) s else s

/-- Steps E1 and E2 of a flush (R402): every dirty persistent line is written back. -/
def startFlush (f : Flush) (t : Nat) (s : State) : State :=
  let (n, s) := flushDrey (fun _ w => w.p) s
  let s := (List.range 4).foldl (fun s k => capUpdate k s) s
  modHoard (fun h => { h with flushing := some { f with started := t, lines := n, stage := 2 } }) (bumpC .epochWb 0 0 n {} s)

/-- Close an epoch at an instant: its flush starts, or waits for the one before it (R402). -/
def closeEpoch (e t : Nat) (s : State) : State :=
  let f : Flush := { epoch := e, boundary := t }
  if s.hoard.flushing.isSome then modHoard (fun h => { h with waiting := h.waiting ++ [f] }) s else startFlush f t s

/-- Open the epoch of a number at an instant, closing the one before (R396). A mark falls due every 4,096 epochs, but not in Hibernate (R425, R437). -/
def openEpoch (e t : Nat) (s : State) : State :=
  let old := s.hoard.epoch
  let s := modHoard (fun h => { h with epoch := e, start := t }) s
  let s := bump .epochs 0 (closeEpoch old t s)
  let s := reserveEpochs s
  if s.hoard.epoch ≥ s.journal.lastMark + 4096 && s.dev.st != .hibernate then jMark s else s

/-- An epoch boundary (R396 to R398): a pending period takes effect at its Change time, which is the base of the new grid. -/
def epochBoundary (s : State) : State :=
  let t := nextBoundary s
  if now s < t then s
  else
    let s := match s.hoard.pendingPeriod with
      | some (p, c) => if c ≤ t then modHoard (fun h => { h with period := p, base := c, pendingPeriod := none }) s else s
      | none => s
    openEpoch (numberAt s t) t s

/-- A frame is a BFLUSH of the Sett. -/
def isFlush (f : Frame) : Bool := f.cls == clsBM && f.opcode == 0x04 && f.priv

/-- A BFLUSH or a CXL write of before a boundary is still outstanding towards a port that has not failed (R402 step E3). -/
def flushesLeft (s : State) (boundary : Nat) (failed : List Nat) : Bool :=
  s.net.denOut.any (fun e => !failed.contains e.1 && e.2.any (fun o => o.asker == .flush))
    || s.sw.reqs.any (fun x => x.src == .sett && isFlush x.f && !(match x.dst with | .lp n => failed.contains n | .slice _ => false))
    || s.sw.queues.any (fun e => !failed.contains (e.1 / 8) && e.2.frames.any (fun q => q.src == .sett && isFlush q.f))
    || s.net.cxl.any (fun e => !failed.contains e.1 && isDevice s e.1 && e.2.out.any (fun o => !o.read && decide (o.since < boundary)))

/-- Step E4 (R402, R405, R434): notices are posted, D advances, the lagging flag follows, and the next flush starts. -/
def finishFlush (f : Flush) (s : State) : State :=
  let t := now s
  let s := postAll s
  let took := t - f.started
  let late := decide (t > f.boundary + s.hoard.period)
  let say := late && (match s.hoard.lagNoticeAt with | some x => decide (t ≥ x + 1000000000) | none => true)
  let s := modHoard (fun h => { h with durable := max h.durable f.epoch, durableAt := t, lastF := took, maxF := max h.maxF took, lagging := late, lagNoticeAt := if say then some t else h.lagNoticeAt, flushing := none }) s
  let s := if late then bump .lagEpochs 0 s else s
  let s := if say then raise { code := 0x0801, cls := .notice, block := 225, arg := f.epoch } s else s
  let s := holdCheck (updateFabric s)
  match s.hoard.waiting with
  | [] => s
  | w :: r => startFlush w (max w.boundary t) (modHoard (fun h => { h with waiting := r }) s)

/-- The end of step E3 (R402, R406): with the targets that failed. Nothing ends while another target still owes its completion. -/
def epochFlushDone (failed : List Nat) (s : State) : State :=
  match s.hoard.flushing with
  | none => s
  | some f =>
    if f.stage ≠ 3 || flushesLeft s f.boundary failed then s
    else finishFlush f (failed.foldl (fun s n => flushFailed n f.epoch s) s)

/-- A step of the count (R392, R399): FT_STATUS [9], a record with its size in fabric-time count units, the epoch closed at its tick, a mark, every gate held open and every bandwidth window closed short. -/
def countStep (size : Int) (s : State) : State :=
  let mag := BitVec.ofNat 80 (size.natAbs * 65536)
  let s := modFt (fun f => { f with acc := if size < 0 then f.acc - mag else f.acc + mag, stepped := true, lastStep := size, slew := 0, inc := 2 ^ 32 }) s
  let s := bump .ftSteps 0 s
  let s := raise { code := 0x09FF, cls := .notice, block := 162, detail := 1, arg := (size.emod (2 ^ 64 : Nat)).toNat } s
  let s := openEpoch (s.hoard.epoch + 1) (now s) s
  bwStep (stepGates (if s.dev.st != .hibernate then jMark s else s))

end Sys2Proof.Machine
end

