-- ==== Sys2Proof/Machine/Time.lean ====
section
/-! DEFINITION. Fabric time: the grandmaster election, ANNOUNCE, the delay exchange, FTREF, FTOUT_PPS and the `time` commands (R379 to R394, R734). -/

namespace Sys2Proof.Machine

/-- A port that exchanges fabric time: a Den fabric port with time enabled whose link is live (R385, R388). -/
def timePort (s : State) (n : Nat) : Bool := (tget s.io.entries n).en && isDen s n && isFabric s n && linkLive s n

/-- Both FTREF inputs are valid (R380). -/
def ftrefOk (s : State) : Bool := s.io.ppsOk && s.io.tenMOk

/-- A candidate is better than another (R384). -/
def better (p1 s1 p2 s2 : Nat) : Bool := decide (p1 < p2) || (p1 == p2 && decide (s1 < s2))

/-- The best of the candidates heard in the last 30 µs, by priority, serial number, steps and port (R384, R386). -/
def bestHeard (s : State) : Option (Nat × Heard) :=
  (heardNow s).foldl (fun b e => match b with
    | none => some e
    | some x =>
      let m := e.2.msg
      let y := x.2.msg
      if better m.gmPrio m.gmSerial y.gmPrio y.gmSerial || (m.gmPrio == y.gmPrio && m.gmSerial == y.gmSerial && decide (m.steps < y.steps)) then some e else b) none

/-- The mode of a grandmaster (R380, R590). -/
def gmMode (s : State) : FtMode := if s.io.extRef && ftrefOk s then .external else .free

/-- Change the FTREF side. -/
def modIo (g : FtIo → FtIo) (s : State) : State := { s with io := g s.io }

/-- The module takes itself as grandmaster in a mode (R386); its own period applies from the first boundary at least 1 ms away (R395, R398, DEDUCED, assumption 97). -/
def selfGm (mode : FtMode) (s : State) : State :=
  let t := now s
  let was := s.ft.gm
  let s := modFt (fun f => { f with gm := true, parent := none, steps := 0, gmPrio := s.io.prio, gmSerial := s.fuses.serial.toNat, mode := mode, traceable := decide (mode = .external), waiting := none }) s
  let s := if was then s else modHoard (fun h => { h with pendingPeriod := if h.ownPeriod = h.period then none else some (h.ownPeriod, gridAfter h.base (max h.period 1) (t + 999999)) }) (modIo (fun i => { i with gmSince := some t }) s)
  updateFabric s

/-- The module follows a parent (R386, R394): in BOOT until its first acquisition, else INBAND. -/
def follow (n : Nat) (m : TimeMsg) (s : State) : State :=
  let id_ : LpId := Fin.ofNat 256 n
  let s := modFt (fun f => { f with gm := false, parent := some id_, steps := min 15 (m.steps + 1), gmPrio := m.gmPrio, gmSerial := m.gmSerial, traceable := m.traceable, mode := if f.acquired then .inband else .boot, waiting := if f.parent = some id_ then f.waiting else none }) s
  updateFabric (modIo (fun i => { i with gmSince := none }) s)

/-- The election (R386): the best among this module and what it hears. A module that becomes grandmaster by itself runs in EXTERNAL or FREE; one that stays grandmaster keeps its mode. A parent that says it leaves is dropped at once (R437); one that falls silent is left to R394. -/
def elect (s : State) : State :=
  match bestHeard s with
  | some (n, h) =>
    if better h.msg.gmPrio h.msg.gmSerial s.io.prio s.fuses.serial.toNat then follow n h.msg s
    else if s.ft.gm then selfGm s.ft.mode s else selfGm (gmMode s) s
  | none =>
    if s.ft.gm then selfGm s.ft.mode s
    else match s.ft.parent with
      | some p => if (tget s.ft.heard p.val).valid then s else selfGm (gmMode s) s
      | none => s

/-- What an ANNOUNCE on a port says (R385, R387, R389): before its election a module knows no better grandmaster than itself. -/
def announceFor (s : State) (n : Nat) : TimeMsg :=
  let up := s.ft.parent.map (·.val) == some n
  let alone := !s.ft.gm && s.ft.parent.isNone
  let (pend, at_) := s.hoard.pendingPeriod.getD (0, 0)
  { subtype := 1, traceable := s.ft.traceable, holdover := decide (s.ft.mode = .holdover), leaving := s.dev.st == .hibernate || (s.dev.st == .drain && s.dev.drainDone), changePending := s.hoard.pendingPeriod.isSome, steps := s.ft.steps, gmPrio := if alone then s.io.prio else s.ft.gmPrio, gmSerial := if alone then s.fuses.serial.toNat else s.ft.gmSerial, senderSerial := s.fuses.serial.toNat, epoch := s.hoard.epoch, epochStart := s.hoard.start, period := s.hoard.period, pendingPeriod := pend, base := s.hoard.base, changeTime := at_, durable := s.hoard.durable, subtree := if up then subtreeDurable s else s.hoard.fabricDurable, floor := if up then floorNow s else 0 }

/-- Queue a TIME message on a Den link (R117). -/
def sendTime (n : Nat) (m : TimeMsg) (s : State) : State := modTx n (fun t => { t with times := t.times ++ [m] }) s

/-- Fabric time is running: the device is neither Off nor in Grave. -/
def timeRuns (s : State) : Bool := s.dev.st != .off && s.dev.st != .grave

/-- An ANNOUNCE leaves on every time port every 10 µs (R385). -/
def announceSend (s : State) : State :=
  if !timeRuns s || decide (now s < s.ft.lastAnnounce + 10000) then s
  else
    let ports := (List.range 256).filter (timePort s)
    let t := now s
    ports.foldl (fun s n => sendTime n (announceFor s n) s) (modFt (fun f => { f with lastAnnounce := t }) s)

/-- The epoch data of the parent's ANNOUNCE (R395 to R398, R437): grid, pending change and number. -/
def takeEpochData (m : TimeMsg) (s : State) : State :=
  let p := max m.period 1
  modHoard (fun h =>
    let n := if m.epochStart ≤ h.start then m.epoch + (h.start - m.epochStart) / p else h.epoch
    { h with period := m.period, base := m.base, pendingPeriod := if m.changePending then some (m.pendingPeriod, m.changeTime) else none, epoch := max h.epoch n }) s

/-- An ANNOUNCE arrives (R386, R389, R437): one on the tick its 30 µs timeout expires is taken and counts a near miss. -/
def announce (n : Nat) (m : TimeMsg) (s : State) : State :=
  if !timeRuns s || !timePort s n then s
  else
    let old := tget s.ft.heard n
    let t := now s
    let s := if old.valid && t == old.at_ + 30000 then bump .annNear 0 s else s
    let s := modFt (fun f => { f with heard := tset f.heard n { msg := m, at_ := t, valid := decide (m.steps < 15) && !m.leaving } }) s
    let s := elect s
    let s := if s.ft.parent.map (·.val) == some n && !s.ft.gm then takeEpochData m s else s
    reserveEpochs (updateFabric s)

/-- The grandmaster's ANNOUNCE has been absent for 30 µs (R394): a better one is followed, else HOLDOVER. -/
def announceTimeout (s : State) : State :=
  if s.ft.gm || s.ft.parent.isNone then s
  else if (heardNow s).any (fun e => e.2.msg.gmPrio == s.ft.gmPrio && e.2.msg.gmSerial == s.ft.gmSerial) then elect s
  else
    let s := bump .annLoss 0 s
    match bestHeard s with
    | some (n, h) => if better h.msg.gmPrio h.msg.gmSerial s.io.prio s.fuses.serial.toNat then follow n h.msg s else selfGm .holdover s
    | none => selfGm .holdover s

/-- A hardware stamp: the count with a resolution of 1/64 ns (R390). -/
def stamp64 (s : State) : Nat := ftCount s / 1024 * 1024

/-- DELAY_REQ leaves on the parent port every 125 µs (R391). -/
def delayReqSend (s : State) : State :=
  match s.ft.parent with
  | none => s
  | some p =>
    if s.ft.gm || !timeRuns s || !timePort s p.val || decide (now s < s.ft.lastDelayReq + 125000) then s
    else
      let t := now s
      let x := (s.ft.exchange + 1) % 65536
      sendTime p.val { subtype := 2, gmPrio := 0, exchange := x, senderSerial := s.fuses.serial.toNat } (modFt (fun f => { f with exchange := x, waiting := some (x, t), lastDelayReq := t }) s)

/-- A DELAY_REQ is answered with DELAY_RSP (R389 to R391). -/
def delayReq (n : Nat) (m : TimeMsg) (s : State) : State :=
  if !timeRuns s || !timePort s n then s
  else sendTime n { subtype := 3, gmPrio := 0, exchange := m.exchange, senderSerial := s.fuses.serial.toNat, t1 := m.sendTime, t2 := stamp64 s } s

/-- Slew the count by an offset in count units, at a rate that a free value sets within ±250 ppm (R391, DESIGN CHOICE, assumption 22). -/
def slewBy (o : Int) (s : State) : State :=
  if o = 0 then modFt (fun f => { f with slew := 0, inc := 2 ^ 32 }) s
  else
    let (r, s) := drawFree s
    let d := 1 + r % 1073741
    modFt (fun f => { f with slew := o * 65536, inc := if o > 0 then 2 ^ 32 + d else 2 ^ 32 - d }) s

/-- A DELAY_RSP gives delay and offset, and the count is slewed or stepped (R391). -/
def delayRsp (n : Nat) (m : TimeMsg) (s : State) : State :=
  if !timeRuns s || s.ft.gm || s.ft.parent.map (·.val) != some n || s.ft.waiting.map (·.1) != some m.exchange then s
  else
    let t4 : Int := stamp64 s
    let d := ((t4 - (m.t1 : Int)) - ((m.sendTime : Int) - (m.t2 : Int))) / 2
    let o := (((m.t2 : Int) - (m.t1 : Int)) - (t4 - (m.sendTime : Int))) / 2 - (tget s.io.entries n).asym * 1024
    let first := !s.ft.acquired
    let s := modFt (fun f => { f with waiting := none, delay := d.toNat, offset := o, acquired := true, mode := .inband }) s
    if first || o.natAbs > 20000 * 65536 then countStep o s else slewBy o s

/-- A `time.set` takes effect: the count steps to a whole second (R382). -/
def setSeconds (sec : Nat) (s : State) : State := countStep (((sec * 1000000000 * 65536 : Nat) : Int) - (ftCount s : Int)) s

/-- A rising edge of FTREF_PPS (R381, R382, R734): in EXTERNAL it marks a whole second, to which the count is slewed, or stepped when a `time.set` is pending. -/
def ppsEdge (s : State) : State :=
  let t := now s
  let s := modIo (fun i => { i with lastPps := some t, ppsOk := true, okSince := i.okSince.or (some t) }) s
  if s.ft.gm && s.ft.mode = .external then
    match s.io.pendingSet with
    | some sec => setSeconds sec (modIo (fun i => { i with pendingSet := none }) s)
    | none =>
      let whole := (t + 500000000) / 1000000000 * 1000000000
      slewBy (((whole * 65536 : Nat) : Int) - (ftCount s : Int)) s
  else s

/-- An FTREF input is lost (R381): the PPS edge after 1.000 002 s, or the frequency of the 10 MHz input. -/
def ftrefLoss (pps : Bool) (s : State) : State :=
  let gone := if pps then (match s.io.lastPps with | some t => decide (now s ≥ t + 1000002000) | none => true) else true
  if !gone then s
  else
    let s := modIo (fun i => { i with ppsOk := i.ppsOk && !pps, tenMOk := i.tenMOk && pps, okSince := none }) s
    if s.ft.gm && s.ft.mode = .external then
      raise { code := 0x0901, cls := .degraded, block := 162, detail := b2n pps } (modFt (fun f => { f with mode := .holdover, traceable := false, slew := 0 }) s)
    else s

/-- Both inputs have been valid for 2 s (R380, R381). -/
def ftrefRestored (s : State) : State :=
  let s := modIo (fun i => { i with tenMOk := true }) s
  let long := match s.io.okSince with
    | some t => decide (now s ≥ t + 2000000000)
    | none => false
  if s.io.ppsOk && long && s.ft.gm && s.io.extRef && (s.ft.mode = .holdover || s.ft.mode = .free) then selfGm .external s else s

/-- FTOUT_PPS (R383): high for 100 µs from each whole second, when enabled and out of BOOT. -/
def ftoutPps (s : State) : State :=
  let on := s.io.ppsEn && s.ft.mode != .boot && decide (now s % 1000000000 < 100000)
  modIo (fun i => { i with ppsOut := on }) s

/-- ANNOUNCE_SEND (R385). -/
def execAnnounceSend (s : State) : Host.Outcome State Fault Refusal := finishStep (announceSend s)
/-- ANNOUNCE (R386). -/
def execAnnounce (lp : LpId) (m : TimeMsg) (s : State) : Host.Outcome State Fault Refusal := finishStep (announce lp.val m s)
/-- ANNOUNCE_TIMEOUT (R394). -/
def execAnnounceTimeout (s : State) : Host.Outcome State Fault Refusal := finishStep (announceTimeout s)
/-- DELAY_REQ_SEND (R391). -/
def execDelayReqSend (s : State) : Host.Outcome State Fault Refusal := finishStep (delayReqSend s)
/-- DELAY_REQ (R391). -/
def execDelayReq (lp : LpId) (m : TimeMsg) (s : State) : Host.Outcome State Fault Refusal := finishStep (delayReq lp.val m s)
/-- DELAY_RSP (R391). -/
def execDelayRsp (lp : LpId) (m : TimeMsg) (s : State) : Host.Outcome State Fault Refusal := finishStep (delayRsp lp.val m s)
/-- FTREF_PPS_EDGE (R734). -/
def execFtrefPpsEdge (s : State) : Host.Outcome State Fault Refusal := finishStep (ppsEdge s)
/-- FTREF_LOSS (R381). -/
def execFtrefLoss (pps : Bool) (s : State) : Host.Outcome State Fault Refusal := finishStep (ftrefLoss pps s)
/-- FTREF_RESTORED (R381). -/
def execFtrefRestored (s : State) : Host.Outcome State Fault Refusal := finishStep (ftrefRestored s)
/-- FTOUT_PPS_PULSE (R383). -/
def execFtoutPpsPulse (s : State) : Host.Outcome State Fault Refusal := finishStep (ftoutPps s)

/-- EPOCH_BOUNDARY (R396): epochs run while the runtime does, but in Hibernate only its own steps close one. -/
def execEpochBoundary (s : State) : Host.Outcome State Fault Refusal :=
  finishStep (if fwRuns s && s.dev.st != .hibernate then epochBoundary s else s)

/-- EPOCH_FLUSH_DONE (R402). -/
def execEpochFlushDone (failed : List LpId) (s : State) : Host.Outcome State Fault Refusal :=
  finishStep (if fwRuns s && s.dev.st != .hibernate then epochFlushDone (failed.map (·.val)) s else s)

/-- The entries of a `time.configure` payload. -/
def timeEntries (p : Bytes) : List (Nat × TimeEntry) :=
  (List.range (fieldAt p 2 2)).map (fun k => (fieldAt p (4 + 8 * k) 1, { en := fieldAt p (5 + 8 * k) 1 == 1, asym := sfieldAt p (8 + 8 * k) 4 }))

/-- Keep the time settings in the boot ledger (R597). -/
def ledgerTime (s : State) : State :=
  ledgerWrite (fun b => { b with prio := s.io.prio, timeFlags := b2n s.io.extRef + 2 * b2n s.io.ppsEn, entries := s.io.entries }) s

/-- `time.configure` (R380, R383, R384, R391, R597). -/
def specTimeConfigure : CmdSpec :=
  { op := 0x0901, who := fmOnly, args := fun s p =>
      [(8, p.length == 4 + 8 * fieldAt p 2 2), fld 1 (decide (fieldAt p 1 1 < 4)), fld 2 (decide (fieldAt p 2 2 ≤ 256))]
        ++ (List.range (min 256 (fieldAt p 2 2))).flatMap (fun k => [fld (4 + 8 * k) (lpExists s (fieldAt p (4 + 8 * k) 1)), fld (5 + 8 * k) (decide (fieldAt p (5 + 8 * k) 1 < 2)), rsv p (6 + 8 * k) 2]),
    run := fun _ p s =>
      let fl := fieldAt p 1 1
      let s := modIo (fun i => { i with prio := fieldAt p 0 1, extRef := bitOf fl 0, ppsEn := bitOf fl 1, entries := (timeEntries p).foldl (fun t e => tset t e.1 e.2) i.entries, ppsOut := i.ppsOut && bitOf fl 1 }) s
      let s := elect s
      let s := if s.ft.gm then (if s.io.extRef && ftrefOk s then selfGm .external s else if s.ft.mode = .external then selfGm .free s else s) else s
      ({}, ledgerTime s) }

/-- `time.set` (R382): on a module that is not grandmaster, or in HOLDOVER, BAD_STATE (DEDUCED, assumption 23). -/
def specTimeSet : CmdSpec :=
  { op := 0x0902, who := fmOnly, args := fun _ p => [lenIs p 8, fld 0 (decide (fieldAt p 0 8 * 1000000000 < 2 ^ 48))], state := fun s _ _ => s.ft.gm && s.ft.mode != .holdover, run := fun _ p s =>
      let sec := fieldAt p 0 8
      ({}, if s.ft.mode = .external then modIo (fun i => { i with pendingSet := some sec }) s else setSeconds sec s) }

/-- The mode codes of R379. -/
def FtMode.code : FtMode → Nat
  | .boot => 0 | .external => 1 | .inband => 2 | .free => 3 | .holdover => 4

/-- The answer of `time.status` (R520). -/
def timeStatusBytes (s : State) : Bytes :=
  leBytes 1 s.ft.mode.code ++ leBytes 1 (b2n s.ft.gm + 2 * b2n s.ft.traceable + 4 * b2n s.ft.parent.isSome) ++ leBytes 1 s.ft.steps
    ++ leBytes 1 (match s.ft.parent with | some p => p.val | none => 0) ++ leBytes 1 s.ft.gmPrio ++ zeros 3 ++ leBytes 8 s.ft.gmSerial
    ++ sBytes 8 (s.ft.offset / 1024) ++ leBytes 8 (s.ft.delay / 1024) ++ leBytes 4 (ctrVal .ftSteps 0 0 s) ++ zeros 4
    ++ sBytes 8 (s.ft.lastStep / 65536) ++ leBytes 8 (ctrVal .holdoverNs 0 0 s)

/-- `time.status` (R435). -/
def specTimeStatus : CmdSpec :=
  { op := 0x0903, who := fmBmc, args := fun _ p => [lenIs p 4, rsv p 0 4], reads := fun _ => true, run := fun _ _ s => ({ payload := timeStatusBytes s }, s) }

/-- TIME_CONFIGURE. -/
def execTimeConfigure (q : Req) (p : Bytes) (s : State) : Host.Outcome State Fault Refusal := finishStep (runCmd specTimeConfigure q p s)
/-- TIME_SET. -/
def execTimeSet (q : Req) (p : Bytes) (s : State) : Host.Outcome State Fault Refusal := finishStep (runCmd specTimeSet q p s)
/-- TIME_STATUS. -/
def execTimeStatus (q : Req) (p : Bytes) (s : State) : Host.Outcome State Fault Refusal := finishStep (runCmd specTimeStatus q p s)

end Sys2Proof.Machine
end

