-- ==== Sys2Proof/Machine/Egress.lean ====
section
/-! DEFINITION. The egress schedulers; requests and responses as they arrive on a port; the response timeout of a Den target (R107, R131, R187, R191, R199 to R209, R264, R277 to R281, R406, R410). -/

namespace Sys2Proof.Machine

/-- The weight of a queue (R200). -/
def weightOf (q : Nat) : Nat := [4, 2, 4, 8, 16, 16, 32].getD q 4

/-- A head frame may start (R204, R205, R208): under cut-through with 128 bytes there, else whole. A CXL message leaves only whole. -/
def headReady (s : State) (n : Nat) (h : QFrame) : Bool :=
  if h.sf || isCxl s n then h.whole && !h.crossing else decide (min 128 (frameLen h.f) ≤ h.avail)

/-- The credits of a frame's channel suffice (R103, R164). -/
def creditsOk (s : State) (n : Nat) (f : Frame) : Bool :=
  if isCxl s n then cxlCredits s n f else decide (cellsOf (frameLen f) ≤ creditsLeft s n f.chan.toNat)

/-- A destination's frames wait in their egress queues while its failback holds them (R142). -/
def heldBack (s : State) (did : Nat) : Bool := (tget s.sw.holds did).why == some .failback

/-- The frames of a queue that none of their channel precede, but for those whose destination is held (R101, R142). -/
def channelHeads (s : State) (x : QueueSt) : List QFrame :=
  (x.frames.foldl (fun (r : List QFrame × List (BitVec 3)) h =>
    if heldBack s h.f.did.toNat then r
    else if r.2.contains h.f.chan then r else (r.1 ++ [h], h.f.chan :: r.2)) ([], [])).1

/-- The frame of a queue that may be served but for its time gate (R101, R202, R252): no channel waits behind another, so the first whose channel has credits. -/
def headFree (s : State) (n q : Nat) : Option QFrame :=
  if shaperBlocks s n q then none else (channelHeads s (queueAt s n q)).find? (fun h => headReady s n h && creditsOk s n h.f)

/-- A queue is eligible (R202, R277). -/
def eligible (s : State) (n q : Nat) : Bool :=
  match headFree s n q with
  | some h => gateSays s n q (frameLen h.f) == .go || gateSays s n q (frameLen h.f) == .overrun
  | none => false

/-- Count the frames that wait in an open window as it is too short for them, each once (R279, R286). -/
def countDeferred (n : Nat) (s : State) : State :=
  (List.range 8).foldl (fun s q =>
    match headFree s n q with
    | some h =>
      if gateSays s n q (frameLen h.f) == .defer && !h.deferred then
        bumpC .tgDeferred n q 1 (ctxOf s h.f) (modQueue (8 * n + q) (fun x => { x with frames := x.frames.map (fun y => if y.id == h.id then { y with deferred := true } else y) }) s)
      else s
    | none => s) s

/-- Change the egress scheduler of a logical port. -/
def modEgress (n : Nat) (g : EgressSt → EgressSt) (s : State) : State := modSw (fun w => { w with egress := tmod w.egress n g }) s

/-- Deficit-weighted round robin over Q6 to Q0 (R202): each visit adds weight × 256 bytes; a queue sends while its head is no longer than its deficit. -/
def dwrr (n : Nat) : Nat → State → Option Nat × State
  | 0, s => (none, s)
  | fuel + 1, s =>
    let e := egressOf s n
    let q := e.next
    let on_ := fun (s : State) => modEgress n (fun e => { e with next := if q = 0 then 6 else q - 1, visited := false }) s
    match headFree s n q with
    | none => dwrr n fuel (on_ s)
    | some h =>
      if !eligible s n q then dwrr n fuel (on_ s)
      else
        let s := if e.visited then s else modEgress n (fun e => { e with visited := true }) (modQueue (8 * n + q) (fun x => { x with deficit := x.deficit + weightOf q * 256 }) s)
        if frameLen h.f ≤ (queueAt s n q).deficit then (some q, s) else dwrr n fuel (on_ s)

/-- The queue that a port serves next (R202): Q7 ahead of the others. -/
def chooseQueue (n : Nat) (s : State) : Option Nat × State :=
  if eligible s n 7 then (some 7, s)
  else if (List.range 7).any (fun q => eligible s n q) then dwrr n 84 s
  else (none, s)

/-- A 16-bit epoch stamp near the present epoch (R183, R409). -/
def epochNear (s : State) (e16 : Nat) : Nat :=
  let h := s.hoard.epoch
  let d := (e16 + 65536 - h % 65536) % 65536
  if d < 32768 then h + d else h + d - 65536

/-- A completion of a write is delivered to its host: its epoch is kept for the binding (R410). -/
def keepEpoch (n : Nat) (f : Frame) (s : State) : State :=
  let write := f.status == stOK && ((f.cls == clsCM && (f.opcode == 0x86 || f.opcode == 0x87)) || (f.cls != clsCM && f.opcode == 0x80))
  if isHost s n && write && (liveBind s f.binding).isSome then
    modBind (hIdx f.binding) (fun b => { b with highEpoch := max b.highEpoch (epochNear s f.epoch.toNat) }) s
  else s

/-- A request handed to a Den target that awaits a response is timed; a write to it makes the target one to flush (R131, R402). -/
def noteTarget (n : Nat) (src : XIn) (f : Frame) (s : State) : State :=
  if !isDevice s n || isResponse f || (f.cls == clsCM && f.opcode.toNat ≥ 0x20) then s
  else
    let s := if isWrite f && !s.dur.targets.contains f.did.toNat then { s with dur := { s.dur with targets := s.dur.targets ++ [f.did.toNat] } } else s
    if isPosted f then s
    else modOut n (fun l => l ++ [{ tag := f.tag.toNat, sid := f.sid.toNat, at_ := now s, read := !isWrite f, asker := askerOf src f, binding := f.binding, addr := fAddr f, since := now s }]) s

/-- Hand a frame to its link (R103, R410). -/
def handOver (n : Nat) (h : QFrame) (s : State) : State :=
  let f := h.f
  let s := keepEpoch n f s
  if isCxl s n then bwCount n false (frameLen f) (sendCxl n h.src f s)
  else
    let c := f.chan.toNat
    let s := modTx (poolOf s n) (fun t => { t with credits := t.credits.set c (t.credits.getD c 0 - cellsOf (frameLen f)) }) s
    let s := noteTarget n h.src f s
    let src := match h.src with
      | .port m => m
      | _ => 256
    modTx n (fun t => { t with frames := t.frames ++ [{ f := f, rest := frameBytes f, early := !h.whole, avail := h.avail, src := src, orig := h.orig }] }) s

/-- Take a served frame off its queue (R202). -/
def popQueue (n q : Nat) (h : QFrame) (s : State) : State :=
  let s := dropQueued (8 * n + q) (fun y => y.id == h.id) s
  modQueue (8 * n + q) (fun x => if q = 7 || x.frames.isEmpty then x else { x with deficit := x.deficit - frameLen h.f }) s

/-- Charge a queue's shaper for a frame that it sends (R252, R262). -/
def chargeQueue (n q len : Nat) (s : State) : State :=
  let k := 65536 + 8 * n + q
  let x := tget s.tm.shapers k
  if x.configured && !s.tm.suspended then setShaper k (chargeShaper x len) s else s

/-- One service of a port's egress queues (R202): the port is up, awake and its link takes frames. A refill that falls on this tick comes first (R288). -/
def egressDequeue (n : Nat) (s : State) : State :=
  if !lpUp s n || (lpOf s n).dl != .dl0 || (lpOf s n).l1 then s
  else
    let (c, s) := chooseQueue n (countDeferred n (shaperRefill s))
    match c with
    | none => s
    | some q => match headFree s n q with
      | none => s
      | some h =>
        let s := if gateSays s n q (frameLen h.f) == .overrun then bumpC .tgOverrun n q 1 (ctxOf s h.f) s else s
        handOver n h (popQueue n q h (chargeQueue n q (frameLen h.f) s))

/-- A frame within the credits its channel has open; one beyond them is discarded without a return (R107). -/
def withinCredits (s : State) (n : Nat) (f : Frame) : Bool :=
  decide (cellsOf (32 + f.length.toNat) ≤ (rxOf s (poolOf s n)).open_.getD f.chan.toNat 0)

/-- Enter an arriving Den frame in its channel buffer (R107, R204, R227); answers its number. -/
def enterFrame (n : Nat) (f : Frame) (arrived : Nat) (s : State) : Nat × State :=
  let c := f.chan.toNat
  let k := cellsOf (32 + f.length.toNat)
  let s := modRx (poolOf s n) (fun r => { r with open_ := r.open_.set c (r.open_.getD c 0 - k) }) s
  let (o, s) := openOrig n c k 1 false s
  (o, noteEarly n f arrived o s)

/-- A frame that arrives on a port takes its place in a channel buffer, when its credits allow one (R107, R163, R176 class C1). -/
def takePlace (n : Nat) (f : Frame) (arrived : Nat) (s : State) : Option Nat × State :=
  if isCxl s n then
    (match takeCredits n (.pbr f) s with
     | (some o, s) => (some o, noteEarly n f arrived o s)
     | (none, s) => (none, s))
  else if !withinCredits s n f then (none, protoError n s)
  else
    let (o, s) := enterFrame n f arrived s
    (some o, s)

/-- The bytes of a frame arrive on a port (R204): more of one that was taken before it was whole, or the first ones of a frame that takes a place and goes its way. -/
def arrive (n : Nat) (f : Frame) (arrived : Nat) (go : Nat → State → State) (s : State) : State :=
  if !linkLive s n then s
  else match earlyOf s n f with
    | some o => takeMore n f arrived o s
    | none => match takePlace n f arrived s with
      | (some o, s) => go o s
      | (none, s) => s

/-- What a CXL port does with a request frame (R189, R191, R192): an opcode that its class does not list is class C2, and a device sends no requests. -/
def classifyCxl (n : Nat) (f : Frame) (arrived orig : Nat) (s : State) : State :=
  if isDevice s n then copyGone orig (violation n 5 s)
  else if !opcodeListed f.cls f.opcode.toNat || (isHost s n && f.cls == clsIO && f.opcode == 0xF0) then copyGone orig (violation n 2 s)
  else if isFabric s n then fabricRequest n f arrived orig s
  else hostRequest n 0 { f with chan := BitVec.ofNat 3 (chanOf f.cls f.opcode.toNat) } arrived orig (if isPosted f then s else noteHost n f.tag.toNat (hostKindOf f) s)

/-- A request or notice arrives on a port (R107, R191, R192, R204): its first bytes classify it, and the rest follows into the same transfer. -/
def requestIn (n : Nat) (f : Frame) (arrived : Nat) (s : State) : State :=
  arrive n f arrived (fun o s => if isCxl s n then classifyCxl n f arrived o s else classifyDen n f arrived o s) s

/-- Give the data or the outcome of a memory read to its slice (R316, R327). -/
def sliceData (i k : Nat) (f : Frame) (s : State) : State :=
  if (f.status == stOK || f.status == stPoison) && f.data.length ≥ 64 then memoryReturn i k (.memory (lineFrom f.data) (f.status == stPoison)) s
  else memoryFail i k (if f.status == stOK then stUnsup else f.status) s

/-- The completion of a request as a target's port passes it on (R185, R187, R188, R400): to the requester, with fresh fields of the port (R191). A replica's response bears the member's DID (R213). -/
def passCompletion (s : State) (n : Nat) (q f : Frame) : Frame :=
  sealHdr { f with cls := q.cls, chan := BitVec.ofNat 3 (chanOf q.cls f.opcode.toNat), did := q.sid, sid := if q.copy then q.did else BitVec.ofNat 12 (didOf s n), binding := q.binding, priv := q.priv, prio := 0, colour := 0, hops := 15, copy := false, rsv := 0, epoch := if isWrite q then BitVec.ofNat 16 (epochNow s) else 0 }

/-- Pass a target's completion on to who asked (R188, R191, R213, R400, R402). -/
def deliverTo (n : Nat) (a : Asker) (f : Frame) (arrived orig : Nat) (s : State) : State :=
  match a with
  | .slice i k => copyGone orig (sliceData i k f s)
  | .sliceWrite i l => copyGone orig (if f.status == stOK then memoryWritten i l s else memoryLost i l f.status s)
  | .flush => copyGone orig (if f.status == stOK then s else flushLost n .error s)
  | .frame q =>
    if merges s q then copyGone orig (complete q f.status [] (epochNow s) s)
    else routeResponse (.port n) (passCompletion s n q f) arrived orig s
  | .posted _ => copyGone orig s
  | .none_ => copyGone orig s

/-- The request that a response answers on a target's port, by tag and requester (R131). -/
def outOf (s : State) (n : Nat) (f : Frame) : Option OutReq := (tget s.net.denOut n).find? (fun o => o.tag == f.tag.toNat && o.sid == f.did.toNat)

/-- A response from a target: the request that it answers; any other is discarded (R131). One on the tick of its timeout is taken and counts a near miss (R681). -/
def targetResponse (n : Nat) (f : Frame) (arrived orig : Nat) (s : State) : State :=
  match outOf s n f with
  | some o =>
    let s := if now s == o.at_ + (cfgOf s n).respTimeout then bump .swNear n s else s
    deliverTo n o.asker f arrived orig (modOut n (fun l => l.erase o) s)
  | none => copyGone orig (bump .respDisc n s)

/-- The binding of a host port whose slice holds an address (R264). -/
def bindingFor (s : State) (n a : Nat) : Handle :=
  match s.ten.bindings.find? (fun e => e.2.live && (e.2.lp == n || twinOf s e.2.lp == some n) && (let r := sliceOf s e.2.slice; decide (r.base ≤ a) && decide (a < r.base + r.len))) with
  | some e => handleOf s 1 e.1
  | none => 0

/-- A response or snoop of an endpoint with the fields that Dizal derives for its port (R191), and a fresh HCHK (R185, R451). -/
def ownFields (s : State) (n : Nat) (b : Handle) (prio : BitVec 3) (f : Frame) : Frame :=
  sealHdr { f with sid := BitVec.ofNat 12 (didOf s n), priv := false, binding := b, chan := BitVec.ofNat 3 (chanOf f.cls f.opcode.toNat), prio := prio, colour := 0, hops := 15, copy := false, marked := false, rsv := 0 }

/-- The path of a snoop or a response by the port's role (R191, R193, R196, R213, R264): a host's snoop answers and a target's back-invalidates reach the line's home slice; what crosses a fabric port is routed, or ends in the merge that waits for it. -/
def responseRole (n : Nat) (f : Frame) (arrived orig : Nat) (s : State) : State :=
  let home := XOut.slice (homeSlice (lineOf (fAddr f)))
  let answer := f.cls == clsCM && f.opcode.toNat ≥ 0x90
  let snoop_ := f.cls == clsCM && decide (0x20 ≤ f.opcode.toNat) && decide (f.opcode.toNat < 0x80)
  if isFabric s n then
    (if f.hops == 0 then copyGone orig (raise { code := 0x020F, cls := .notice, block := n / 2, arg := f.did.toNat } (bump .routeDisc n s))
     else
       let s := if f.colour == 3 then (if isCxl s n then violation n 2 s else protoError n s) else s
       let f := { f with colour := if f.colour == 3 then 2 else f.colour, hops := f.hops - 1 }
       if f.cls == clsBM && f.opcode == 0x80 && (mergeOf s f.tag.toNat f.did.toNat f.sid.toNat).isSome then
         copyGone orig (mergeMember f.tag.toNat f.did.toNat f.sid.toNat f.status.toNat (epochNear s f.epoch.toNat) s)
       else routeResponse (.port n) f arrived orig s)
  else if isHost s n then
    (if answer then
      let b := bindingFor s n (fAddr f)
      let prio := match liveBind s b with
        | some x => BitVec.ofNat 3 (tenantOf s x.tenant).prio
        | none => 0
      raiseX (.port n) home (ownFields s n b prio f) arrived orig (chargeResponse b (frameLen f) s)
     else copyGone orig (bump .respDisc n s))
  else if snoop_ then raiseX (.port n) home (ownFields s n f.binding 0 f) arrived orig s
  else if f.cls == clsCM then copyGone orig (agentViolation n s)
  else targetResponse n f arrived orig s

/-- A response, completion or snoop arrives on a port (R107, R186, R187, R189, R204): a reserved status counts and reads as DELIVERY_UNKNOWN on Den, and is a reserved field value on CXL (R176 class C2). The endpoints of CXL ports answer with CXL messages, not frames. -/
def responseIn (n : Nat) (f : Frame) (arrived : Nat) (s : State) : State :=
  let bad := isResponse f && decide (f.status.toNat ≥ 7)
  if isCxl s n && !isFabric s n then s
  else arrive n f arrived (fun o s =>
    if isCxl s n then
      (if !opcodeListed f.cls f.opcode.toNat || bad then copyGone o (violation n 2 s) else responseRole n f arrived o s)
    else if !hchkOk f then copyGone o (hchkFailure n (n / 2) f s)
    else if !opcodeListed f.cls f.opcode.toNat then copyGone o (protoError n s)
    else if bad then responseRole n { f with status := stUnknown } arrived o (protoError n s)
    else responseRole n f arrived o s) s

/-- A whole frame from a Den link goes by its kind (R183, R188, R308). -/
def frameIn (n : Nat) (f : Frame) (arrived : Nat) (s : State) : State :=
  if isResponse f || (f.cls == clsCM && f.opcode.toNat ≥ 0x20) then responseIn n f arrived s else requestIn n f arrived s

/-- The response timeout of a device-facing Den port (R131, R133, R406); a response on the tick of the timeout is taken ahead of it (R681). -/
def denTimeout (n tag : Nat) (s : State) : State :=
  if !isDen s n || !isDevice s n then s
  else match (tget s.net.denOut n).find? (fun o => o.tag == tag && decide (now s > o.at_ + (cfgOf s n).respTimeout)) with
    | none => s
    | some o =>
      let c := cfgOf s n
      let s := bump .denRespTo n (modOut n (fun l => l.erase o) s)
      let l := now s :: slide (now s) c.window (tget (winOf s n).viol 7)
      let s := modWin n (fun w => { w with viol := tset w.viol 7 l }) s
      let s := windowEvent n 7 { code := 0x0210, cls := .degraded, block := n / 2, arg := n } s
      let s := if l.length ≥ c.thresholds.getD 6 4 then fall n 2 s else s
      match o.asker with
      | .flush => flushLost n .timeout s
      | a => endAsker n a stTimeout s

/-- EGRESS_DEQUEUE (R202). -/
def execEgressDequeue (lp : LpId) (s : State) : Host.Outcome State Fault Refusal := finishStep (egressDequeue lp.val s)
/-- REQUEST_CLASSIFY (R192). -/
def execRequestClassify (lp : LpId) (f : Frame) (arrived : Nat) (s : State) : Host.Outcome State Fault Refusal := finishStep (requestIn lp.val f arrived s)
/-- RESPONSE_INGRESS (R187). -/
def execResponseIngress (lp : LpId) (f : Frame) (s : State) : Host.Outcome State Fault Refusal := finishStep (responseIn lp.val f (frameLen f) s)
/-- DEN_RESPONSE_TIMEOUT (R131). -/
def execDenResponseTimeout (lp : LpId) (tag : BitVec 16) (s : State) : Host.Outcome State Fault Refusal := finishStep (denTimeout lp.val tag.toNat s)

end Sys2Proof.Machine
end

