-- ==== Sys2Proof/Machine/DenFlit.lean ====
section
/-! DEFINITION. Den flits: their bytes, segments, sequence numbers and replay (R92 to R123, R138, R389). -/

namespace Sys2Proof.Machine

/-- Read the body of an INIT flit (R109). -/
def initFrom (p : Bytes) : InitMsg :=
  let b := fun i => BitVec.ofNat 8 (fieldAt p i 1)
  let fl := fieldAt p 6 1
  { subtype := b 0, version := b 1, lp := b 2, width := b 3, twin := b 4, twinPartner := b 5, twinNamed := bitOf fl 0, partnerNamed := bitOf fl 1, resume := bitOf fl 2, serial := BitVec.ofNat 64 (fieldAt p 8 8), sendStamp := BitVec.ofNat 64 (fieldAt p 16 8), echoed := BitVec.ofNat 64 (fieldAt p 24 8), residence := BitVec.ofNat 64 (fieldAt p 32 8), credits := (List.range 8).map (fun c => fieldAt p (40 + 2 * c) 2), resumeAck := BitVec.ofNat 16 (fieldAt p 56 2), resumeSeq := BitVec.ofNat 16 (fieldAt p 58 2) }

/-- The body of a CTRL flit (R138). -/
def ctrlBody (m : CtrlMsg) : Bytes := [m.subtype, m.subject, m.width] ++ zeros 5 ++ leBytes 8 m.serial.toNat ++ leBytes 2 m.lastDelivered.toNat

/-- Read the body of a CTRL flit (R138). -/
def ctrlFrom (p : Bytes) : CtrlMsg :=
  { subtype := BitVec.ofNat 8 (fieldAt p 0 1), subject := BitVec.ofNat 8 (fieldAt p 1 1), width := BitVec.ofNat 8 (fieldAt p 2 1), serial := BitVec.ofNat 64 (fieldAt p 8 8), lastDelivered := BitVec.ofNat 16 (fieldAt p 16 2) }

/-- The body of a TIME flit (R389): its times are fabric-time counts. -/
def timeBody (m : TimeMsg) : Bytes :=
  [m.subtype, 1, BitVec.ofNat 8 (b2n m.traceable + 2 * b2n m.holdover + 4 * b2n m.leaving + 8 * b2n m.changePending), BitVec.ofNat 8 m.steps, BitVec.ofNat 8 m.gmPrio, 0]
    ++ leBytes 2 m.exchange ++ leBytes 8 m.gmSerial ++ leBytes 8 m.senderSerial ++ leBytes 8 m.sendTime ++ leBytes 8 m.t1 ++ leBytes 8 m.t2
    ++ leBytes 8 m.epoch ++ leBytes 8 (ftOf m.epochStart) ++ leBytes 4 m.period ++ leBytes 4 m.pendingPeriod ++ leBytes 8 (ftOf m.base)
    ++ leBytes 8 (ftOf m.changeTime) ++ leBytes 8 m.durable ++ leBytes 8 m.subtree ++ leBytes 8 m.floor

/-- Read the body of a TIME flit (R389). -/
def timeFrom (p : Bytes) : TimeMsg :=
  let fl := fieldAt p 2 1
  { subtype := BitVec.ofNat 8 (fieldAt p 0 1), traceable := bitOf fl 0, holdover := bitOf fl 1, leaving := bitOf fl 2, changePending := bitOf fl 3, steps := fieldAt p 3 1, gmPrio := fieldAt p 4 1, exchange := fieldAt p 6 2, gmSerial := fieldAt p 8 8, senderSerial := fieldAt p 16 8, sendTime := fieldAt p 24 8, t1 := fieldAt p 32 8, t2 := fieldAt p 40 8, epoch := fieldAt p 48 8, epochStart := fieldAt p 56 8 / 65536, period := fieldAt p 64 4, pendingPeriod := fieldAt p 68 4, base := fieldAt p 72 8 / 65536, changeTime := fieldAt p 80 8 / 65536, durable := fieldAt p 88 8, subtree := fieldAt p 96 8, floor := fieldAt p 104 8 }

/-- Give a sequence number to a new flit and keep it for replay (R114, R115); the buffer's last place taken starts the time of R118 (R154). -/
def sendNew (n : Nat) (ctrl : Bool) (payload : Bytes) (x : RepSlot) (s : State) : State :=
  let q := (txOf s n).next
  let t := now s
  let s := modTx n (fun y => { y with next := (q + 1) % 65536, lastAdv := if y.next == y.unacked then t else y.lastAdv, replay := y.replay ++ [{ x with seq := q, ctrl := ctrl, payload := payload }], fullSince := if y.replay.length + 1 ≥ 4096 then y.fullSince.or (some t) else y.fullSince }) s
  sendFlit n (if ctrl then 2 else 1) q false payload s

/-- A segment header (R98). -/
def segHead (kind : Nat) (sof eof : Bool) (chan len credits : Nat) : Bytes :=
  leBytes 4 (kind + 4 * b2n sof + 8 * b2n eof + 16 * chan + 256 * len + 65536 * credits)

/-- What is being built of a DATA flit: its payload, the frames left, and what the replay slot keeps. -/
structure Build where
  out : Bytes := []
  left : List TxFrame := []
  busy : List Nat := []
  slot : RepSlot := {}
  segs : Nat := 0
  done : List Frame := []

/-- Place one frame's next segment (R98 to R100, R140, R208): a channel's frames go in order, and a frame that still arrives keeps its last byte back. -/
def placeSeg (seq : Nat) (b : Build) (x : TxFrame) : Build :=
  let c := x.f.chan.toNat
  let room := 240 - b.out.length
  let total := (frameBytes x.f).length
  let have_ := if x.early then x.avail - (total - x.rest.length) - 1 else x.rest.length
  let k := min (min have_ 236) (room - 4)
  if b.busy.contains c || room < 8 || k = 0 then { b with left := b.left ++ [x], busy := c :: b.busy }
  else
    let rest := x.rest.drop k
    let eof := rest.isEmpty
    let sof := if x.begun then x.sof else (seq, b.segs)
    let seg := segHead 1 (!x.begun) eof c k 0 ++ x.rest.take k ++ zeros ((4 - k % 4) % 4)
    let b := { b with out := b.out ++ seg, segs := b.segs + 1 }
    if eof then { b with slot := { b.slot with frames := b.slot.frames ++ [x.f], sofs := b.slot.sofs ++ [sof] }, done := b.done ++ [x.f] }
    else { b with left := b.left ++ [{ x with rest := rest, begun := true, sof := sof }], busy := c :: b.busy, slot := { b.slot with open_ := true } }

/-- The next DATA flit of a port (R98 to R100, R104): credit returns first, then frames. -/
def buildData (t : DenTx) : Build :=
  let creds := (List.range 8).filter (fun c => decide (t.credOwed.getD c 0 > 0))
  let head := creds.flatMap (fun c => segHead 2 false false c 0 (min 65535 (t.credOwed.getD c 0)))
  let start : Build := { out := head, segs := creds.length }
  t.frames.foldl (placeSeg t.next) start

/-- Send a DATA flit, when there is anything to carry. -/
def sendData (n : Nat) (s : State) : Option State :=
  let t := txOf s n
  let b := buildData t
  if b.out.isEmpty then none
  else
    let s := modTx n (fun y => { y with frames := b.left, credOwed := y.credOwed.map (fun v => v - 65535) }) s
    let s := b.done.foldl (fun s f => bwCount n false (frameLen f) s) s
    some (modLp n (fun l => { l with lastFlit := now s }) (sendNew n false b.out b.slot s))

/-- What sending a CTRL message starts: an accepted retrain or width change begins, an acknowledged DL1 is agreed, an acknowledged DL2 is entered (R79, R80, R144, R150, DEDUCED, assumption 72). -/
def ctrlSent (n : Nat) (m : CtrlMsg) (s : State) : State :=
  match m.subtype.toNat with
  | 2 => beginRetrain n 3 s
  | 4 => beginRetrain n 4 s
  | 10 => agreeDl1 n s
  | 13 => enterDl n .dl2 s
  | _ => s

/-- The oldest slot to retransmit (R117, R121): one released since is passed over. -/
def nextRetx (t : DenTx) : Option RepSlot := (t.retx.find? (fun q => t.replay.any (fun x => x.seq == q))).bind (fun q => t.replay.find? (fun x => x.seq == q))

/-- A link that asked for DL1 or agreed on it sends no new DATA flit (R79, R91). -/
def dataBarred (s : State) (n : Nat) : Bool := (lpOf s n).dlReq == 1 || (lpOf s n).dlReq == 4

/-- The next flit of a link that carries flits, by the priority of R117. -/
def nextFlit (n : Nat) (s : State) : State :=
  let t := txOf s n
  match nextRetx t with
  | some x =>
    let s := modTx n (fun y => { y with retx := y.retx.erase x.seq }) s
    sendFlit n (if x.ctrl then 2 else 1) x.seq true x.payload s
  | none => match t.times with
    | m :: r => sendFlit n 4 t.next false (timeBody { m with sendTime := stamp64 s }) (modTx n (fun y => { y with times := r, retx := [] }) s)
    | [] =>
      let idle := fun (s : State) => sendFlit n 0 (txOf s n).next false [] s
      if t.replay.length ≥ 4096 then idle s
      else match t.ctrls with
        | m :: r => ctrlSent n m (sendNew n true (ctrlBody m) {} (modTx n (fun y => { y with ctrls := r }) s))
        | [] => if lpUp s n && !dataBarred s n then (sendData n s).getD (idle s) else idle s

/-- A port sends its next flit (R79, R110, R116 to R118, R132, R145, R390): INIT while it initialises, else by the priority of R117. -/
def flitTransmit (n : Nat) (s : State) : State :=
  let l := lpOf s n
  if !isDen s n || l.idleUntil.isSome || l.dl != .dl0 || !portOn s n then s
  else if l.link == .training then
    (match (initOf s n).step with
     | 0 => s
     | 3 => sendInit n { helloOf s n with subtype := 3 } s
     | _ => sendInit n (helloOf s n) s)
  else if !linkLive s n then s
  else tryDl1 n (nextFlit n s)

/-- A CTRL message is delivered (R138). -/
def ctrlIn (n : Nat) (m : CtrlMsg) (s : State) : State :=
  match m.subtype.toNat with
  | 1 => retrainAsked n false m s
  | 2 => retrainAccepted n false s
  | 3 => retrainAsked n true m s
  | 4 => retrainAccepted n true s
  | 5 => withdraw n s
  | 6 => failover n m s
  | 7 => failback n m s
  | 8 => failbackDone n s
  | 9 => dl1Req n s
  | 10 => dl1Ack n s
  | 11 => dl1Refuse n s
  | 12 => dl2Req n s
  | 13 => dl2Ack n s
  | _ => s

/-- The whole length of a frame whose first bytes are there. -/
def wholeLen (p : Bytes) : Nat := 32 + fieldAt p 14 2

/-- A frame in progress ends without being whole (R100, R209): its credits return, one for a frame whose Length has not come (DESIGN CHOICE, assumption 112); one that crosses under cut-through ends early. -/
def dropPartial (n c : Nat) (s : State) : State :=
  let r := rxOf s n
  let p := tget r.partials c
  let s := modRx n (fun r => { r with partials := tset r.partials c [], active := r.active &&& (65535 - 2 ^ c) }) s
  match (if p.length < 32 then none else earlyOf s n (parseFrame p)) with
  | some o => loseCrossing n true (· == o) s
  | none =>
    let k := cellsOf (wholeLen p)
    let s := modRx (poolOf s n) (fun r => { r with open_ := r.open_.set c (r.open_.getD c 0 - k) }) s
    returnCredits n c k false s

/-- A request that came as a frame asked for something (R131). -/
def askedByFrame : Asker → Bool
  | .frame _ => true
  | _ => false

/-- A frame may be taken before it is whole (R204): 128 bytes of it are there. A CM frame is whole by then; what ends in a binding page and what a slice asked for waits for all of its bytes. -/
def mayCross (s : State) (n : Nat) (p : Bytes) : Bool :=
  let f := parseFrame p
  decide (p.length ≥ 128) && decide (p.length < wholeLen p) && f.cls != clsCM && !(isHost s n && isPageAccess s n f)
    && !(isDevice s n && isResponse f && (outOf s n f).any (fun o => !askedByFrame o.asker))

/-- The frame that has come so far, filled up to its length. -/
def filled (p : Bytes) : Frame := let f := parseFrame p; { f with data := (f.data ++ zeros f.length.toNat).take f.length.toNat }

/-- Segment bytes join a frame in progress; its first 128 bytes may start it across, and its EOF delivers it (R100, R204, R209, R688). -/
def takeSeg (n c : Nat) (eof : Bool) (d : Bytes) (s : State) : State :=
  let p := tget (rxOf s n).partials c ++ d
  let s := modRx n (fun r => { r with partials := tset r.partials c p, active := r.active ||| 2 ^ c }) s
  let f := filled p
  if eof then
    let s := bwCount n true p.length s
    if p.length < 32 || p.length < wholeLen p then bump .truncRecv n (dropPartial n c s)
    else frameIn n f (frameLen f) (modRx n (fun r => { r with partials := tset r.partials c [], active := r.active &&& (65535 - 2 ^ c) }) s)
  else if p.length ≥ 128 && ((earlyOf s n f).isSome || mayCross s n p) then frameIn n f p.length s
  else s

/-- Deliver the segments of a DATA flit (R98 to R100, R104, DEDUCED, assumption 58). A segment whose Length lies outside 1 to 236 brings what bytes it has (DESIGN CHOICE, assumption 113). -/
def takeSegs (n : Nat) : Nat → Bytes → State → State
  | 0, _, s => s
  | fuel + 1, p, s =>
    match p with
    | b0 :: b1 :: b2 :: b3 :: r =>
      let h := b0.toNat
      let c := h / 16 % 8
      let len := b1.toNat
      if h % 4 = 2 then
        let k := b2.toNat + 256 * b3.toNat
        takeSegs n fuel r (modTx (poolOf s n) (fun t => { t with credits := t.credits.set c (t.credits.getD c 0 + k) }) s)
      else if h % 4 = 1 then
        let busy := bitOf (rxOf s n).active c
        let sof := bitOf h 2
        let next := r.drop ((len + 3) / 4 * 4)
        if !sof && !busy then takeSegs n fuel next (protoError n s)
        else
          let s := if sof && busy then protoError n (dropPartial n c s) else s
          takeSegs n fuel next (takeSeg n c (bitOf h 3) (r.take len) s)
      else s
    | _ => s

/-- Deliver one sequenced flit (R105, R120). -/
def deliverFlit (n : Nat) (x : RxFlit) (s : State) : State := if x.ctrl then ctrlIn n (ctrlFrom x.payload) s else takeSegs n 60 x.payload (modLp n (fun l => { l with dlReq := if l.dlReq = 1 then 0 else l.dlReq, lastFlit := now s }) s)

/-- Deliver what is now in order (R120). -/
def deliverHeld (n : Nat) : Nat → State → State
  | 0, s => s
  | fuel + 1, s =>
    let r := rxOf s n
    let q := (r.ack + 1) % 65536
    match r.held.find? (fun x => x.seq == q) with
    | some x => deliverHeld n fuel (deliverFlit n x (modRx n (fun r => { r with ack := q, held := r.held.filter (fun y => y.seq != q) }) s))
    | none => s

/-- A DATA or CTRL flit (R119, R120). A port in probation takes no DATA flit (R132): it is neither held nor acknowledged, and its sender sends it again (DESIGN CHOICE, assumption 114). -/
def sequenced (n : Nat) (x : RxFlit) (s : State) : State :=
  let r := rxOf s n
  let d := dist r.ack x.seq
  if d = 0 || d > 32767 || heldFlit r x.seq then bump .dups n s
  else if d > 4096 then protoError n s
  else if !x.ctrl && (lpOf s n).link == .probation then s
  else
    let s := modRx n (fun r => { r with held := r.held ++ [x], known := if d > dist r.ack r.known then x.seq else r.known }) s
    deliverHeld n 4097 s

/-- An IDLE or TIME flit tells the highest number its sender has used (R120). -/
def noteSeq (n seq : Nat) (s : State) : State :=
  let r := rxOf s n
  let q := (seq + 65535) % 65536
  if dist r.ack q ≤ 32767 && dist r.ack q > dist r.ack r.known then modRx n (fun r => { r with known := q }) s else s

/-- A TIME message is taken (R389). -/
def timeIn (n : Nat) (m : TimeMsg) (s : State) : State :=
  match m.subtype.toNat with
  | 1 => announce n m s
  | 2 => delayReq n m s
  | 3 => delayRsp n m s
  | _ => s

/-- An INIT message is taken (R110). -/
def initIn (n : Nat) (m : InitMsg) (s : State) : State :=
  match m.subtype.toNat with
  | 1 => hello n m s
  | 2 => echo n m s
  | 3 => doneMsg n m s
  | _ => s

/-- A flit that cannot be trusted arrives (R97, R110, R126): a CRC failure counts in its window; a condemned flit was counted with its codeword; eight HELLO flits in a row start anew. -/
def badFlit (n : Nat) (condemned : Bool) (s : State) : State :=
  let s := modInit n (fun i => if i.step = 1 then { i with hellos := 0 } else i) s
  if condemned then s
  else
    let c := cfgOf s n
    let l := now s :: slide (now s) c.window (winOf s n).crc
    let s := bump .crcFailed n (modWin n (fun w => { w with crc := l }) s)
    if l.length ≥ c.crcLimit then fall n 0 s else s

/-- The flits that condemned codewords leave behind them: those still to come (R97). -/
def stillBad (pos : Nat) (bad : List (Nat × Nat)) : List (Nat × Nat) := bad.filter (fun b => decide (pos < b.2))

/-- Count a flit's place since the partner's marker (R45, R96); answers whether an uncorrectable codeword condemned it (R97). -/
def countFlit (n : Nat) (s : State) : Bool × State :=
  let r := rxOf s n
  let wraps := decide (r.pos + 1 ≥ flitsPerMarker (widthNow s n))
  (r.bad.any (fun b => decide (b.1 ≤ r.pos) && decide (r.pos < b.2)),
    modRx n (fun r => { r with pos := if wraps then 0 else r.pos + 1, bad := if wraps then [] else stillBad (r.pos + 1) r.bad }) s)

/-- The bytes of a flit from those of its lanes, each at the place that its partner's lane number gives (R31, R96). -/
def flitFrom (s : State) (n : Nat) (lanes : List Bytes) : Bytes :=
  let w := widthNow s n
  let at_ := (lanesInUse s n).zip lanes
  unstripe w (fun m => ((at_.find? (fun e => (tget s.net.lanes e.1).num % w == m)).map (·.2)).getD [])

/-- A whole flit that passed its checks (R93, R94, R110, R119 to R121). While the port initialises, flits of other types than INIT are counted and left alone (DESIGN CHOICE, assumption 115). -/
def goodFlit (n : Nat) (p : Bytes) (s : State) : State :=
  let s := bump .flitsRecv n s
  let h := fieldAt p 0 8
  let ty := bitsOf h 48 4
  let seq := bitsOf h 0 16
  let body := (p.drop 8).take 240
  if ty ≥ 5 then protoError n s
  else if ty = 3 then (if (lpOf s n).link == .training then initIn n (initFrom body) s else s)
  else if (lpOf s n).link == .training then s
  else
    let s := match ty with
      | 0 => noteSeq n seq s
      | 4 => timeIn n (timeFrom body) (noteSeq n seq s)
      | _ => sequenced n { seq := seq, ctrl := decide (ty = 2), payload := body } s
    tryDl1 n (takeAck n (bitsOf h 16 16) (bitsOf h 32 16) s)

/-- A flit arrives on the lanes of a link (R77, R83, R92 to R97, R119, R120): the receiver of a port in DL2 is off, and a flit on a port in DL1 shows that the partner woke, so the port's exit starts. -/
def flitReceive (n : Nat) (lanes : List Bytes) (s : State) : State :=
  let l := lpOf s n
  if !isDen s n || !(linkLive s n || l.link == .training) || l.idleUntil.isSome || !portOn s n || l.dl == .dl2 then s
  else
    let p := flitFrom s n lanes
    let (condemned, s) := countFlit n (wakeDl n s)
    if condemned then badFlit n true (bump .condemned n s)
    else if (crc64 (p.take 248)).toNat ≠ fieldAt p 248 8 then badFlit n false s
    else goodFlit n p s

/-- The replay timer (R122): it expires after the tick on which an ACK would still be taken (R155), and again an interval later. -/
def replayTimeout (n : Nat) (s : State) : State :=
  let t := txOf s n
  if !linkLive s n || t.next == t.unacked || decide (now s ≤ replayDue t) then s
  else bump .replayTo n (modTx n (fun y => { y with lastTo := now s, retx := if y.retx.contains y.unacked then y.retx else y.unacked :: y.retx }) s)

/-- No ACK has advanced for 1 ms (R123). -/
def ackStall (n : Nat) (s : State) : State :=
  let t := txOf s n
  if !linkLive s n || t.next == t.unacked || decide (now s < t.lastAdv + 1000000) then s else fall n 0 s

/-- FLIT_TRANSMIT (R117). -/
def execFlitTransmit (lp : LpId) (s : State) : Host.Outcome State Fault Refusal := finishStep (flitTransmit lp.val s)
/-- FLIT_RECEIVE (R120). -/
def execFlitReceive (lp : LpId) (first : Bytes) (others : List Bytes) (s : State) : Host.Outcome State Fault Refusal := finishStep (flitReceive lp.val (first :: others) s)

/-- REPLAY_TIMEOUT (R122). -/
def execReplayTimeout (lp : LpId) (s : State) : Host.Outcome State Fault Refusal := finishStep (replayTimeout lp.val s)
/-- ACK_STALL_TIMEOUT (R123). -/
def execAckStallTimeout (lp : LpId) (s : State) : Host.Outcome State Fault Refusal := finishStep (ackStall lp.val s)

end Sys2Proof.Machine
end

