-- ==== Sys2Proof/Machine/Lanes.lean ====
section
/-! DEFINITION. Lanes: lock and its loss, codewords, PRBS, eye scans, the lane survey and Lane Margining; the contacts INT_N and CLKREQ_N, and CXL L1 (R41 to R44, R63 to R76, R87 to R91, R97, R126, R127, R524). -/

namespace Sys2Proof.Machine

/-- A lane's lock is over or regained: what it hunted counts in the port's window once no lane hunts (R127). -/
def endHunt (n : Nat) (s : State) : State :=
  let k := huntPeriods s n
  if k = 0 || !isDen s n || !linkLive s n then s
  else
    let c := cfgOf s n
    let l := List.replicate k (now s) ++ slide (now s) c.window (winOf s n).cw
    let s := bumpC .uncorrCw n 0 k {} (modWin n (fun w => { w with cw := l.take 512 }) s)
    if l.length ≥ c.cwLimit then fall n 0 s else s

/-- A CXL link that carries flits at 64 GT/s (R41). -/
def flitBlocks (s : State) (n : Nat) : Bool := isCxl s n && lpUp s n && (lpOf s n).rate == 2

/-- A codeword decodes, clean or corrected: RS(544,514) corrects at most 15 symbols (R41). -/
def decodes (fixed : Option Nat) : Bool := fixed.any (fun k => decide (k ≤ 15))

/-- The test of a block header by the port's mode (R41); a block of another mode's kind is none. -/
def headerValid (s : State) (n : Nat) : Header → Option Bool
  | .codeword _ fixed => if isDen s n then some (decodes fixed) else none
  | .sync b => if isCxl s n && !flitBlocks s n then some (b == 1 || b == 2) else none
  | .orderedSet w => if isCxl s n && !lpUp s n then some w else none
  | .flitShare fec crc => if flitBlocks s n then some (fec && crc) else none

/-- What a codeword adds to its lane's counters (R71): the symbols corrected, or that it did not decode. -/
def countCodeword (lane : Nat) (h : Header) (s : State) : State :=
  match h with
  | .codeword _ fixed => if decodes fixed then bumpC .fecSym lane 0 (fixed.getD 0) {} s else bump .fecCw lane s
  | _ => s

/-- A codeword of a locked lane fails to decode (R97, R126): it counts in its port's window and condemns every flit that has a byte in it. -/
def badCodeword (n : Nat) (h : Header) (s : State) : State :=
  match h with
  | .codeword idx fixed =>
    if decodes fixed || !isDen s n || !(linkLive s n || (lpOf s n).link == .training) then s
    else
      let c := cfgOf s n
      let l := now s :: slide (now s) c.window (winOf s n).cw
      let s := bump .uncorrCw n (modWin n (fun w => { w with cw := l }) s)
      let s := modRx n (fun r => { r with bad := stillBad r.pos (r.bad ++ [condemnedBy (widthNow s n) idx]) }) s
      if l.length ≥ c.cwLimit then fall n 0 s else s
  | _ => s

/-- A lane declares lock (R42); once no lane of its port hunts any more, what was hunted counts (R127). -/
def lockLane (lane : Nat) (s : State) : State :=
  let n := lpOfLane s lane
  let others := (lanesOf s n).any (fun j => j != lane && (tget s.net.lanes j).huntSince.isSome)
  let s := if (lpOf s n).huntFrom.isSome && !others then modLp n (fun l => { l with huntFrom := none }) (endHunt n s) else s
  modLane lane (fun x => { x with locked := true, streak := 0, headers := [], huntSince := none }) s

/-- A lane loses its lock (R43): on a Den link that carries flits it hunts from now on (R44, R127). -/
def unlockLane (lane : Nat) (s : State) : State :=
  let n := lpOfLane s lane
  let hunts := isDen s n && linkLive s n && (lpOf s n).dl == .dl0
  let t := now s
  let s := if hunts then modLp n (fun l => { l with huntFrom := l.huntFrom.or (some t) }) s else s
  bump .lockLoss lane (modLane lane (fun x => { x with locked := false, streak := 0, headers := [], huntSince := if hunts then some t else none }) s)

/-- One block header of a lane (R41 to R43, R71): 64 valid in a row declare lock; 16 invalid among any 64 lose it. -/
def takeHeader (lane : Nat) (s : State) (h : Header) : State :=
  let n := lpOfLane s lane
  match headerValid s n h with
  | none => s
  | some ok =>
    let s := countCodeword lane h (bump (if ok then .hdrValid else .hdrInvalid) lane s)
    let x := tget s.net.lanes lane
    if !x.locked then
      let k := if ok then x.streak + 1 else 0
      if k < 64 then modLane lane (fun x => { x with streak := k }) s else lockLane lane s
    else
      let s := badCodeword n h s
      let hs := (ok :: x.headers).take 64
      if (hs.filter (fun b => !b)).length ≥ 16 then unlockLane lane s else modLane lane (fun x => { x with headers := hs }) s

/-- The block headers that a lane receives, in order; its port's receivers run while its domain is On. -/
def takeHeaders (lane : Nat) (hs : List Header) (s : State) : State :=
  let n := lpOfLane s lane
  if !portOn s n || (lpOf s n).link == .disabled || (lpOf s n).dl == .dl2 then s else hs.foldl (takeHeader lane) s

/-- A Den lane has hunted for 100 µs (R44): a retrain of its port is requested. -/
def relockTimeout (lane : Nat) (s : State) : State :=
  let n := lpOfLane s lane
  match (tget s.net.lanes lane).huntSince with
  | none => s
  | some t => if isDen s n && linkLive s n && decide (now s ≥ t + 100000) && (initOf s n).retrain = 0 then askRetrain n false s else s

/-- The bit rate of a lane under test in Gbit/s (R66). -/
def laneGbit (pattern : Nat) (den : Bool) : Nat := if den then 112 else if pattern = 3 then 32 else 64

/-- The pattern fits the port's modulation (R66). -/
def patternOk (s : State) (n k : Nat) : Bool := if isDen s n then k == 1 || k == 2 else k == 1 || k == 2 || k == 3

/-- The device lanes of a PRBS session: lane k of the mask is lane k of its logical port (R67). -/
def prbsLanes (n mask : Nat) : List Nat := ((List.range 8).filter (fun k => bitOf mask k)).map (4 * n + ·)

/-- Two sets of device lanes share a pair, and so its PRBS generator (R67). -/
def sharePair (a b : List Nat) : Bool := a.any (fun x => b.any (fun y => x / 2 == y / 2))

/-- The PRBS session that drives the generator of one of a mask's lane pairs with another pattern (R67, R70). -/
def generatorHolder (s : State) (n mask pattern : Nat) : Option Handle :=
  holderOf s (fun r => match r with
    | .prbs m k p g _ => g && p != pattern && sharePair (prbsLanes m k) (prbsLanes n mask)
    | _ => false)

/-- `diag.prbs` (R66 to R70, R524). -/
def specPrbs : CmdSpec :=
  { op := 0x0E01, who := fmOnly, args := fun s p => [lenIs p 4, fld 0 (lpExists s (fieldAt p 0 1)), fld 1 (decide (fieldAt p 1 1 < 2 ^ (lanesOf s (fieldAt p 0 1)).length) && fieldAt p 1 1 != 0), fld 2 (patternOk s (fieldAt p 0 1) (fieldAt p 2 1)), fld 3 (decide (1 ≤ fieldAt p 3 1) && decide (fieldAt p 3 1 ≤ 3))], state := fun s _ p => (lpOf s (fieldAt p 0 1)).link == .disabled, held := fun s _ p => generatorHolder s (fieldAt p 0 1) (fieldAt p 1 1) (fieldAt p 2 1), cap := fun s _ _ => (lowestFree s 6).isSome, run := fun x p s =>
      match openSession x.q.route (.prbs (fieldAt p 0 1) (fieldAt p 1 1) (fieldAt p 2 1) (bitOf (fieldAt p 3 1) 0) (bitOf (fieldAt p 3 1) 1)) (now s) s with
      | (none, s) => ({ status := .noResource }, s)
      | (some h, s) => ({ related := h, h1 := h }, s) }

/-- The counts of one checked lane over a time (R71): every bit is compared; how many were wrong is a free value (DEDUCED, assumption 62). -/
def prbsLane (lane bits : Nat) (s : State) : Bytes × State :=
  let (v, s) := drawFree s
  let errs := v % (bits + 1)
  let s := bumpC .prbsErrs lane 0 errs {} (bumpC .prbsBits lane 0 bits {} s)
  (leBytes 8 bits ++ leBytes 8 errs, s)

/-- `diag.prbs_stop` (R69, R71). -/
def specPrbsStop : CmdSpec :=
  { op := 0x0E02, who := fmOnly, args := fun _ p => [lenIs p 4], handles := fun p => [(handleAt p 0, [6], false)], state := fun s _ p => (match (tget s.ten.sessions (hIdx (handleAt p 0))).res with | .prbs _ _ _ _ _ => true | _ => false), run := fun _ p s =>
      let i := hIdx (handleAt p 0)
      let x := tget s.ten.sessions i
      match x.res with
      | .prbs n mask pattern _ chk =>
        let bits := if chk then laneGbit pattern (isDen s n) * (now s - x.until_) else 0
        let (out, s) := (prbsLanes n mask).foldl (fun r l => let (b, s) := if chk then prbsLane l bits r.2 else (zeros 16, r.2); (r.1 ++ b, s)) (([] : Bytes), s)
        ({ payload := out, h1 := handleAt p 0 }, endSession i s)
      | _ => ({ status := .badState }, s) }

/-- The session that holds a die's eye-scan engine (R72, R75, R524). -/
def engineHolder (s : State) (die : Nat) : Option Handle :=
  holderOf s (fun r => match r with
    | .eyescan d => d == die
    | .margin d _ _ => d == die
    | _ => false)

/-- A lane's modulation is PAM4 (R66, R73): Den, and CXL at 64 GT/s. A CXL lane that has no trained rate counts as PAM4 (DESIGN CHOICE, assumption 120). -/
def isPam4 (s : State) (n : Nat) : Bool := isDen s n || (lpOf s n).rate == 2 || (lpOf s n).rate == 0

/-- How long a scan takes within its bound: a free value (R64, R74). -/
def scanTime (bound : Nat) (s : State) : Nat × State :=
  let (v, s) := drawFree s
  (1 + v % bound, s)

/-- `diag.eyescan` (R72 to R75): what the scan measures is a free value. -/
def specEyescan : CmdSpec :=
  { op := 0x0E03, who := fmOnly, args := fun _ p => [lenIs p 4, fld 0 (decide (fieldAt p 0 2 < 1024)), rsv p 2 2], held := fun s _ p => engineHolder s (fieldAt p 0 2 / 128), cap := fun s _ _ => (lowestFree s 6).isSome, reads := fun _ => true, run := fun x p s =>
      let lane := fieldAt p 0 2
      let (d, s) := scanTime 400000000 s
      match openSession x.q.route (.eyescan (lane / 128)) (now s + d) s with
      | (none, s) => ({ status := .noResource }, s)
      | (some h, s) =>
        let (v, s) := drawFree s
        let n := 64 * 128 * 4 + (if isPam4 s (lpOfLane s lane) then 12 else 0)
        ({ payload := leBytes n v, h1 := h, waits := [.eyescan h] }, s) }

/-- The coefficients that the survey of a lane finds: free values within the limits of R49. -/
def foundPoint (s : State) : List Int × State :=
  let (v, s) := drawFree s
  let dig := fun (k m : Nat) => v / 65536 ^ k % m
  let tap := fun (k : Nat) => (dig k 9 : Int) - 4
  ([tap 0, tap 1, tap 2, 64 + (dig 3 32 : Int), tap 4, (dig 5 32 : Int), (dig 6 16 : Int)] ++ (List.range 24).map (fun k => (dig (7 + k) 65536 : Int) - 32768), s)

/-- The 64 bytes of a temperature point (R49). -/
def pointBytes (p : List Int) : Bytes :=
  (List.range 5).flatMap (fun k => sBytes 1 (p.getD k 0)) ++ sBytes 1 (p.getD 5 0) ++ sBytes 1 (p.getD 6 0) ++ [0]
    ++ (List.range 24).flatMap (fun k => sBytes 2 (p.getD (7 + k) 0)) ++ zeros 8

/-- The temperature point whose nominal temperature lies within 5 °C of a lid estimate (R65). -/
def nearPoint (t : Int) : Option Nat :=
  if (t + 200).natAbs ≤ 50 then some 0 else if (t - 350).natAbs ≤ 50 then some 1 else if (t - 800).natAbs ≤ 50 then some 2 else none

/-- `diag.survey` (R63 to R65): one temperature point per lane, written into the draft where its lid estimate permits. The one lid estimate of the survey stands after the points of all its lanes (DESIGN CHOICE, assumption 121). -/
def specSurvey : CmdSpec :=
  { op := 0x0E04, who := fmOnly, args := fun s p => [lenIs p 4, fld 0 (lpExists s (fieldAt p 0 1)), fld 1 (fieldAt p 1 1 == 1 || fieldAt p 1 1 == 2), rsv p 2 2], state := fun s _ p => s.dev.st == .test && (lpOf s (fieldAt p 0 1)).link == .disabled, held := fun s _ p => engineHolder s (dieOf (fieldAt p 0 1)), cap := fun s _ _ => (lowestFree s 6).isSome, run := fun x p s =>
      let n := fieldAt p 0 1
      let t := lidOf s n
      let (d, s) := scanTime 12000000000 s
      match openSession x.q.route (.eyescan (dieOf n)) (now s + d) s with
      | (none, s) => ({ status := .noResource }, s)
      | (some h, s) =>
        let (out, s) := (lanesOf s n).foldl (fun r l =>
          let (pt, s) := foundPoint r.2
          let s := match nearPoint t with
            | some k => modLane l (fun x => { x with draft := tset x.draft ((fieldAt p 1 1 - 1) * 3 + k) pt }) s
            | none => s
          (r.1 ++ pointBytes pt, s)) (([] : Bytes), s)
        ({ payload := out ++ sBytes 2 t, h1 := h, waits := [.eyescan h] }, s) }

/-- A lane entry of the draft (R49): a set whose three points were measured is marked valid. -/
def draftEntry (s : State) (l : Nat) : Bytes :=
  let d := (tget s.net.lanes l).draft
  let has := fun (set_ : Nat) => (List.range 3).all (fun k => d.any (fun e => e.1 == set_ * 3 + k))
  let fl := 4 * b2n (has 0) + 8 * b2n (has 1)
  let pt := fun (k : Nat) => if d.any (fun e => e.1 == k) then pointBytes (tget d k) else zeros 64
  leBytes 2 l ++ leBytes 1 fl ++ zeros 13 ++ (List.range 6).flatMap pt

/-- The draft table (R49, R65, R520): what the survey does not find, and the signature, read 0. -/
def draftTable (s : State) : Bytes :=
  leBytes 4 0x42545145 ++ leBytes 2 1 ++ leBytes 2 1024 ++ zeros 12 ++ leBytes 2 400 ++ zeros 106
    ++ (List.range 1024).flatMap (draftEntry s) ++ zeros 7219

/-- `diag.survey_read` (R65). -/
def specSurveyRead : CmdSpec :=
  { op := 0x0E05, who := fmOnly, args := fun _ p => [lenIs p 4, rsv p 0 4], reads := fun _ => true, run := fun _ _ s => ({ payload := draftTable s }, s) }

/-- A partner margins a lane of a CXL port (R76, R524): it starts a session when the die's engine is free, which Margin Ready says; a step of the lane's sampler reports how many errors it finds, a free value; a stop ends the session. -/
def laneMargining (n : Nat) (m : MarginOp) (s : State) : State :=
  let mine := s.ten.sessions.filter (fun e => e.2.live && (match e.2.res with | .margin _ lp _ => lp == n | _ => false))
  match m with
  | .start k =>
    if !isCxl s n || !linkLive s n || (lanesOf s n).length ≤ k.val then s
    else
      let ready := (engineHolder s (dieOf n)).isNone
      let s := emit (.margin n (4 * n + k.val) ready) s
      if ready then (openSession (.firmware (BitVec.ofNat 8 (n / 2))) (.margin (dieOf n) n (4 * n + k.val)) 0 s).2 else s
  | .stop => mine.foldl (fun s e => endSession e.1 s) s
  | .step _ _ _ =>
    match mine.head? with
    | some (_, x) =>
      let lane := match x.res with
        | .margin _ _ l => l
        | _ => 4 * n
      let (v, s) := drawFree s
      emit (.marginErrors n lane v) s
    | none => if isCxl s n && linkLive s n then emit (.margin n (4 * n) (engineHolder s (dieOf n)).isNone) s else s

/-- P*nnn*INT_N as a level source: line 4 of the port's block (R87, R669), ignored while the port's domain is not On (R634). -/
def intLevel (p : Nat) (level : Bool) (s : State) : State :=
  let low := !level
  sicLevel (8 * p + 4) (low && portOn s (2 * p)) (modPort p (fun x => { x with intLow := low }) s)

/-- P*nnn*CLKREQ_N as the partner drives it (R88, R90): with L1.1 enabled on the port's even CXL logical port, an assertion ends L1, and a release in L1 lets both ends enter L1.1; otherwise it is ignored. -/
def clkreqChange (p : Nat) (level : Bool) (s : State) : State :=
  let n := 2 * p
  let s := modPort p (fun x => { x with clkreqLow := !level }) s
  if !(hasClkreq s n && (lpOf s n).l11En && (lpOf s n).l1) then s
  else if !level then wakeDl n s
  else modPort p (fun x => { x with clkreqOut := false }) (modLp n (fun l => { l with l11 := true }) s)

/-- A CXL partner asks for ASPM L1 or leaves it (R88, R89): a device-facing or fabric port accepts when it has nothing to send; on a host-facing port it is Dizal that initiates. -/
def aspmL1 (n : Nat) (enter : Bool) (s : State) : State :=
  if !isCxl s n || !lpUp s n then s
  else if !enter then wakeDl n s
  else if !isHost s n && !(lpOf s n).l1 && cxlQuiet s n then enterL1 n s
  else s

/-- LANE_LOCK (R42). -/
def execLaneLock (lane : Fin 1024) (headers : List Header) (s : State) : Host.Outcome State Fault Refusal := finishStep (takeHeaders lane.val headers s)

/-- LANE_LOCK_LOSS (R43). -/
def execLaneLockLoss (lane : Fin 1024) (headers : List Header) (s : State) : Host.Outcome State Fault Refusal := finishStep (takeHeaders lane.val headers s)

/-- LANE_RELOCK_TIMEOUT (R44). -/
def execLaneRelockTimeout (lane : Fin 1024) (s : State) : Host.Outcome State Fault Refusal := finishStep (relockTimeout lane.val s)
/-- CODEWORD_UNCORRECTABLE (R97): codeword `idx` of a lane since the last alignment marker does not decode. -/
def execCodewordUncorrectable (lane : Fin 1024) (idx : Nat) (s : State) : Host.Outcome State Fault Refusal := finishStep (takeHeaders lane.val [.codeword idx none] s)

/-- DIAG_PRBS. -/
def execDiagPrbs (q : Req) (p : Bytes) (s : State) : Host.Outcome State Fault Refusal := finishStep (runCmd specPrbs q p s)
/-- DIAG_PRBS_STOP. -/
def execDiagPrbsStop (q : Req) (p : Bytes) (s : State) : Host.Outcome State Fault Refusal := finishStep (runCmd specPrbsStop q p s)
/-- DIAG_EYESCAN. -/
def execDiagEyescan (q : Req) (p : Bytes) (s : State) : Host.Outcome State Fault Refusal := finishStep (runCmd specEyescan q p s)
/-- DIAG_SURVEY. -/
def execDiagSurvey (q : Req) (p : Bytes) (s : State) : Host.Outcome State Fault Refusal := finishStep (runCmd specSurvey q p s)
/-- DIAG_SURVEY_READ. -/
def execDiagSurveyRead (q : Req) (p : Bytes) (s : State) : Host.Outcome State Fault Refusal := finishStep (runCmd specSurveyRead q p s)
/-- LANE_MARGINING (R76). -/
def execLaneMargining (lp : LpId) (m : MarginOp) (s : State) : Host.Outcome State Fault Refusal := finishStep (laneMargining lp.val m s)

/-- INT_N_LEVEL (R87). -/
def execIntNLevel (p : PortId) (level : Bool) (s : State) : Host.Outcome State Fault Refusal := finishStep (intLevel p.val level s)
/-- CLKREQ_N_CHANGE (R90). -/
def execClkreqNChange (p : PortId) (level : Bool) (s : State) : Host.Outcome State Fault Refusal := finishStep (clkreqChange p.val level s)
/-- ASPM_L1_REQUEST (R89). -/
def execAspmL1Request (lp : LpId) (enter : Bool) (s : State) : Host.Outcome State Fault Refusal := finishStep (aspmL1 lp.val enter s)

end Sys2Proof.Machine
end

