-- ==== Sys2Proof/Machine/PortCmds.lean ====
section
/-! DEFINITION. The commands that configure, enable, disable, report, retrain and idle a logical port (R27 to R29, R50, R52, R78 to R91, R133, R143, R148, R150, R179, R225, R520, R521, R598, R618, R710). -/

namespace Sys2Proof.Machine

/-- A module is in the cage, by the contact debounced for 10 ms (R85). -/
def presentNow (s : State) (p : Nat) : Bool :=
  let c := portOf s p
  if now s ≥ c.prsntSince + 10000000 then !c.prsntHigh else c.present

/-- A numeric field of `port.configure` that holds 0 takes its default (R521). -/
def orDefault (v d : Nat) : Nat := if v = 0 then d else v

/-- The default credits of a Den port (R226). -/
def defaultCredits (width : Nat) : List Nat :=
  if width = 4 then [320, 320, 128, 320, 384, 384, 64, 128] else [640, 640, 256, 640, 768, 768, 128, 256]

/-- The default thresholds of the violation classes (R176). -/
def defaultThresholds : List Nat := [8, 8, 16, 16, 8, 1024, 4, 8]

/-- A field is 0 or within its range (R521). -/
def zeroOr (v lo hi : Nat) : Bool := v == 0 || (decide (lo ≤ v) && decide (v ≤ hi))

/-- The checks of a `port.configure` payload (R27, R521): the odd half of a split port carries the port's present mode and width. -/
def configureArgs (s : State) (p : Bytes) : List (Nat × Bool) :=
  let n := fieldAt p 0 1
  let odd := n % 2 == 1
  let now_ := cfgOf s (n - n % 2)
  let mode := fieldAt p 1 1
  let width := fieldAt p 2 1
  [lenIs p 64, fld 0 (lpExists s n), fld 1 ((mode == 1 || mode == 2) && (!odd || mode == now_.mode)), fld 2 ((width == 8 || width == 4) && (!odd || width == now_.width)), fld 3 (decide (1 ≤ fieldAt p 3 1) && decide (fieldAt p 3 1 ≤ 3)), fld 4 (!bitOf (fieldAt p 5 1) 2 || lpExists s (fieldAt p 4 1)), fld 5 (decide (fieldAt p 5 1 < 8)), fld 6 (decide (fieldAt p 6 1 < 16)), rsv p 7 1, fld 8 (zeroOr (fieldAt p 8 2) 2 1024), fld 12 (zeroOr (fieldAt p 12 4) 10000 100000000)]
    ++ (List.range 8).map (fun k => fld (16 + 2 * k) (zeroOr (fieldAt p (16 + 2 * k) 2) 1 1024))
    ++ [fld 32 (zeroOr (fieldAt p 32 4) 100000 50000000), fld 36 (zeroOr (fieldAt p 36 4) 100000 50000000), fld 40 (zeroOr (fieldAt p 40 4) 1000000 1000000000), rsv p 60 4]

/-- The table that a payload gives (R521). -/
def cfgFrom (p : Bytes) : PortCfg :=
  let w := fieldAt p 2 1
  { mode := fieldAt p 1 1, width := w, role := fieldAt p 3 1, twin := fieldAt p 4 1, twinNamed := bitOf (fieldAt p 5 1) 2, failback := bitOf (fieldAt p 5 1) 0, ignorePresent := bitOf (fieldAt p 5 1) 1, fwd := fieldAt p 6 1, crcLimit := orDefault (fieldAt p 8 2) 65, cwLimit := orDefault (fieldAt p 10 1) 4, protoLimit := orDefault (fieldAt p 11 1) 8, window := orDefault (fieldAt p 12 4) 1000000, thresholds := (List.range 8).map (fun k => orDefault (fieldAt p (16 + 2 * k) 2) (defaultThresholds.getD k 8)), respTimeout := orDefault (fieldAt p 32 4) 2000000, mergeTimeout := orDefault (fieldAt p 36 4) 2000000, freezeLimit := orDefault (fieldAt p 40 4) 10000000, credits := (List.range 8).map (fun k => orDefault (fieldAt p (44 + 2 * k) 2) ((defaultCredits w).getD k 0)) }

/-- A logical port is disabled (R520). -/
def lpDisabled (s : State) (n : Nat) : Bool := (lpOf s n).link == .disabled

/-- Mode and width change only while the port is disabled, the role only while the logical port is (R28, R91, R156). -/
def configureState (s : State) (p : Bytes) : Bool :=
  let n := fieldAt p 0 1
  let old := cfgOf s n
  let new := cfgFrom p
  let port := n - n % 2
  (old.mode == new.mode && old.width == new.width || (lpDisabled s port && lpDisabled s (port + 1))) && (old.role == new.role || lpDisabled s n)

/-- A port that is split starts its odd half on the defaults; a split port keeps one mode (R29, R226). -/
def setOddHalf (n : Nat) (old new : PortCfg) (s : State) : State :=
  if n % 2 = 1 then s
  else if old.width != new.width then modLp (n + 1) (fun l => { l with next := none, cfg := { mode := new.mode, width := new.width, role := new.role, credits := defaultCredits new.width } }) s
  else modLp (n + 1) (fun l => { l with cfg := { l.cfg with mode := new.mode } }) s

/-- Store a table: on a port that is not disabled the twin, its flag and the credits wait for the next link-up (R521). A new width ends a width degradation, and a new twin the pair's credit pool (R108, R150). -/
def storeCfg (n : Nat) (c : PortCfg) (s : State) : State :=
  let old := cfgOf s n
  if lpDisabled s n then
    let s := if c.twin != old.twin || c.twinNamed != old.twinNamed then unpool n s else s
    modLp n (fun l => { l with cfg := c, next := none, width4 := if c.width = old.width then l.width4 else none }) s
  else modLp n (fun l => { l with cfg := { c with twin := old.twin, twinNamed := old.twinNamed, credits := old.credits }, next := some (c.twin, c.twinNamed, c.credits) }) s

/-- The reservation of a port as a table would make it (R225). -/
def cellsWith (s : State) (n : Nat) (c : PortCfg) : Nat :=
  let s' := modLp n (fun l => { l with cfg := c }) (setOddHalf n (cfgOf s n) c s)
  portCells s' (n / 2)

/-- `port.configure` (R28, R29, R143, R225, R521, R598): a failback flag that is set again brings the moved destinations back. -/
def specPortConfigure : CmdSpec :=
  { op := 0x0201, who := fmOnly, args := configureArgs, state := fun s _ p => configureState s p, cap := fun s _ p => decide (cellsWith s (fieldAt p 0 1) (cfgFrom p) ≤ 8192), run := fun _ p s =>
      let n := fieldAt p 0 1
      let c := cfgFrom p
      let old := cfgOf s n
      let s := storeCfg n c (setOddHalf n old c s)
      let s := if c.mode == 1 && n % 2 == 0 then modPort (n / 2) (fun x => { x with clkreqOut := false }) s else s
      let s := if c.failback && !old.failback && linkLive s n then sendFailback n s else s
      ({}, ledgerWrite id s) }

/-- A PRBS session that holds a lane of a logical port (R69, R91, R524). -/
def prbsHolder (s : State) (n : Nat) : Option Handle :=
  holderOf s (fun r => match r with
    | .prbs m k _ _ _ => (prbsLanes m k).any (fun l => (lanesOf s n).contains l)
    | _ => false)

/-- A logical port trains afresh: its counts of link downs and its windows are empty (R133, R182, R593). A width degradation stands (R150). -/
def trainAfresh (n : Nat) (s : State) : State :=
  let s := modLp n (fun l => { l with link := .training, downs := [], idleUntil := none, dl := .dl0, dlExit := none, dlReq := 0, probation := none, sinceUpDown := true, wentDown := false, rate := 0, l1 := false, l11 := false, aspmEn := false, l11En := false }) s
  let s := modInit n (fun _ => {}) (modWin n (fun w => { w with crc := [], cw := [], proto := [], viol := [], viral := false }) s)
  portPins (n / 2) (modPort (n / 2) (fun x => { x with rstLow := false }) (stopTx n s))

/-- A logical port may link up without a command: no PRBS session holds a lane of it (R69), and it was not taken out of service under R178, which leaves no rate (R179). -/
def mayTrain (s : State) (n : Nat) : Bool := (prbsHolder s n).isNone && ((lpOf s n).link != .outOfService || (lpOf s n).rate != 0)

/-- A port whose link does not carry or seek traffic. -/
def linkStopped (s : State) (n : Nat) : Bool :=
  match (lpOf s n).link with
  | .disabled | .quarantined | .outOfService => true
  | _ => false

/-- What `port.enable` needs (R50, R52, R86, R618, R710). -/
def enableState (s : State) (n : Nat) : Bool :=
  let free := (cfgOf s n).ignorePresent
  s.sec.tableOk && setsValid s n && portOn s n && (free || (presentNow s (n / 2) && (tget s.cages.cages (n / 2)).pg))

/-- The ledger marks a port enabled, or not when both of its logical ports are disabled (R597). -/
def markPort (n : Nat) (s : State) : State :=
  let p := n / 2
  let on := !lpDisabled s (2 * p) || !lpDisabled s (2 * p + 1)
  ledgerWrite (fun b => { b with ports := if on then b.ports ||| 2 ^ p else b.ports - 2 ^ p * b2n (bitOf b.ports p) }) s

/-- The arguments of a command that names one logical port (R27, R520). -/
def oneLp (s : State) (p : Bytes) : List (Nat × Bool) := [lenIs p 4, fld 0 (lpExists s (fieldAt p 0 1)), rsv p 1 3]

/-- `port.enable` (R50, R52, R86, R91, R133, R179, R598, R618, R710): a link that is up or training stays as it is. -/
def specPortEnable : CmdSpec :=
  { op := 0x0202, who := fmOnly, args := oneLp, state := fun s _ p => enableState s (fieldAt p 0 1), held := fun s _ p => prbsHolder s (fieldAt p 0 1), run := fun _ p s =>
      let n := fieldAt p 0 1
      let s := if linkStopped s n then modStart (fun x => { x with quar := tset x.quar (n / 2) default }) (trainAfresh n s) else modLp n (fun l => { l with downs := [] }) s
      ({}, markPort n s) }

/-- `port.disable` (R84, R223, R598). -/
def specPortDisable : CmdSpec :=
  { op := 0x0203, who := fmOnly, args := oneLp, run := fun _ p s =>
      let n := fieldAt p 0 1
      let s := discardMasked (portPins (n / 2) (disableLp n s))
      let s := if lpDisabled s (n - n % 2) && lpDisabled s (n - n % 2 + 1) then modStart (fun x => { x with quar := tset x.quar (n / 2) default }) s else s
      ({}, markPort n s) }

/-- The code of a link state (R520). -/
def linkCode : Link → Nat
  | .disabled => 0 | .training => 1 | .up => 2 | .probation => 3 | .quarantined => 4 | .outOfService => 5

/-- The code of a Den power state. -/
def dlCode : Dl → Nat
  | .dl0 => 0 | .dl1 => 1 | .dl2 => 2

/-- `port.status` (R520, R521). -/
def specPortStatus : CmdSpec :=
  { op := 0x0204, who := fmBmc, args := oneLp, reads := fun _ => true, run := fun _ p s =>
      let n := fieldAt p 0 1
      let l := lpOf s n
      let flags := b2n (portDrained s (n / 2)) + 2 * b2n (twinOf s n).isSome + 4 * b2n (presentNow s (n / 2))
      ({ payload := portCfgBytes n l.cfg ++ leBytes 1 (linkCode l.link) ++ leBytes 1 (if isDen s n then 1 else l.rate) ++ leBytes 1 (widthNow s n) ++ leBytes 1 (dlCode l.dl) ++ leBytes 4 flags ++ leBytes 4 (txOf s n).rtt ++ sBytes 2 l.lidAtUp ++ zeros 2 }, s) }

/-- `port.retrain` (R133, R144, R148, R150, R155): a quarantined port trains again; a CXL link that is up keeps its state (DEDUCED, assumption 53). -/
def specPortRetrain : CmdSpec :=
  { op := 0x0205, who := fmOnly, args := oneLp, state := fun s _ p => (match (lpOf s (fieldAt p 0 1)).link with | .disabled | .outOfService => false | _ => true), run := fun _ p s =>
      let n := fieldAt p 0 1
      let i := initOf s n
      if i.retrain ≠ 0 || i.held then ({ status := .busy }, s)
      else if (lpOf s n).link == .quarantined then ({}, trainAfresh n (modLp n (fun l => { l with width4 := none }) s))
      else
        let s := modLp n (fun l => { l with downs := [] }) s
        ({}, if isDen s n && linkLive s n then portRetrain n s else s) }

/-- `port.power` (R78, R80 to R83, R91): DL2 is only for a Den link that is up and serves no twin. -/
def specPortPower : CmdSpec :=
  { op := 0x0206, who := fmOnly, args := fun s p => [lenIs p 8, fld 0 (lpExists s (fieldAt p 0 1)), fld 1 (decide (fieldAt p 1 1 < 3)), rsv p 2 2, fld 4 (zeroOr (fieldAt p 4 4) 1000 10000000)], state := fun s _ p => fieldAt p 1 1 != 2 || (isDen s (fieldAt p 0 1) && lpUp s (fieldAt p 0 1) && (twinOf s (fieldAt p 0 1)).isNone), run := fun _ p s =>
      let n := fieldAt p 0 1
      let k := fieldAt p 1 1
      let s := modLp n (fun l => { l with idle := orDefault (fieldAt p 4 4) l.idle, dl1Barred := if k = 2 then l.dl1Barred else k == 1 }) s
      let d := (lpOf s n).dl
      if k = 2 then
        if d == .dl0 then ({}, sendCtrl n { subtype := 12, subject := BitVec.ofNat 8 n } (modLp n (fun l => { l with dlReq := 2 }) s))
        else if d == .dl2 && (lpOf s n).dlExit.isNone then ({}, s)
        else ({}, wakeDl n (modLp n (fun l => { l with dlReq := 3 }) s))
      else if isDen s n && (d == .dl2 || (d == .dl1 && k == 1)) then ({}, wakeDl n s)
      else ({}, s) }

/-- PORT_CONFIGURE. -/
def execPortConfigure (q : Req) (p : Bytes) (s : State) : Host.Outcome State Fault Refusal := finishStep (runCmd specPortConfigure q p s)
/-- PORT_ENABLE. -/
def execPortEnable (q : Req) (p : Bytes) (s : State) : Host.Outcome State Fault Refusal := finishStep (runCmd specPortEnable q p s)
/-- PORT_DISABLE. -/
def execPortDisable (q : Req) (p : Bytes) (s : State) : Host.Outcome State Fault Refusal := finishStep (runCmd specPortDisable q p s)
/-- PORT_STATUS. -/
def execPortStatus (q : Req) (p : Bytes) (s : State) : Host.Outcome State Fault Refusal := finishStep (runCmd specPortStatus q p s)
/-- PORT_RETRAIN. -/
def execPortRetrain (q : Req) (p : Bytes) (s : State) : Host.Outcome State Fault Refusal := finishStep (runCmd specPortRetrain q p s)
/-- PORT_POWER. -/
def execPortPower (q : Req) (p : Bytes) (s : State) : Host.Outcome State Fault Refusal := finishStep (runCmd specPortPower q p s)

end Sys2Proof.Machine
end

