-- ==== Sys2Proof/Machine/Cage.lean ====
section
/-! DEFINITION. Cage power: the ramp, limits, trips, retries and damage of each cage, the module-present contact, and the `cage` commands (R85, R696 to R717). -/

namespace Sys2Proof.Machine

/-- A cage. -/
def cageOf (s : State) (c : Nat) : CageSt := tget s.cages.cages c
/-- A cage's parameters (R714). -/
def cageParOf (s : State) (c : Nat) : CagePar := tget s.cages.pars c
/-- Change a cage. -/
def modCage (c : Nat) (g : CageSt → CageSt) (s : State) : State := { s with cages := { s.cages with cages := tmod s.cages.cages c g } }

/-- Change a cage's state: a change raises the cage's line (R669, R713). -/
def cageTo (c : Nat) (m : CageMode) (s : State) : State :=
  if (cageOf s c).st = m then s else sicEdge (8 * (176 + c / 8) + c % 8) (modCage c (fun x => { x with st := m }) s)

/-- The gate is not low (R699). -/
def gateHigh (s : State) (c : Nat) : Bool :=
  match (cageOf s c).st with
  | .ramp | .on | .limit => true
  | _ => false

/-- The controllers hold their gate drives while the SNS clock is lost (R641, R711). -/
def cageHeld (s : State) : Bool := !(tget s.pwr.clks 8).running

/-- A cage event (R712): its Argument is the cage number plus 65,536 times the current in mA. -/
def cageEvent (c code : Nat) (cls : EvClass) (s : State) : State :=
  raise { code := code, cls := cls, block := 176 + c / 8, arg := c + 65536 * (cageOf s c).mA } s

/-- The time a cage has spent in LIMIT is counted as it leaves (R716). -/
def endLimit (c : Nat) (s : State) : State :=
  if (cageOf s c).st = .limit then bumpC .cgLimitTime c 0 (now s - (cageOf s c).limitAt) {} s else s

/-- Drive a gate low (R700, R704, R709). -/
def gateLow (c : Nat) (m : CageMode) (s : State) : State :=
  let was := gateHigh s c
  let s := endLimit c s
  let t := now s
  cageTo c m (modCage c (fun x => { x with pg := false, pgFrom := none, timer := none, ilim := false, gateLowAt := if was then t else x.gateLowAt }) s)

/-- Every gate low: PORST_N asserted and entry to Off (R711). -/
def gatesLow (s : State) : State := (s.cages.cages.map (·.1)).foldl (fun s c => gateLow c .off (modCage c (fun x => { x with attempting := false, attempts := 0 }) s)) s

/-- A port is enabled: one of its logical ports is. -/
def portEnabled (s : State) (p : Nat) : Bool := !lpDisabled s (2 * p) || !lpDisabled s (2 * p + 1)

/-- VOUT stands with the gate low (R707): the pass transistor is damaged. -/
def cageDamaged (c : Nat) (s : State) : State :=
  let s := gateLow c .damaged (modCage c (fun x => { x with cause := 6, attempting := false }) s)
  cageEvent c 0x0F07 .severe (discardMasked (disablePort c s))

/-- The attempts that a cage's setting allows (R705, R714): none for 0xFE, without limit for 0xFF. -/
def attemptsLeft (s : State) (c : Nat) : Bool :=
  let r := (cageParOf s c).retries
  if r = 0xFE then false else if r = 0xFF then true else decide ((cageOf s c).attempts < r)

/-- A trip (R704, R705, R712): the port is disabled, and the cage waits for a retry or is latched. -/
def tripCage (c cause code : Nat) (cls : EvClass) (s : State) : State :=
  let again := (cageOf s c).attempting
  let was := if again then (cageOf s c).wasEnabled else portEnabled s c
  let left := attemptsLeft s c
  let t := now s
  let s := bumpC .cgTrips c cause 1 {} s
  let s := gateLow c (if left then .tripped else .latched) s
  let s := modCage c (fun x => { x with cause := cause, lastTrip := t, wasEnabled := was, attempting := false }) s
  let s := cageEvent c code cls (discardMasked (disablePort c s))
  if left then s else cageEvent c 0x0F05 .severe s

/-- Step A1 (R700, R707): the ramp starts, unless VOUT stands with the gate low. -/
def startRamp (c : Nat) (attempt : Bool) (s : State) : State :=
  if (cageOf s c).mV ≥ 800 then cageDamaged c s
  else
    let t := now s
    let s := modCage c (fun x => { x with a0 := t, timer := none, ilim := false, pg := false, pgFrom := none, attempting := attempt, attemptAt := t }) s
    cageTo c .ramp s

/-- Step 3 of R591 for one port: every logical port of it that exists links up. -/
def linkUpPort (p : Nat) (s : State) : State :=
  ([2 * p, 2 * p + 1].filter (lpExists s)).foldl (fun s n => if portOn s n && s.sec.tableOk && mayTrain s n then trainAfresh n s else s) s

/-- Power-good asserts (R706, R708): an attempt has succeeded, and a port enabled before the trip links up again. -/
def powerGood (c : Nat) (s : State) : State :=
  let x := cageOf s c
  let s := modCage c (fun x => { x with pg := true, pgFrom := none, attempting := false }) s
  if !x.attempting then s
  else
    let s := bump .cgRetryOk c (modCage c (fun x => { x with attempts := 0 }) s)
    let s := cageEvent c 0x0F06 .notice s
    if x.wasEnabled then linkUpPort c s else s

/-- The debounced contact takes its level (R85, R710): a module removed while the gate is not low leaves its cage off. -/
def settlePresence (p : Nat) (s : State) : State :=
  let was := (portOf s p).present
  let is_ := presentNow s p
  if was == is_ then s
  else
    let s := modPort p (fun x => { x with present := is_ }) s
    if !is_ && gateHigh s p && !cageHeld s then
      cageEvent p 0x0F08 .notice (bump .cgRemoved p (gateLow p .off (modCage p (fun x => { x with attempting := false }) s)))
    else s

/-- The fault timer's time in ns. -/
def faultTime (s : State) (c : Nat) : Nat := (cageParOf s c).timer * 1000000

/-- A fault timer ends on the very tick of a sample that stops it: a near miss (R717). -/
def timerNear (c : Nat) (s : State) : State :=
  match (cageOf s c).timer with
  | some t => if now s == t + faultTime s c then bump .cgNear c s else s
  | none => s

/-- A sample in RAMP (R700 steps A2 and A3). -/
def sampleRamp (c mA mV : Nat) (s : State) : State :=
  let t := now s
  let par := cageParOf s c
  if mV ≥ 3000 then
    let s := timerNear c s
    cageTo c .on (modCage c (fun x => { x with timer := none, ilim := false, pgFrom := if mA < par.limit then some t else none }) s)
  else if mA ≥ par.inrush && !(cageOf s c).ilim then modCage c (fun x => { x with ilim := true, timer := some t }) s
  else s

/-- A sample in ON (R700 step A4, R702, R708, R709). -/
def sampleOn (c mA : Nat) (s : State) : State :=
  let t := now s
  let x := cageOf s c
  if mA ≥ (cageParOf s c).limit then
    bump .cgLimit c (cageTo c .limit (modCage c (fun x => { x with timer := some t, limitAt := t, pgFrom := none }) s))
  else if x.pg then s
  else match x.pgFrom with
    | none => modCage c (fun x => { x with pgFrom := some t }) s
    | some f => if t ≥ f + 1000000 then powerGood c s else s

/-- A sample in LIMIT (R702). -/
def sampleLimit (c mA : Nat) (s : State) : State :=
  let t := now s
  if mA ≥ (cageParOf s c).limit then s
  else
    let s := timerNear c (endLimit c s)
    cageTo c .on (modCage c (fun x => { x with timer := none, pgFrom := if x.pg then none else some t }) s)

/-- A sample tick of a cage's controller (R698, R700, R702, R707 to R709). -/
def cageSample (c mA mV : Nat) (s : State) : State :=
  if s.dev.st == .off || !s.pins.vaon || cageHeld s then s
  else
    let s := settlePresence c (modCage c (fun x => { x with mA := mA % 65536, mV := mV % 65536 }) s)
    let x := cageOf s c
    let s := match x.st with
      | .ramp => sampleRamp c mA mV s
      | .on => sampleOn c mA s
      | .limit => sampleLimit c mA s
      | .damaged => s
      | _ => if mV ≥ 800 && now s ≥ x.gateLowAt + 100000000 then cageDamaged c s else s
    if mV < 2900 && (cageOf s c).st != .ramp then modCage c (fun x => { x with pg := false, pgFrom := none }) s else s

/-- The fault timer expires (R701, R702). -/
def cageFaultTimer (c : Nat) (s : State) : State :=
  match (cageOf s c).timer with
  | none => s
  | some t =>
    if now s < t + faultTime s c || cageHeld s then s
    else match (cageOf s c).st with
      | .ramp => tripCage c 2 0x0F03 .degraded s
      | .limit => tripCage c 1 0x0F01 .degraded s
      | _ => s

/-- The hard comparator (R703): at 2.5 × the limit, whatever the clocks do. -/
def cageHardTrip (c mA : Nat) (s : State) : State :=
  if gateHigh s c && 2 * mA ≥ 5 * (cageParOf s c).limit then
    tripCage c 4 0x0F02 .degraded (modCage c (fun x => { x with mA := mA % 65536 }) s)
  else s

/-- A ramp is too slow (R701). -/
def cageRampTimeout (c : Nat) (s : State) : State :=
  let x := cageOf s c
  if x.st = .ramp && now s ≥ x.a0 + 66000000 / (cageParOf s c).dvdt + 1000000 && !cageHeld s then tripCage c 3 0x0F03 .degraded s else s

/-- A retry has not asserted power-good within 50 ms of its start (R705). -/
def cageAttemptWindow (c : Nat) (s : State) : State :=
  let x := cageOf s c
  if x.attempting && !x.pg && gateHigh s c && now s ≥ x.attemptAt + 50000000 && !cageHeld s then tripCage c 5 0x0F04 .notice s else s

/-- A retry falls due 5 s after the trip (R705, R717): with the module absent it is skipped. -/
def cageRetry (c : Nat) (s : State) : State :=
  let x := cageOf s c
  if x.st != .tripped || now s < x.lastTrip + 5000000000 || cageHeld s then s
  else if !(presentNow s c || (cfgOf s (2 * c)).ignorePresent) then gateLow c .off s
  else startRamp c true (bump .cgRetries c (modCage c (fun x => { x with attempts := x.attempts + 1 }) s))

/-- P*nnn*PRSNT_N reads a level (R85): a new level starts the debounce; the level that stands after 10 ms is taken. -/
def prsntChange (p : Nat) (level : Bool) (s : State) : State :=
  if s.dev.st == .off || !s.pins.vaon then modPort p (fun x => { x with present := presentNow s p, prsntHigh := level, prsntSince := if x.prsntHigh == level then x.prsntSince else now s }) s
  else
    let s := settlePresence p s
    if (portOf s p).prsntHigh == level then s else modPort p (fun x => { x with prsntHigh := level, prsntSince := now s }) s

/-- The parameters that a `cage.set` payload leaves: a numeric field that holds 0 keeps its value (R714). -/
def cageParFrom (p : Bytes) (o : CagePar) : CagePar :=
  { dvdt := orDefault (fieldAt p 2 1) o.dvdt, timer := orDefault (fieldAt p 3 1) o.timer, limit := orDefault (fieldAt p 4 2) o.limit, inrush := orDefault (fieldAt p 6 2) o.inrush, retries := orDefault (fieldAt p 8 1) o.retries, rs := orDefault (fieldAt p 9 1) o.rs }

/-- The checks of a `cage.set` payload (R696, R714). -/
def cageSetArgs (s : State) (p : Bytes) : List (Nat × Bool) :=
  let c := fieldAt p 0 1
  let n := cageParFrom p (cageParOf s c)
  let step := fun (off : Nat) => fieldAt p off 2 % 100 == 0
  [lenIs p 12, fld 0 (decide (c < 128)), fld 1 (decide (fieldAt p 1 1 < 4)), fld 2 (zeroOr (fieldAt p 2 1) 2 100), fld 3 (zeroOr (fieldAt p 3 1) 1 50), fld 4 (zeroOr (fieldAt p 4 2) 500 8000 && step 4 && (fieldAt p 4 2 == 0 || decide (n.limit * n.rs ≤ 600000))), fld 6 (zeroOr (fieldAt p 6 2) 200 8000 && step 6 && decide (n.inrush ≤ n.limit)), fld 9 (zeroOr (fieldAt p 9 1) 20 75 && decide (n.limit * n.rs ≤ 600000)), rsv p 10 2]

/-- The states in which `cage.set` acts (R699, R714, R717): a request that R699 gives no way out of the cage's state, or that the held gates of a lost SNS clock cannot follow, finds BAD_STATE (DESIGN CHOICE, assumption 137). -/
def cageSetState (s : State) (p : Bytes) : Bool :=
  let c := fieldAt p 0 1
  let x := cageOf s c
  let idle := x.st == .off || x.st == .latched || x.st == .damaged
  let rsOk := fieldAt p 9 1 == 0 || fieldAt p 9 1 == (cageParOf s c).rs || idle
  let actOk := match fieldAt p 1 1 with
    | 1 => x.st != .damaged
    | 2 => x.st != .latched && x.st != .damaged
    | 3 => x.st == .latched || (x.st == .damaged && decide (x.mV < 800))
    | _ => true
  rsOk && actOk && (fieldAt p 1 1 == 0 || !cageHeld s)

/-- `cage.set` (R696, R699, R710, R714, R717). -/
def specCageSet : CmdSpec :=
  { op := 0x0F01, who := fmBmc, args := cageSetArgs, state := fun s _ p => cageSetState s p, run := fun _ p s =>
      let c := fieldAt p 0 1
      let par := cageParFrom p (cageParOf s c)
      let s := { s with cages := { s.cages with pars := tset s.cages.pars c par } }
      match fieldAt p 1 1 with
      | 1 => ({}, if gateHigh s c then s else startRamp c false (modCage c (fun x => { x with attempts := 0 }) s))
      | 2 =>
        let s := if portEnabled s c then discardMasked (disablePort c s) else s
        ({}, gateLow c .off (modCage c (fun x => { x with attempts := 0, attempting := false }) s))
      | 3 => ({}, cageTo c .off (modCage c (fun x => { x with attempts := 0 }) s))
      | _ => ({}, s) }

/-- The code of a cage's state (R699). -/
def cageCode : CageMode → Nat
  | .off => 0 | .ramp => 1 | .on => 2 | .limit => 3 | .tripped => 4 | .latched => 5 | .damaged => 6

/-- An entry of `cage.status` (R715). -/
def cageBytes (s : State) (c : Nat) : Bytes :=
  let x := cageOf s c
  leBytes 1 c ++ leBytes 1 (cageCode x.st) ++ leBytes 1 (b2n x.pg + 2 * b2n x.timer.isSome + 4 * b2n (gateHigh s c) + 8 * b2n (presentNow s c)) ++ leBytes 1 x.cause
    ++ leBytes 2 x.mA ++ leBytes 2 x.mV ++ leBytes 8 (ftOf x.lastTrip) ++ leBytes 2 (min x.attempts 0xFFFF) ++ zeros 6

/-- `cage.status` (R715). -/
def specCageStatus : CmdSpec :=
  { op := 0x0F02, who := fmBmc, args := fun _ p => [lenIs p 4, fld 0 (decide (fieldAt p 0 1 < 128) || fieldAt p 0 1 == 0xFF), rsv p 1 3], reads := fun _ => true, run := fun _ p s =>
      let cs := if fieldAt p 0 1 = 0xFF then List.range 128 else [fieldAt p 0 1]
      ({ payload := cs.flatMap (cageBytes s) }, s) }

/-- CAGE_SET. -/
def execCageSet (q : Req) (p : Bytes) (s : State) : Host.Outcome State Fault Refusal := finishStep (runCmd specCageSet q p s)
/-- CAGE_STATUS. -/
def execCageStatus (q : Req) (p : Bytes) (s : State) : Host.Outcome State Fault Refusal := finishStep (runCmd specCageStatus q p s)
/-- CAGE_FAULT_TIMER (R701, R702). -/
def execCageFaultTimer (c : PortId) (s : State) : Host.Outcome State Fault Refusal := finishStep (cageFaultTimer c.val s)
/-- CAGE_HARD_TRIP (R703). -/
def execCageHardTrip (c : PortId) (mA : Nat) (s : State) : Host.Outcome State Fault Refusal := finishStep (cageHardTrip c.val mA s)
/-- CAGE_RAMP_TIMEOUT (R701). -/
def execCageRampTimeout (c : PortId) (s : State) : Host.Outcome State Fault Refusal := finishStep (cageRampTimeout c.val s)
/-- CAGE_ATTEMPT_WINDOW (R705). -/
def execCageAttemptWindow (c : PortId) (s : State) : Host.Outcome State Fault Refusal := finishStep (cageAttemptWindow c.val s)
/-- CAGE_RETRY (R705). -/
def execCageRetry (c : PortId) (s : State) : Host.Outcome State Fault Refusal := finishStep (cageRetry c.val s)
/-- PRSNT_N_CHANGE (R85, R710). -/
def execPrsntNChange (p : PortId) (level : Bool) (s : State) : Host.Outcome State Fault Refusal := finishStep (prsntChange p.val level s)

end Sys2Proof.Machine
end

