-- ==== Sys2Proof/Machine/Power.lean ====
section
/-! DEFINITION. Power domains, clocks, the core low-power modes, start quarantine and thermal sensors (R57, R367, R592, R599, R615 to R650, R743 to R745). -/

namespace Sys2Proof.Machine

/-- A power domain. -/
def domOf (s : State) (d : Nat) : DomSt := tget s.pwr.doms d
/-- A clock domain. -/
def clkOf (s : State) (c : Nat) : ClkSt := tget s.pwr.clks c
/-- Change a power domain. -/
def modDom (d : Nat) (g : DomSt → DomSt) (s : State) : State := { s with pwr := { s.pwr with doms := tmod s.pwr.doms d g } }
/-- Change a clock domain. -/
def modClk (c : Nat) (g : ClkSt → ClkSt) (s : State) : State := { s with pwr := { s.pwr with clks := tmod s.pwr.clks c g } }

/-- The states that a domain takes (R617). -/
def domStates (d : Nat) : List Pd :=
  if d < 128 then [.on, .deep, .off] else if d < 136 then [.on, .sleep, .off] else if d < 140 then [.on, .off]
  else if d < 144 then [.on, .deep, .off] else if d < 148 then [.on, .off] else if d < 152 then [.on, .sleep, .deep]
  else if d < 155 then [.on, .sleep] else if d = 155 then [.on, .off] else [.on]

/-- The bound of each power-up step S1 to S4, then of the exits from Sleep and Deep, in ns (R627). -/
def domBounds (d : Nat) : List Nat :=
  if d < 128 then [100000, 5000, 50000, 5000, 0, 40000]
  else if d < 136 then [300000, 100000, 400000, 10000, 1000, 0]
  else if d < 138 then [400000, 100000, 20000, 10000, 0, 0]
  else if d < 140 then [400000, 100000, 2000000, 10000, 0, 0]
  else if d < 144 then [400000, 100000, 500000, 10000, 0, 50000]
  else if d < 148 then [200000, 5000, 100000, 5000, 0, 0]
  else if d < 155 then [500000, 1000000, 1000000, 100000, 500, 20000]
  else [200000, 100000, 50000, 10000, 0, 0]

/-- The clock domain of a power domain (R615, R635). -/
def domClock (d : Nat) : Nat :=
  if d < 128 then 9 + d / 16 else if d < 136 then 9 + (d - 128) else if d < 138 then 17 + (d - 136) else if d < 140 then 19 + (d - 138)
  else if d < 144 then 21 + (d - 140) else if d < 148 then 19 + (d - 144) / 2 else if d < 152 then 3 else if d = 152 then 4
  else if d = 153 then 5 else if d = 154 then 6 else if d = 155 then 7 else 2

/-- The power domains that a clock domain feeds (R635). -/
def fedBy (c : Nat) : List Nat := (List.range 157).filter (fun d => domClock d == c)

/-- A clock domain has a mux (R635). -/
def hasMux (c : Nat) : Bool := !(c == 0 || c == 1 || c == 2 || c == 8)

/-- A domain's oscillator step locks a PLL; ports and Drey controllers only enable a branch (R625, R635). -/
def ownsPll (d : Nat) : Bool := !(d < 128) && !(144 ≤ d && d < 148)

/-- The code of a state (R647). -/
def pdCode : Pd → Nat
  | .off => 0 | .deep => 1 | .sleep => 2 | .on => 3

/-- The state that a code names. -/
def pdOf (n : Nat) : Pd := match n with
  | 0 => .off | 1 => .deep | 2 => .sleep | _ => .on

/-- A Sett pair's domains sleep (R616, R622). -/
def pairAsleep (s : State) (p : Nat) : Bool := (domOf s (148 + 2 * p)).st == .sleep || (domOf s (148 + 2 * p)).st == .deep

/-- The mode of the active pair that selects the clock enables (R620): 0 run, 1 sleep, 2 deep sleep. -/
def enableMode (s : State) : Nat :=
  match (domOf s (148 + 2 * s.hb.activePair.val)).st with
  | .sleep => 1 | .deep => 2 | _ => 0

/-- The clock enables of a domain: RUN, SLEEP and DEEP as bits 0 to 2 (R620). -/
def clockEnables (d : Nat) : Nat := if (148 ≤ d && d < 152) || d == 154 || d == 155 then 1 else 7

/-- A domain that is On has its clock gated by its enable (R620). -/
def domGated (s : State) (d : Nat) : Bool := (domOf s d).st == .on && !bitOf (clockEnables d) (enableMode s)

/-- PMU_DOM_STAT (R647): PD_AON always reads On. -/
def domStatWord (s : State) (d : Nat) : Nat :=
  if d = 156 then 3 + 2 ^ 8 * 15
  else
    let x := domOf s d
    let g := domGated s d
    (if g then 2 else pdCode x.st) + 4 * b2n x.target.isSome + 8 * pdCode (x.target.getD .off) + 32 * b2n x.queued.isSome + 64 * pdCode (x.queued.getD .off)
      + 256 * x.ready + 4096 * b2n x.masked + 8192 * b2n g

/-- Complete the commands that wait for a domain (R629 to R631): those in progress, or those queued. No completion is written in Hibernate, Off or Grave (R650). -/
def endDomainCmds (d : Nat) (q : Bool) (st : Status) (detail : Nat) (s : State) : State :=
  let mine := s.cmd.running.filter (fun r => r.waits.contains (.domain d q))
  let quiet := s.dev.st == .hibernate || s.dev.st == .off || s.dev.st == .grave
  mine.foldl (fun s r =>
    if quiet then modCmd (fun c => { c with running := c.running.erase r }) s
    else completeRunning (fun x => decide (x = r)) (fun r => { r with status := st, detail := detail, payload := if st = .ok then r.payload.take 4 ++ leBytes 4 ((ftCount s - r.accepted) / 65536000) else [] }) s) s

/-- The clock of a domain runs from its primary source (R636). -/
def clkUp (c : Nat) (s : State) : State := modClk c (fun x => { x with running := true, primary := hasMux c, switching := false }) s

/-- The clock of a domain that goes off returns to bypass and stops, when nothing else is fed by it (R636). -/
def clkDown (d : Nat) (s : State) : State :=
  let c := domClock d
  if (fedBy c).any (fun e => e != d && (domOf s e).st != .off) then s
  else modClk c (fun x => { x with running := false, primary := false, switching := false }) s

/-- What a domain that reached Off has lost (R616): a slice its flows and its set cache, a stack its lines, its directory store and its log records (DESIGN CHOICE, assumption 56, DEDUCED, assumption 57). -/
def offEffects (d : Nat) (s : State) : State :=
  if 138 ≤ d && d < 140 then
    (List.range 8).foldl (fun s j => let i := 8 * (d - 138) + j
      { s with slices := tset s.slices i { dir := (tget s.slices i).dir, lost := (tget s.slices i).lost } }) s
  else if 140 ≤ d && d < 144 then
    let k := d - 140
    let s := modDrey k (fun x => { x with ways := [], issued := [], cleaning := false }) s
    let s := (List.range 4).foldl (fun s j => modSl (4 * k + j) (fun x => { x with dir := [] }) s) s
    modLog (fun l => { l with ring0 := l.ring0.map (fun r => if r.seq % 33554432 / 16777216 == k then { r with damaged := true } else r) }) s
  else s

/-- A port's INT_N reaches the interrupt controller only while its domain is On (R633, R634). -/
def intGate (d : Nat) (s : State) : State :=
  if d < 128 then sicLevel (8 * d + 4) ((domOf s d).st == .on && (domOf s d).target.isNone && (portOf s d).intLow) s else s

/-- A transition of a domain starts (R618, R625, R626, R628): a domain that leaves On is masked first, a port domain's port disabled. -/
def startTransition (d : Nat) (tgt : Pd) (s : State) : State :=
  let t := now s
  let x := domOf s d
  let leaves := x.st == .on && tgt != .on
  let s := if leaves && d < 128 then disablePort d s else s
  let s := if leaves then discardMasked (modDom d (fun y => { y with masked := true }) s) else s
  let dwell := match x.offAt with
    | some o => x.st == .off && decide (t < o + 100000)
    | none => false
  let step := if x.st == .off then (if dwell then 0 else 1) else if tgt == .off then 14 else if tgt == .on then 5 else 6
  intGate d (modDom d (fun y => { y with target := some tgt, step := step, stepAt := t, began := t, dwell := dwell, lostClk := false }) s)

/-- A transition has reached a state (R630, R631): its commands complete, and the queued request follows. -/
def endTransition (d : Nat) (st : Pd) (s : State) : State :=
  let q := (domOf s d).queued
  let s := modDom d (fun x => { x with st := st, target := none, step := 0, queued := none, qWave := false, masked := st != .on, dwell := false }) s
  let s := endDomainCmds d false .ok 0 (bump .domTrans d (intGate d s))
  match q with
  | none => s
  | some t =>
    if t == st then endDomainCmds d true .ok 0 s
    else
      let s := modCmd (fun c => { c with running := c.running.map (fun r => { r with waits := r.waits.map (fun w => if w == .domain d true then .domain d false else w) }) }) s
      startTransition d t s

/-- A queued request is replaced (R630): the commands that wait for it complete with BUSY, Detail 1; a command's request that completed on acceptance is recorded in the Spoor only (R648, DESIGN CHOICE, assumption 136). -/
def replaceQueued (d : Nat) (s : State) : State :=
  let silent := !(domOf s d).qWave && !s.cmd.running.any (fun r => r.waits.contains (.domain d true))
  let s := endDomainCmds d true .busy 1 (bump .domRepl d s)
  let s := if silent then record { kind := 2, code := 0x0AFF, identity := 163, detail := 1, arg := d } s else s
  if (domOf s d).qWave && d < 128 then waveFailed d s else s

/-- How a request for a domain's state is taken (R630, R631). -/
inductive DomReply where
  | already | started | joined | queued
deriving DecidableEq, Repr

/-- Request a domain's state (R630 to R632): one queue for every source. -/
def requestDomain (d : Nat) (tgt : Pd) (wave : Bool) (s : State) : DomReply × State :=
  let x := domOf s d
  match x.target with
  | none => if x.st == tgt then (.already, s) else (.started, startTransition d tgt s)
  | some t =>
    if t == tgt && x.queued.isNone then (.joined, s)
    else
      let s := if x.queued.isSome then replaceQueued d s else s
      (.queued, modDom d (fun y => { y with queued := some tgt, qWave := wave }) s)

/-- The next step of a power-up or power-down starts. -/
def nextStep (d k ready : Nat) (s : State) : State :=
  let t := now s
  modDom d (fun x => { x with step := k, stepAt := t, ready := ready }) s

/-- A domain's ready signal asserts (R625, R626, R636, R639). -/
def domainReady (d : Nat) (s : State) : State :=
  let x := domOf s d
  let c := domClock d
  match x.target with
  | none => s
  | some t =>
    match x.step with
    | 1 =>
      if t == .deep then endTransition d .deep (modDom d (fun y => { y with ready := 1 }) s)
      else
        let s := if ownsPll d && hasMux c && !(clkOf s c).primary then modClk c (fun y => { y with switching := true }) s else s
        nextStep d 2 1 s
    | 2 => if x.lostClk then s else nextStep d 3 3 (if ownsPll d || !(clkOf s c).running then clkUp c s else s)
    | 3 => nextStep d 4 7 s
    | 4 =>
      let s := if ownsPll d then clkUp c s else s
      let s := modDom d (fun y => { y with ready := 15 }) s
      endTransition d (if t == .sleep then .sleep else .on) s
    | 5 => endTransition d .on (modDom d (fun y => { y with ready := 15 }) s)
    | 6 => endTransition d t (modDom d (fun y => { y with ready := if t == .deep then 1 else 15 }) s)
    | 14 => nextStep d 13 7 s
    | 13 => nextStep d 12 3 s
    | 12 => nextStep d 11 1 s
    | 11 =>
      let at_ := now s
      let s := modDom d (fun y => { y with ready := 0, offAt := some at_ }) s
      endTransition d .off (offEffects d (clkDown d (modDom d (fun y => { y with st := .off }) s)))
    | _ => s

/-- The Off dwell ends (R628). -/
def dwellEnd (d : Nat) (s : State) : State :=
  let x := domOf s d
  if x.target.isSome && x.dwell && decide (now s ≥ x.offAt.getD 0 + 100000) then nextStep d 1 0 (modDom d (fun y => { y with dwell := false }) s) else s

/-- A pair's domains have power (R624): in Sleep and Deep it counts as healthy. -/
def pairPowered (s : State) (p : Nat) : Bool := (domOf s (148 + 2 * p)).st != .off && (domOf s (149 + 2 * p)).st != .off

/-- A domain of the standby pair that its ready timeout switched off: the start goes on without it (R629). -/
def standbyDead (s : State) (d : Nat) : Bool :=
  decide (148 ≤ d) && decide (d < 152) && (d - 148) / 2 != s.hb.activePair.val && (domOf s d).st == .off && (domOf s d).target.isNone && (domOf s d).errs % 2 == 1

/-- The event of a ready timeout (R629, R752). -/
def timeoutEvent (d : Nat) (s : State) : State :=
  let say := fun (cls : EvClass) (s : State) => raise { code := 0x0A01, cls := cls, block := 163, arg := d } s
  let pair := (d - 148) / 2
  if d < 136 then say .severe s
  else if d < 148 || (152 ≤ d && d < 155) then graveCause 0x0A01 163 s
  else if d < 152 then (if pair = s.hb.activePair.val then graveCause 0x0A01 163 s else say .degraded { s with hb := { s.hb with standbyHealthy := false } })
  else say .notice s

/-- A ready signal is absent for twice its bound (R515, R618, R629): the domain returns to Off. -/
def readyTimeout (d : Nat) (s : State) : State :=
  let x := domOf s d
  let k := if x.step = 5 then (if x.st == .sleep then 5 else 6) else x.step
  if x.target.isNone || k = 0 || 6 < k || x.step = 6 || decide (now s < x.stepAt + 2 * (domBounds d).getD (k - 1) 0) then s
  else
    let t := now s
    let s := if d < 128 then disablePort d s else s
    let s := modDom d (fun y => { y with st := .off, target := none, step := 0, ready := 0, masked := true, errs := y.errs ||| 1, offAt := some t, dwell := false, lostClk := false }) s
    let s := timeoutEvent d (bump .domTimeout d (clkDown d s))
    let s := endDomainCmds d false .timeout 0 s
    let s := if d < 128 then waveFailed d s else if d < 136 then (List.range 16).foldl (fun s j => waveFailed (16 * (d - 128) + j) s) s else s
    match (domOf s d).queued with
    | none => s
    | some q =>
      let s := modDom d (fun y => { y with queued := none, qWave := false }) s
      if q == .off then endDomainCmds d true .ok 0 s
      else
        let s := modCmd (fun c => { c with running := c.running.map (fun r => { r with waits := r.waits.map (fun w => if w == .domain d true then .domain d false else w) }) }) s
        startTransition d q s

/-- What R617 and R619 require of a request by the fabric manager. -/
def domainState (s : State) (d : Nat) (tgt : Pd) : Bool :=
  let on := fun (e : Nat) => (domOf s e).st == .on && ((domOf s e).target.isNone || (domOf s e).target == some .on)
  let gone := fun (e : Nat) => (domOf s e).st == .off && (domOf s e).target.isNone && (domOf s e).queued.isNone
  let rises := tgt == .on || tgt == .sleep
  if d < 128 then !rises || on (128 + d / 16)
  else if d < 136 then tgt == .on || (List.range 16).all (fun j => gone (16 * (d - 128) + j))
  else if d < 138 then tgt == .on || s.dev.st == .test
  else if d < 140 then tgt == .on || (s.dev.st == .test && gone (144 + 2 * (d - 138)) && gone (145 + 2 * (d - 138)))
  else if d < 144 then tgt == .on || (s.dev.st == .test && gone (144 + (d - 140)))
  else if d < 148 then (if rises then on (140 + (d - 144)) && on (138 + (d - 144) / 2) else s.dev.st == .test)
  else true

/-- `power.domain_set` (R617 to R619, R630, R631, R648). -/
def specDomainSet : CmdSpec :=
  { op := 0x0A01, who := fun _ r p => isFm r && (decide (fieldAt p 0 2 < 148) || decide (157 ≤ fieldAt p 0 2)), deniedDetail := fun r p => if isFm r then fieldAt p 0 2 else 0, args := fun _ p => [lenIs p 4, fld 0 (decide (fieldAt p 0 2 < 157)), fld 2 (decide (fieldAt p 2 1 < 4) && (domStates (fieldAt p 0 2)).contains (pdOf (fieldAt p 2 1))), fld 3 (decide (fieldAt p 3 1 < 2))], state := fun s _ p => domainState s (fieldAt p 0 2) (pdOf (fieldAt p 2 1)), keeps := fun st => st == .timeout, run := fun _ p s =>
      let d := fieldAt p 0 2
      let k := fieldAt p 2 1
      let (r, s) := requestDomain d (pdOf k) false s
      let pay := leBytes 1 k ++ leBytes 1 (b2n (r = .queued)) ++ zeros 6
      let waits : List Wait := if bitOf (fieldAt p 3 1) 0 then [] else match r with
        | .already => []
        | .started | .joined => [.domain d false]
        | .queued => [.domain d true]
      ({ payload := pay, waits := waits }, s) }

/-- `power.domain_status` (R647, R648). -/
def specDomainStatus : CmdSpec :=
  { op := 0x0A02, who := fmBmc, args := fun _ p => [lenIs p 4, fld 0 (decide (fieldAt p 0 2 < 157) || fieldAt p 0 2 == 0xFFFF), rsv p 2 2], reads := fun _ => true, run := fun _ p s =>
      let ds := if fieldAt p 0 2 = 0xFFFF then List.range 157 else [fieldAt p 0 2]
      ({ payload := ds.flatMap (fun d => leBytes 2 d ++ leBytes 4 (domStatWord s d) ++ leBytes 1 (domOf s d).errs ++ [0]) }, s) }

/-- The frequency of a clock domain in kHz (R635). -/
def clkKHz (c : Nat) : Nat :=
  if c = 0 then 156250 else if c = 1 then 1000000 else if c = 2 then 25000 else if c = 3 then 2000000 else if c < 6 then 250000
  else if c = 6 then 800000 else if c = 7 then 100000 else if c = 8 then 50000 else if c < 17 then 1600000 else if c < 19 then 2000000
  else if c < 21 then 1800000 else 1600000

/-- The divided frequency is permitted on an output (R643). -/
def obsOk (c n out : Nat) : Bool := decide (clkKHz c ≤ (if out = 1 then 250000 else 50000) * 2 ^ n)

/-- The session that drives GPIO[15] (R650). -/
def gpioHolder (s : State) (pin : Nat) : Option Handle :=
  holderOf s (fun r => match r with
    | .gpio k => k == pin
    | _ => false)

/-- The observed clock stops (R644): the pin is driven low. -/
def observedStop (s : State) : State :=
  if s.pwr.obsOut = 0 || s.pwr.obsStopped then s
  else raise { code := 0x0A03, cls := .notice, block := 164, arg := s.pwr.obsClk } { s with pwr := { s.pwr with obsStopped := true } }

/-- `power.clkobs` (R524, R525, R643, R644, R650). -/
def specClkobs : CmdSpec :=
  { op := 0x0A03, who := fmOnly, args := fun _ p => [lenIs p 8, fld 4 (decide (fieldAt p 4 1 < 25)), fld 5 (fieldAt p 6 1 == 0 || (decide (1 ≤ fieldAt p 5 1) && decide (fieldAt p 5 1 ≤ 16) && obsOk (fieldAt p 4 1) (fieldAt p 5 1) (fieldAt p 6 1))), fld 6 (decide (fieldAt p 6 1 < 3)), rsv p 7 1], handles := fun p => [(handleAt p 0, [6], fieldAt p 6 1 != 0)], state := fun s _ p => handleAt p 0 == 0 || (tget s.ten.sessions (hIdx (handleAt p 0))).res == .clkobs, held := fun s _ p =>
      let mine := handleAt p 0 != 0
      if !mine && s.pwr.obsSession != 0 then some s.pwr.obsSession
      else if fieldAt p 6 1 = 2 then gpioHolder s 15
      else none, cap := fun s _ p => handleAt p 0 != 0 || (lowestFree s 6).isSome, run := fun x p s =>
      let h := handleAt p 0
      if fieldAt p 6 1 = 0 then ({ h1 := h }, endSession (hIdx h) s)
      else
        let (h, s) := if h = 0 then (let (o, s) := openSession x.q.route .clkobs 0 s; (o.getD 0, s)) else (h, s)
        let s := { s with pwr := { s.pwr with obsClk := fieldAt p 4 1, obsN := fieldAt p 5 1, obsOut := fieldAt p 6 1, obsStopped := false, obsSession := h } }
        ({ related := h, h1 := h }, if (clkOf s (fieldAt p 4 1)).running then s else observedStop s) }

/-- The pair that a target code names (R670, R671). -/
def pairOf (s : State) (code : Nat) : Nat :=
  match code with
  | 0 => 0 | 1 => 1 | 2 => s.hb.activePair.val | _ => 1 - s.hb.activePair.val

/-- An interrupt for a pair is pending or delivered (R622). -/
def pairPending (s : State) (p : Nat) : Bool :=
  (if p = 0 then s.sic.pair0 else s.sic.pair1).committed.isSome
    || s.sic.srcs.any (fun e => e.2.pend && e.2.active.isNone && sicField e.2.word 4 1 == 1 && pairOf s (sicField e.2.word 6 2) == p)

/-- Both domains of a pair take a state (R622, DEDUCED, assumption 55); with every domain masked the Sett's requests are discarded (R223). -/
def pairTo (p : Nat) (st : Pd) (s : State) : State :=
  discardMasked ([148 + 2 * p, 149 + 2 * p].foldl (fun s d => bump .domTrans d (modDom d (fun x => { x with st := st, masked := st != .on }) s)) s)

/-- Wake a pair (R622, R624). -/
def wakePair (p : Nat) (s : State) : State := if pairAsleep s p then pairTo p .on s else s

/-- A pair writes its mode and executes WFI (R621 to R623): an interrupt that is pending returns at once; the active pair sleeps where it asks for deep sleep. -/
def coreWfi (p : Nat) (mode : BitVec 2) (s : State) : State :=
  if s.dev.st == .off || s.dev.st == .grave || (domOf s (148 + 2 * p)).st != .on then s
  else
    let s := { s with pwr := if p = 0 then { s.pwr with mode0 := mode } else { s.pwr with mode1 := mode } }
    if pairPending s p then s
    else if mode = 1 then bump .sleepE p (pairTo p .sleep s)
    else if mode = 2 then
      (if p = s.hb.activePair.val then bump .refDeep p (bump .sleepE p (pairTo p .sleep s)) else bump .deepE p (pairTo p .deep s))
    else s

/-- Bring every port of an I/O die down (R641): each trains again once its domain is On. -/
def diePortsDown (die : Nat) (s : State) : State :=
  (rangeFrom (32 * die) 32).foldl (fun s n => if linkStopped s n then s else if isCxl s n then cxlDown n s else denDown n s) s

/-- The domain watchdog reset (R640 steps C2 and C3): mask and reset, then the memory and logic steps, of every power domain that a clock feeds. The PE link goes down and retrains, so the fabric manager is lost (R488, R641). -/
def watchdogReset (c : Nat) (s : State) : State :=
  let t := now s
  let s := if 9 ≤ c && c < 17 then diePortsDown (c - 9) s else if c = 5 then originLost isFm s else s
  let ds := (fedBy c).filter (fun d => (domOf s d).st == .on || ((domOf s d).target.isSome && (domOf s d).step ≤ 5))
  let s := ds.foldl (fun s d => modDom d (fun x => { x with masked := true, errs := x.errs ||| 2, target := some (x.target.getD .on), step := 3, stepAt := t, ready := 3, lostClk := false, dwell := false }) s) s
  discardMasked (bump .clkWd c s)

/-- The outcome of a lost clock or a watchdog reset (R641, R752): the event, or Grave. -/
def clockOutcome (c : Nat) (s : State) : State :=
  let say := fun (cls : EvClass) (s : State) => raise { code := 0x0A02, cls := cls, block := 164, arg := c } s
  if c < 4 || 17 ≤ c then graveCause 0x0A02 164 s
  else if c < 7 then say .degraded s
  else if c = 7 then say .notice s
  else say .severe s

/-- A clock monitor finds a clock not running (R638, R641, R642, R650): in step S2 of a power-up the step times out. -/
def clockLoss (c : Nat) (s : State) : State :=
  let rising := (fedBy c).filter (fun d => (domOf s d).target.isSome && (domOf s d).step = 2)
  if s.dev.st == .off || s.dev.st == .grave || (!(clkOf s c).running && rising.isEmpty) then s
  else
    let was := (clkOf s c).running
    let s := rising.foldl (fun s d => modDom d (fun x => { x with lostClk := true }) s) s
    let s := bump .clkLoss c (modClk c (fun x => { x with running := false, loss := true }) s)
    if !was then s
    else
      let wd := (4 ≤ c && c < 7) || (9 ≤ c && c < 17)
      let s := if wd then modClk c (fun x => { x with running := true, primary := false, switching := false }) (watchdogReset c s) else s
      clockOutcome c s

/-- A clock switch has not completed within 64 AON cycles (R637, R639, R640). -/
def switchHung (c : Nat) (s : State) : State :=
  let since := (fedBy c).any (fun d => (domOf s d).step = 2 && decide (now s ≥ (domOf s d).stepAt + 2560))
  if !(clkOf s c).switching || !since || s.dev.st == .off then s
  else
    let s := bump .clkHung c (modClk c (fun x => { x with hung := true }) s)
    let s := modClk c (fun x => { x with running := true, primary := true, switching := false }) (watchdogReset c s)
    clockOutcome c s

/-- Lid estimates that have moved by more than 25 °C since link-up raise one event per logical port (R57). -/
def lidDrift (s : State) : State :=
  (List.range 256).foldl (fun s n =>
    let l := lpOf s n
    if linkLive s n && !l.driftRaised && decide ((lidOf s n - l.lidAtUp).natAbs > 250) then
      raise { code := 0x0203, cls := .notice, block := n / 2, arg := n } (modLp n (fun l => { l with driftRaised := true }) s)
    else s) s

/-- The thermal sensors are sampled (R57, R743, R744), in 0.1 °C. -/
def thermalSample (js lids hbms : List Int) (s : State) : State :=
  if s.dev.st == .off || cageHeld s then s
  else
    let all := js ++ hbms
    let hot := all.any (fun t => decide (t > 1100))
    let cool := all.all (fun t => decide (t < 1050))
    let trip := all.any (fun t => decide (t > 1200))
    let second := trip && s.therm.over120
    let say := hot && !s.therm.hotRaised
    let s := { s with therm := { s.therm with junctions := js, lids := lids, hbms := hbms, hotRaised := if cool then false else s.therm.hotRaised || hot, over120 := trip } }
    let s := { s with pwr := { s.pwr with hbmRefresh := (List.range 4).foldl (fun t k => tset t k (decide (hbms.getD k 0 > 850))) s.pwr.hbmRefresh } }
    let s := if say then raise { code := 0x01FF, cls := .degraded, block := 192, detail := 1 } s else s
    let s := lidDrift s
    if second then graveCause 0x0106 192 { s with therm := { s.therm with tripN := false } } else s

/-- POWER_DOMAIN_SET. -/
def execPowerDomainSet (q : Req) (p : Bytes) (s : State) : Host.Outcome State Fault Refusal := finishStep (runCmd specDomainSet q p s)
/-- POWER_DOMAIN_STATUS. -/
def execPowerDomainStatus (q : Req) (p : Bytes) (s : State) : Host.Outcome State Fault Refusal := finishStep (runCmd specDomainStatus q p s)
/-- POWER_CLKOBS. -/
def execPowerClkobs (q : Req) (p : Bytes) (s : State) : Host.Outcome State Fault Refusal := finishStep (runCmd specClkobs q p s)
/-- CORE_WFI (R622). -/
def execCoreWfi (pair : Fin 2) (mode : BitVec 2) (s : State) : Host.Outcome State Fault Refusal := finishStep (coreWfi pair.val mode s)
/-- CLOCK_LOSS (R638, R641). -/
def execClockLoss (c : Fin 25) (s : State) : Host.Outcome State Fault Refusal := finishStep (clockLoss c.val s)
/-- CLOCK_SWITCH_HUNG (R640). -/
def execClockSwitchHung (c : Fin 25) (s : State) : Host.Outcome State Fault Refusal := finishStep (switchHung c.val s)
/-- OBSERVED_CLOCK_STOP (R644). -/
def execObservedClockStop (s : State) : Host.Outcome State Fault Refusal := finishStep (observedStop s)
/-- THERMAL_SAMPLE (R57, R744). -/
def execThermalSample (junctions lids hbms : List Int) (s : State) : Host.Outcome State Fault Refusal := finishStep (thermalSample junctions lids hbms s)

end Sys2Proof.Machine
end

