-- ==== Sys2Proof/Machine/HoardCmds.lean ====
section
/-! DEFINITION. The remaining `hoard` commands, the answers of the journal devices, and the flash summary (R395, R416, R420 to R427, R435, R437, R520, R540, R595). -/

namespace Sys2Proof.Machine

/-- `hoard.configure` (R395, R398, R416, R420): on a grandmaster a new period waits for the first boundary at least 1 ms away; elsewhere it is only stored. -/
def specHoardConfigure : CmdSpec :=
  { op := 0x0801, who := fmOnly, args := fun _ p => [lenIs p 16, fld 0 (zeroOr (fieldAt p 0 4) 10 10000), fld 4 (zeroOr (fieldAt p 4 4) 500 20000), rsv p 12 4], run := fun _ p s =>
      let per := fieldAt p 0 4 * 1000
      let s := if per = 0 then s
        else if s.ft.gm then
          let c := gridAfter s.hoard.base (max s.hoard.period 1) (now s + 999999)
          modHoard (fun h => { h with ownPeriod := per, pendingPeriod := some (per, c) }) s
        else modHoard (fun h => { h with ownPeriod := per }) s
      let s := if fieldAt p 4 4 = 0 then s else { s with dur := { s.dur with tDev := fieldAt p 4 4 * 1000 } }
      let s := if fieldAt p 8 4 = 0 then s else { s with dur := { s.dur with holdup := fieldAt p 8 4 } }
      ({}, holdCheck s) }

/-- The completion payload of `hoard.status` (R520). -/
def hoardStatusBytes (s : State) : Bytes :=
  let h := s.hoard
  let flags := b2n h.lagging + 2 * b2n s.journal.degraded + 4 * b2n s.journal.absent + 8 * b2n s.dur.exceeded
  leBytes 8 h.durable ++ leBytes 8 h.epoch ++ leBytes 4 h.period ++ leBytes 4 flags ++ leBytes 8 h.lastF ++ leBytes 8 h.maxF
    ++ leBytes 4 (holdEstimate s) ++ leBytes 4 s.dur.holdup ++ leBytes 4 (s.dur.tDev / 1000) ++ leBytes 1 s.dur.dirtyCap ++ zeros 3
    ++ (List.range 4).flatMap (fun k => leBytes 8 (dirtyCount s k)) ++ leBytes 8 s.journal.nextSeq

/-- `hoard.status` (R435, R520). -/
def specHoardStatus : CmdSpec :=
  { op := 0x0802, who := fmBmc, args := fun _ p => [lenIs p 4, rsv p 0 4], reads := fun _ => true, run := fun _ _ s => ({ payload := hoardStatusBytes s }, s) }

/-- A journal DID is routed through a device-facing port of this device (R595). -/
def journalDid (s : State) (d : Nat) : Bool :=
  let e := routeEntry s d
  decide (d < 4096) && rKind e == 1 && isDevice s (rLp e)

/-- A journal range: 256 MiB in a persistent slice of that device that the fabric manager owns (R421). -/
def journalRange (s : State) (d a : Nat) : Bool :=
  s.ten.slices.any (fun e => e.2.live && e.2.persistent && e.2.owner == 0 && e.2.target == d && decide (e.2.base ≤ a) && decide (a + 2 ^ 28 ≤ e.2.base + e.2.len))

/-- `hoard.journal_set` (R421, R422, R595): the checkpoint and the superblock go to the new devices, and the old journal stays in use until both are durable (DEDUCED, assumption 39). -/
def specHoardJournalSet : CmdSpec :=
  { op := 0x0804, who := fmOnly, args := fun s p => [lenIs p 24, fld 0 (journalDid s (fieldAt p 0 2)), fld 2 (journalDid s (fieldAt p 2 2)), rsv p 4 4, fld 8 (journalRange s (fieldAt p 0 2) (fieldAt p 8 8)), fld 16 (journalRange s (fieldAt p 2 2) (fieldAt p 16 8))], run := fun _ p s =>
      if s.journal.moving.isSome then ({ status := .busy }, s)
      else
        let m := (fieldAt p 0 2, fieldAt p 2 2, fieldAt p 8 8, fieldAt p 16 8)
        ({ waits := [.journalSet s.journal.nextSeq] }, modJ (fun j => { j with moving := some m }) s) }

/-- The records that `hoard.journal_read` names: durable ones, in sequence order, from a sequence onward. -/
def journalRecs (s : State) (start n : Nat) : List JRec :=
  ((s.journal.recs.filter (fun r => decide (r.seq ≥ start) && jDurable s r.seq)).reverse).take n

/-- Whole entries within a room (R435). -/
def wholeEntries : Nat → List Bytes → Bytes
  | _, [] => []
  | room, b :: t => if b.length ≤ room then b ++ wholeEntries (room - b.length) t else []

/-- `hoard.journal_read` (R432, R435): whole records, each followed by its validity and seven reserved bytes, as many as fit. -/
def specHoardJournalRead : CmdSpec :=
  { op := 0x0805, who := fmOnly, args := fun _ p => [lenIs p 16, rsv p 12 4], reads := fun _ => true, run := fun x p s =>
      let entries := (journalRecs s (fieldAt p 0 8) (fieldAt p 8 4)).map (fun r => jBytes s r ++ leBytes 1 (b2n (!r.bad)) ++ zeros 7)
      ({ payload := wholeEntries (capacityOf x.q) entries }, s) }

/-- A running command waits for the switch to new journal devices. -/
def waitsJournal (r : Running) : Bool := r.waits.any (fun w => match w with | .journalSet _ => true | _ => false)

/-- The new journal devices take over (R422): the checkpoint is the new journal's first record, and the ledger keeps where they are. -/
def journalSwitch (m : Nat × Nat × Nat × Nat) (s : State) : State :=
  let (pd, md, pa, ma) := m
  let s := modJ (fun j => { j with set_ := true, primDid := pd, mirrDid := md, primAddr := pa, mirrAddr := ma, primOk := true, mirrOk := true, degraded := false, absent := false, recs := [], generation := j.generation + 1, moving := none, area := 1 }) s
  let s := checkpoint s
  let s := modJ (fun j => { j with recs := j.recs.map (fun r => { r with prim := true, mirr := true }) }) s
  let pe := routeEntry s pd
  let me := routeEntry s md
  ledgerWrite (fun b => { b with journalSet := true, primDid := pd, mirrDid := md, primAddr := pa, mirrAddr := ma, primRoute := pe, mirrRoute := me }) s

/-- The journal devices answer for the record of a sequence (R422, R426, R430). The number that follows the last record stands for the checkpoint that `hoard.journal_set` writes to new devices: a device that cannot write it ends the command with TIMEOUT, and the old journal stays. -/
def journalDurable (seq : Nat) (prim mirr : Bool) (s : State) : State :=
  match s.journal.moving with
  | some m =>
    if seq ≥ s.journal.nextSeq then
      if prim && mirr then journalSwitch m s
      else completeRunning waitsJournal (fun r => { r with status := .timeout, waits := [] }) (modJ (fun j => { j with moving := none }) s)
    else jAnswer seq prim mirr s
  | none => if jWaiting s seq then jAnswer seq prim mirr s else s

/-- The flash write of the oldest waiting item of the flash summary ends (R540). -/
def flashItem (s : State) : State :=
  let l := s.log
  let moveRec := fun (r : SpoorRec) => bump .flashW 0 (modLog (fun l => { l with waitRecs := l.waitRecs.dropLast, flashRecs := (r :: l.flashRecs).take 16384 }) s)
  let moveSeal := fun (x : Seal) => bump .flashW 0 (modLog (fun l => { l with waitSeals := l.waitSeals.dropLast, flashSeals := (x :: l.flashSeals).take 2048 }) s)
  match l.waitRecs.getLast?, l.waitSeals.getLast? with
  | some r, some x => if r.stamp ≤ x.stamp then moveRec r else moveSeal x
  | some r, none => moveRec r
  | none, some x => moveSeal x
  | none, none => s

/-- HOARD_CONFIGURE: in Hibernate a change of T_dev completes with BAD_STATE (R437). -/
def execHoardConfigure (q : Req) (p : Bytes) (s : State) : Host.Outcome State Fault Refusal :=
  finishStep (notInHibernate 0x0801 (fieldAt p 4 4 != 0 && isFm q.route) q (runCmd specHoardConfigure q p) s)
/-- HOARD_STATUS. -/
def execHoardStatus (q : Req) (p : Bytes) (s : State) : Host.Outcome State Fault Refusal := finishStep (runCmd specHoardStatus q p s)
/-- HOARD_JOURNAL_SET. -/
def execHoardJournalSet (q : Req) (p : Bytes) (s : State) : Host.Outcome State Fault Refusal := finishStep (runCmd specHoardJournalSet q p s)
/-- HOARD_JOURNAL_READ. -/
def execHoardJournalRead (q : Req) (p : Bytes) (s : State) : Host.Outcome State Fault Refusal := finishStep (runCmd specHoardJournalRead q p s)
/-- JOURNAL_DELTA_DURABLE. -/
def execJournalDeltaDurable (seq : Nat) (primary mirror : Bool) (s : State) : Host.Outcome State Fault Refusal := finishStep (journalDurable seq primary mirror s)
/-- FLASH_SUMMARY_WRITE: while the device is powered. -/
def execFlashSummaryWrite (s : State) : Host.Outcome State Fault Refusal := finishStep (if settRuns s then flashItem s else s)

end Sys2Proof.Machine
end

