-- ==== Sys2Proof/Machine/Hibernate.lean ====
section
/-! DEFINITION. Loss of power and reset: Hibernate, the drain record, Off, and what a cold and a warm reset leave (R7, R17 to R22, R285, R331, R413 to R420, R425 to R430, R437, R585, R586, R600, R650, R711, R725 to R732, R751). -/

namespace Sys2Proof.Machine

/-- The clocks that run from the always-on domain at reset (R634, R638, DEDUCED, assumption 51). -/
def aonClocks (s : State) : Tab ClkSt := [0, 1, 2, 8].foldl (fun t c => tset t c { tget t c with running := true, loss := false, hung := false }) s.pwr.clks

/-- What the supplies' loss leaves: the flash, the fuses, the journal devices, the pins and contacts, the Grave registers, the count, the stacks' hard facts and the ledger's port tables; every other field returns to its reset value (R7, R429, R540, R555, R585, R596, R656). -/
def powerLost (s : State) : State :=
  let keepLp := fun (e : Nat × LpSt) => ((e.1, { cfg := e.2.cfg, next := e.2.next }) : Nat × LpSt)
  let d : State := {}
  { d with pending := s.pending, free := s.free, outbox := s.outbox, ledger := s.ledger, fuses := s.fuses, grave := { s.grave with ignoredResets := 0 }, pins := s.pins, journal := { s.journal with moving := none, recs := s.journal.recs.filter (fun r => r.prim || r.mirr) }, log := { flashSeals := s.log.flashSeals, flashRecs := s.log.flashRecs }, sec := { parts := s.sec.parts, tables := s.sec.tables }, start := { records := s.start.records, train := s.start.train }, net := { ports := s.net.ports.map (fun e => (e.1, { e.2 with freeze := false, rstLow := true, lpmode := true, clkreqOut := false })), lps := s.net.lps.map keepLp }, ft := { acc := s.ft.acc }, io := { lastPps := s.io.lastPps, ppsOk := s.io.ppsOk, tenMOk := s.io.tenMOk, okSince := s.io.okSince }, hib := { pfailLow := s.hib.pfailLow, lowSince := s.hib.lowSince }, drey := s.drey.map (fun e => (e.1, { regions := e.2.regions, spares := e.2.spares, relocs := e.2.relocs - (e.2.moving.map (fun _ => 1)).getD 0, moveQueue := (e.2.moving.map (·.1)).toList ++ e.2.moveQueue })), therm := { s.therm with hotRaised := false, over120 := false }, pwr := { trstN := s.pwr.trstN, clks := (s.pwr.clks.filter (fun e => [0, 1, 2, 8].contains e.1)).map (fun e => (e.1, { e.2 with loss := false, hung := false })) }, cages := s.cages, dev := { st := s.dev.st } }

/-- Enter Off with the supplies or the reset line gone (R20, R711, R726, R751): no record is left, and every cage gate goes low. A Grave latch stays (DEDUCED, assumption 40). -/
def offAtOnce (s : State) : State :=
  let s := gatesLow s
  if s.dev.st == .grave || s.dev.st == .off then s
  else
    let s := powerLost s
    { s with dev := { st := .off } }

/-- Enter Off on a command or at a hibernate record's end (R17, R711, R751): the change is recorded first. -/
def enterOff (c : Cause) (s : State) : State := offAtOnce (changeState .off c s)

/-- The step records that stay open take Outcome 0x02 (R600). -/
def markAbandoned (s : State) : State :=
  modStart (fun x => { x with records := x.records.map (fun r => if r.start == x.number && r.outcome == 0xFF then { r with outcome := 2 } else r) }) s

/-- Flows on conflict lists complete with TARGET_UNAVAILABLE (R331). -/
def failConflicts (i : Nat) (s : State) : State :=
  let cs := (slOf s i).conflicts
  let s := modSl i (fun x => { x with conflicts := [] }) s
  cs.foldl (fun s c =>
    let t := trkOf s i c.2
    let s := if t.f.opcode == 0 then s else sliceSend i t.lp (respFrame t.f 0x86 stUnavail (if isWrite t.f then (epochNow s) else 0) []) s
    modSl i (fun x => { x with trks := tset x.trks c.2 default }) s) s

/-- A slice on entry to Hibernate (R331, R373, R414 step H1): conflict lists and flows that have not started complete with TARGET_UNAVAILABLE, and snoops due have at most 20 µs left. -/
def quietSlice (i : Nat) (s : State) : State :=
  let t := now s
  let s := failConflicts i s
  let s := modSl i (fun x => { x with trks := x.trks.map (fun e => (e.1, { e.2 with due := e.2.due.map (fun d => { d with deadline := min d.deadline (t + 20000) }) })), recalls := [] }) s
  pump i (wake i (fun u => u.phase == .waitFlush || u.phase == .waitCap || u.phase == .waitRegion) s)

/-- Refusal notices are discarded and counted at power failure (R495). -/
def dropRefusals (s : State) : State :=
  let gone := s.ten.open_.filter (fun n => n.why == .refused)
  let s := modTen (fun t => { t with open_ := t.open_.filter (fun n => n.why != .refused) }) s
  gone.foldl (fun s n => bumpC .ntcDiscarded (hIdx n.binding) 0 (max 1 n.count) {} s) s

/-- Held requests leave at once when the shapers are suspended (R285, R288). -/
def releaseHolds (s : State) : State :=
  let hs := s.tm.held.flatMap (·.2)
  hs.foldl (fun s h => passIngress h.lp h.f h.arrived h.orig s) (modTm (fun t => { t with held := [] }) s)

/-- A relocation in progress stops and waits for the next Boot (R373). -/
def stopMove (x : DreySt) : DreySt := { x with moving := none, relocs := x.relocs - (x.moving.map (fun _ => 1)).getD 0, moveQueue := (x.moving.map (·.1)).toList ++ x.moveQueue }

/-- A domain's queued request is discarded (R650). -/
def noQueue (x : DomSt) : DomSt := { x with queued := none, qWave := false }

/-- Step H1 (R22, R285, R387, R414, R416, R437, R583, R650, R694): the device is in Hibernate, takes no new request, suspends shapers and gates, and abandons what does not go on. -/
def hibernateH1 (s : State) : State :=
  let t := now s
  let drained := s.dev.st == .drain
  let hold := decide (s.ft.mode = .holdover)
  let d := s.hoard.durable
  let s := changeState .hibernate { identity := 163, trigger := 2 } s
  let s := { s with hib := { s.hib with step := 2, t0 := t, dAt0 := d, lines := 0, lost := 0, outcomes := [], failed := [], allFlushed := false, exceeded := s.dur.exceeded, holdover := hold, fromDrain := drained }, dev := { s.dev with drainStep := 0 }, coh := { s.coh with snoopTimeout := 20000, flushHold := false }, sec := { s.sec with updating := false, paused := false, takeover := 0 }, hb := { s.hb with handover := false, stallAt := none, stopAt := none }, start := { s.start with warmAt := none, offAt := none } }
  let s := modJ (fun j => { j with moving := none }) s
  let s := { s with drey := s.drey.map (fun (e : Nat × DreySt) => (e.1, stopMove e.2)) }
  let s := { s with pwr := { s.pwr with doms := s.pwr.doms.map (fun (e : Nat × DomSt) => (e.1, noQueue e.2)) } }
  let s := modCmd (fun c => { c with running := c.running.filter (fun r => !r.waits.any (fun w => match w with | .domain _ q => q | _ => false)) }) s
  let s := dropRefusals (releaseHolds (modTm (fun x => { x with suspended := true }) s))
  (List.range 16).foldl (fun s i => quietSlice i s) s

/-- PFAIL_N has been low for 2 µs, or VIN12 below its power-fail threshold (R17, R22, R413, R414, R437, R728): a boundary on that tick is taken first. -/
def powerFail (s : State) : State :=
  match s.dev.st with
  | .recovery | .service | .drain => hibernateH1 (if fwRuns s then epochBoundary s else s)
  | .boot | .test =>
    let t := now s
    let from_ := s.dev.st
    modDev (fun d => { d with pfailOff := some (t, from_) }) (enterOff { identity := 163, trigger := 2 } (markAbandoned s))
  | _ => s

/-- A flow is in progress in some slice, or a target owes a requester its completion (R414 step H2). -/
def flowsLeft (s : State) : Bool :=
  let owes := fun (o : OutReq) => match o.asker with
    | .frame _ | .posted _ => true
    | _ => false
  (List.range 16).any (fun i => (slOf s i).trks.any (fun e => e.2.used)) || s.net.denOut.any (fun e => e.2.any owes) || s.net.cxl.any (fun e => e.2.out.any owes)

/-- Writes of requesters that are outstanding after H2 receive no completion (R414). -/
def dropAskers (s : State) : State :=
  let f := fun (o : OutReq) => if o.read then o else match o.asker with
    | .frame _ | .posted _ => { o with asker := .none_ }
    | _ => o
  modNet (fun x => { x with denOut := x.denOut.map (fun e => (e.1, e.2.map f)), cxl := x.cxl.map (fun e => (e.1, { e.2 with out := e.2.out.map f })) }) s

/-- Issue every dirty persistent line without clearing D (R414 step H3); answers how many, and how many are poisoned. -/
def writeKept (s : State) : Nat × Nat × State :=
  let ways := (List.range 4).flatMap (fun k => (dreyOf s k).ways.filter (fun e => e.2.v && e.2.d && e.2.p))
  (ways.length, (ways.filter (fun e => e.2.x)).length, ways.foldl (fun s e => issueWrite (dreyLine (e.1 / 16) e.2.tag) e.2.data e.2.x s) s)

/-- Step H3 (R414, R437): the final epoch closes, a flush in progress is absorbed, and the dirty persistent lines go out (DEDUCED, assumption 37). -/
def hibernateH3 (s : State) : State :=
  let e := s.hoard.epoch
  let t := now s
  let s := reserveEpochs (modHoard (fun h => { h with epoch := e + 1, start := t, flushing := none, waiting := [] }) (bump .epochs 0 (dropAskers s)))
  let (n, x, s) := writeKept s
  { s with hib := { s.hib with step := 3, eF := e, lines := n, lost := x } }

/-- The targets of the global flush: every Den target, and every device-facing CXL port with a persistent slice (R414 step H4). -/
def flushTargets (s : State) : List (Nat × Nat) :=
  ((List.range 256).flatMap (fun n =>
    if !isDevice s n then []
    else if isDen s n then (didsVia s n).map (fun d => (n, d))
    else (((didsVia s n).filter (fun d => s.ten.slices.any (fun e => e.2.live && e.2.persistent && e.2.target == d))).take 1).map (fun d => (n, d)))).take 256

/-- The outcomes of targets that cannot be flushed (R182, R428): a port that is down, and a port in viral, whose flush is skipped. -/
def deadOutcomes (s : State) (ts : List (Nat × Nat)) : List (Nat × FlushOutcome × Nat × Nat) :=
  ts.filterMap (fun t => if !lpUp s t.1 then some (t.1, .portDown, t.2, now s) else if isCxl s t.1 && (winOf s t.1).viral then some (t.1, .error, t.2, now s) else none)

/-- Step H4 starts (R414): BFLUSH to every Den target, and CXL Global Persistent Flush, phase 1 then phase 2, to every CXL target that can be flushed. -/
def hibernateH4 (s : State) : State :=
  let ts := flushTargets s
  let dead := deadOutcomes s ts
  let dens := (ts.filter (fun t => isDen s t.1 && !dead.any (fun d => d.1 == t.1))).map (·.2)
  let t := now s
  let s := { s with dur := { s.dur with targets := dens.dedup }, hib := { s.hib with step := 4, flushDone := t, outcomes := dead } }
  let cxls := (ts.filter (fun t => isCxl s t.1 && !dead.any (fun d => d.1 == t.1))).map (·.1)
  sendFlushes (cxls.foldl (fun s n => emit (.gpf n 2) (emit (.gpf n 1) s)) s)

/-- A Den target's BFLUSH has no outstanding request, crossbar request or queued frame left. -/
def flushAnswered (s : State) (n : Nat) : Bool :=
  !((tget s.net.denOut n).any (fun o => o.asker == .flush) || s.sw.reqs.any (fun x => x.src == .sett && isFlush x.f && x.dst == .lp n) || s.sw.queues.any (fun e => e.1 / 8 == n && e.2.frames.any (fun q => q.src == .sett && isFlush q.f)))

/-- The outcomes that a step of H4 adds: what the targets report, a Den target that has answered, and a timeout for the rest once T_dev has expired (R414, R416, R428). -/
def newOutcomes (s : State) (said : List (Nat × FlushOutcome)) : List (Nat × FlushOutcome × Nat × Nat) :=
  let late := decide (now s ≥ s.hib.flushDone + s.dur.tDev)
  ((flushTargets s).filter (fun t => !s.hib.outcomes.any (fun o => o.1 == t.1 && o.2.2.1 == t.2))).filterMap (fun t =>
    match said.find? (fun x => x.1 == t.1) with
    | some x => some (t.1, x.2, t.2, now s)
    | none =>
      match s.hib.failed.find? (fun x => x.1 == t.1) with
      | some x => some (t.1, x.2, t.2, now s)
      | none =>
      if isDen s t.1 && flushAnswered s t.1 then some (t.1, .flushed, t.2, now s)
      else if late then some (t.1, .timeout, t.2, now s) else none)

/-- Step H4 ends once every target has an outcome (R414, R417). -/
def hibernateH4End (said : List (Nat × FlushOutcome)) (s : State) : State :=
  let t := now s
  let outs := s.hib.outcomes ++ newOutcomes s said
  let s := { s with hib := { s.hib with outcomes := outs } }
  if outs.length < (flushTargets s).length then s
  else
    let all := outs.all (fun o => o.2.1 == .flushed)
    let s := { s with hib := { s.hib with step := 5, flushDone := t, allFlushed := all } }
    if all then modHoard (fun h => { h with durable := max h.durable s.hib.eF, durableAt := t }) s else s

/-- HIBERNATE_STEP_DONE: the step that waited has completed, and the next runs (R414). -/
def hibernateStep (said : List (Nat × FlushOutcome)) (s : State) : State :=
  if s.dev.st != .hibernate then s
  else match s.hib.step with
    | 2 => if !flowsLeft s || decide (now s ≥ s.hib.t0 + 20000) then hibernateH3 s else s
    | 3 => if writesLeft s then s else hibernateH4 s
    | 4 => hibernateH4End said s
    | _ => s

/-- The lost-write notices that a record takes: at most 1,024 (R428). -/
def recordNotices (s : State) : List Notice := s.dur.queued ++ s.ten.open_.filter (fun n => n.why != .refused)

/-- The body of a drain or hibernate record from what the state holds (R417, R428). -/
def bodyNow (s : State) (pfail eF final : Nat) (all missing : Bool) (targets : List (Nat × FlushOutcome × Nat × Nat)) : DrainBody :=
  let ns := recordNotices s
  { pfail := pfail, flushDone := s.hib.flushDone, finalEpoch := eF, finalDurable := final, dAt0 := s.hib.dAt0, lines := s.hib.lines, lost := s.hib.lost, checkpoint := s.journal.ckptSeq, dirtyCap := s.dur.dirtyCap, flags := b2n all + 2 * b2n s.hib.exceeded + 4 * b2n s.hib.holdover + 8 * b2n s.hib.fromDrain + 16 * b2n missing, targets := targets, notices := ns.take 1024, overflow := ns.length - 1024 }

/-- Mark a record as the devices hold it. -/
def markHeld (seq : Nat) (prim mirr : Bool) (s : State) : State :=
  modJ (fun j => { j with recs := j.recs.map (fun r => if r.seq ≤ seq then { r with prim := r.prim || prim, mirr := r.mirr || mirr } else r) }) s

/-- Steps H5 and H6 (R414, R417, R428, R437, R751): the record goes to the devices that can be written; with neither, none is written. Then Off. -/
def hibernateCommit (prim mirr : Bool) (s : State) : State :=
  if s.dev.st != .hibernate || s.hib.step ≠ 5 then s
  else
    let p := prim && s.journal.primOk && s.journal.set_
    let m := mirr && s.journal.mirrOk && s.journal.set_
    let s := if p || m then
        let final := if s.hib.allFlushed then s.hib.eF else s.hib.dAt0
        let (seq, s) := jWrite (.hibernate (bodyNow s s.hib.t0 s.hib.eF final s.hib.allFlushed (!(p && m)) s.hib.outcomes)) s
        markHeld seq p m s
      else s
    enterOff { identity := 224, trigger := 4 } s

/-- The write-back of Drain or of `device.reset` starts (R19, R586). -/
def startDrain (s : State) : State :=
  let d := s.hoard.durable
  let x := s.dur.exceeded
  { s with dev := { s.dev with drainStep := 1, drainDone := false }, hib := { s.hib with dAt0 := d, lines := 0, lost := 0, failed := [], exceeded := x, holdover := decide (s.ft.mode = .holdover), fromDrain := false } }

/-- The drain's write-back and flushes have all completed. -/
def drainReady (s : State) : Bool :=
  s.dev.drainStep != 0 && !writesLeft s && !persistentDirty s && s.dur.targets.isEmpty && (List.range 256).all (fun n => flushAnswered s n)

/-- A running command waits for the record of `device.reset`. -/
def waitsReset (r : Running) : Bool := r.waits.contains .resetDrain

/-- The drain record is written (R19, R425, R428, R586, R614): D takes the epoch in force, the record is durable, and what waited for it goes on: the drain, or the reset 1 ms later (DEDUCED, assumption 38). -/
def drainRecord (s : State) : State :=
  if !drainReady s || s.dev.st == .hibernate || !fwRuns s then s
  else
    let e := s.hoard.epoch
    let t := now s
    let s := reserveEpochs (modHoard (fun h => { h with durable := max h.durable e, durableAt := t, epoch := e + 1, start := t }) (postAll s))
    let s := { s with hib := { s.hib with flushDone := t } }
    let outs := ((flushTargets s).filter (fun x => isDen s x.1)).map (fun x => (x.1, (match s.hib.failed.find? (fun y => y.1 == x.1) with | some y => y.2 | none => if lpUp s x.1 then .flushed else .portDown : FlushOutcome), x.2, t))
    let one := !(s.journal.primOk && s.journal.mirrOk)
    let (seq, s) := jWrite (.drain (bodyNow s 0 e e (outs.all (fun o => o.2.1 == .flushed)) one outs)) s
    let s := if s.journal.set_ then markHeld seq s.journal.primOk s.journal.mirrOk s else s
    let resets := s.cmd.running.any waitsReset
    let s := { s with dev := { s.dev with drainStep := 0, drainDone := s.dev.st == .drain } }
    if resets then modStart (fun x => { x with resetRecord := true, warmAt := some (t + 1000000) }) s else s

/-- 1 ms after the completion of a transition to Off (R17, R520). -/
def offEntry (s : State) : State :=
  match s.start.offAt with
  | some t =>
    if decide (now s ≥ t) && s.dev.st == .drain then
      let (i, n, c, q) := s.start.byCmd
      enterOff { iface := i, identity := n, code := c, trigger := 1, arg := q } s
    else s
  | none => s

/-- PFAIL_N falls (R413). -/
def pfailFall (s : State) : State :=
  if s.hib.pfailLow then s else { s with hib := { s.hib with pfailLow := true, lowSince := now s } }

/-- PFAIL_N rises within 2 µs (R413): counted. -/
def pfailShort (s : State) : State :=
  if s.hib.pfailLow && decide (now s < s.hib.lowSince + 2000) then bump .shortPfail 0 { s with hib := { s.hib with pfailLow := false } } else s

/-- VIN12 falls below its undervoltage threshold (R728): every integrated regulator stops. -/
def undervoltage (s : State) : State :=
  if s.pins.vin12Low then s
  else
    let t := now s
    offAtOnce { s with pins := { s.pins with vin12Low := true, vinLowAt := t } }

/-- VIN12 has stayed below its undervoltage threshold for 1.0 s (R20, R656, R664, R729, R745). -/
def graveClear (s : State) : State :=
  if s.pins.vin12Low && decide (now s ≥ s.pins.vinLowAt + 1000000000) then
    let s := { s with grave := {}, pins := { s.pins with alertN := true }, therm := { s.therm with tripN := true } }
    if s.dev.st == .grave then
      let s := powerLost (gatesLow s)
      { s with dev := { st := .off } }
    else s
  else s

/-- A low pulse of PORST_N (R20, R726, R732): 10 µs or more is a cold reset. -/
def porstLow (ns : Nat) (s : State) : State :=
  if ns < 10000 then s else offAtOnce { s with pins := { s.pins with porstN := false } }

/-- VAON falls below 3.0 V (R7, R732): a cold reset. -/
def vaonLoss (s : State) : State := offAtOnce { s with pins := { s.pins with vaon := false } }

/-- DRAIN_RECORD_WRITTEN. -/
def execDrainRecordWritten (s : State) : Host.Outcome State Fault Refusal := finishStep (drainRecord s)
/-- OFF_ENTRY. -/
def execOffEntry (s : State) : Host.Outcome State Fault Refusal := finishStep (offEntry s)
/-- PORST_N_ASSERT. -/
def execPorstNAssert (lowNs : Nat) (s : State) : Host.Outcome State Fault Refusal := finishStep (porstLow lowNs s)
/-- PFAIL_N_FALL. -/
def execPfailNFall (s : State) : Host.Outcome State Fault Refusal := finishStep (pfailFall s)
/-- PFAIL_N_SHORT_PULSE. -/
def execPfailNShortPulse (s : State) : Host.Outcome State Fault Refusal := finishStep (pfailShort s)
/-- HIBERNATE. -/
def execHibernate (s : State) : Host.Outcome State Fault Refusal := finishStep (if pfailHeld s then powerFail s else s)
/-- HIBERNATE_STEP_DONE. -/
def execHibernateStepDone (targets : List (LpId × FlushOutcome)) (s : State) : Host.Outcome State Fault Refusal :=
  finishStep (hibernateStep (targets.map (fun t => (t.1.val, t.2))) s)
/-- HIBERNATE_RECORD_COMMITTED. -/
def execHibernateRecordCommitted (primary mirror : Bool) (s : State) : Host.Outcome State Fault Refusal := finishStep (hibernateCommit primary mirror s)
/-- PFAIL_N_RISE: a Hibernate in progress runs on (R22). -/
def execPfailNRise (s : State) : Host.Outcome State Fault Refusal := finishStep { s with hib := { s.hib with pfailLow := false } }
/-- VIN12_POWER_FAIL. -/
def execVin12PowerFail (s : State) : Host.Outcome State Fault Refusal := finishStep (powerFail s)
/-- VIN12_UNDERVOLTAGE. -/
def execVin12Undervoltage (s : State) : Host.Outcome State Fault Refusal := finishStep (undervoltage s)
/-- GRAVE_CLEAR. -/
def execGraveClear (s : State) : Host.Outcome State Fault Refusal := finishStep (graveClear s)
/-- VAON_LOSS. -/
def execVaonLoss (s : State) : Host.Outcome State Fault Refusal := finishStep (vaonLoss s)
/-- A Grave cause of a block: in Off only on the very tick at which PFAIL_N ended Boot or Test (R22: Grave). -/
def graveFault (code block : Nat) (s : State) : State :=
  if settRuns s then graveCause code block s
  else match s.dev.st, s.dev.pfailOff with
    | .off, some (t, st) => if t = now s then graveCause code block (modDev (fun d => { d with st := st, pfailOff := none }) s) else s
    | _, _ => s

/-- GRAVE_FAULT: a Grave cause of a block (R655). -/
def execGraveFault (code : BitVec 16) (block : Byte) (s : State) : Host.Outcome State Fault Refusal :=
  finishStep (graveFault code.toNat block.toNat s)

end Sys2Proof.Machine
end

