-- ==== Sys2Proof/Machine/DeviceCmds.lean ====
section
/-! DEFINITION. The `device` commands (R17 to R19, R22, R518, R520, R522, R524, R525, R582, R586, R613, R650, R751). -/

namespace Sys2Proof.Machine

/-- A field of the accepted board table (R49), or 0. -/
def tableField (s : State) (off n : Nat) : Nat := if s.sec.tableOk then fieldAt (tableBytes s) off n else 0

/-- The ordering code "DZ1024-EX" in 16 bytes (R522). -/
def orderingCode : Bytes := [0x44, 0x5A, 0x31, 0x30, 0x32, 0x34, 0x2D, 0x45, 0x58] ++ zeros 7

/-- The payload of `device.identify` (R522). -/
def identifyBytes (s : State) : Bytes :=
  orderingCode ++ [0xB1] ++ leBytes 1 s.dev.st.code ++ zeros 2 ++ leBytes 4 s.sec.fwActive.toNat ++ leBytes 4 s.sec.fwStandby.toNat
    ++ leBytes 1 s.sec.activeBank ++ leBytes 1 (b2n s.ten.mediated) ++ zeros 2 ++ leBytes 8 s.fuses.serial.toNat
    ++ leBytes 8 (tableField s 8 8) ++ leBytes 4 (tableField s 16 4) ++ leBytes 4 s.fuses.rollback ++ leBytes 8 s.log.nextSeq

/-- `device.identify` (R518, R522). -/
def specIdentify : CmdSpec :=
  { op := 0x0101, who := fun _ r _ => !isFw r, args := fun _ _ => [], reads := fun _ => true, run := fun _ _ s => ({ payload := identifyBytes s }, s) }

/-- The payload of `device.status` (R613). -/
def deviceStatusBytes (s : State) : Bytes :=
  let quar := (List.range 128).foldl (fun n p => if (tget s.start.quar p).quarantined then n + 2 ^ p else n) 0
  let ends := s.disc.readyEntries.foldl (fun n e => n + e.endpoints) 0
  leBytes 1 s.dev.st.code ++ leBytes 1 s.start.kind ++ leBytes 1 (b2n s.start.clean)
    ++ leBytes 1 (b2n s.disc.ready + 2 * b2n s.ft.gm + 4 * b2n s.start.copyBad + 8 * b2n s.disc.inRound)
    ++ leBytes 4 s.start.number ++ leBytes 8 (ftOf s.start.readyAt) ++ leBytes 2 s.start.alts ++ zeros 2 ++ leBytes 4 s.start.duration
    ++ leBytes 16 quar ++ leBytes 8 s.ft.gmSerial ++ leBytes 4 s.disc.readyRound ++ leBytes 2 s.disc.readyEntries.length ++ leBytes 2 ends ++ zeros 8

/-- `device.status` (R518, R613). -/
def specDeviceStatus : CmdSpec :=
  { op := 0x0102, who := fmBmc, args := fun _ _ => [], reads := fun _ => true, run := fun _ _ s => ({ payload := deviceStatusBytes s }, s) }

/-- A tenant binding is live. -/
def bindingLive (s : State) : Bool := s.ten.bindings.any (fun e => e.2.live)

/-- The transitions that `device.transition` names (R17, R582). -/
def transitionListed (s : State) (nw : Nat) : Bool :=
  match s.dev.st, nw with
  | .recovery, 4 | .drain, 4 => true
  | .test, 4 => s.sec.unlock.isNone
  | .service, 2 | .recovery, 2 => !bindingLive s
  | .service, 5 | .recovery, 5 => true
  | .drain, 0 => true
  | _, _ => false

/-- The cause of a change by a command (R751). -/
def cmdCause (op : Nat) (q : Req) (trigger : Nat) : Cause :=
  { iface := Route.iface q.route, identity := Route.identity q.route, code := op, trigger := trigger, arg := q.seq.toNat }

/-- The command that a later change of state names as its cause (R751). -/
def rememberCmd (op : Nat) (q : Req) (s : State) : State :=
  modStart (fun x => { x with byCmd := (Route.iface q.route, Route.identity q.route, op, q.seq.toNat) }) s

/-- A running command waits for the drain's end. -/
def waitsDrain (r : Running) : Bool := r.waits.contains .drain

/-- Enter Service (R17, R425): a drain that has not ended is given up, and its command ends with TIMEOUT. -/
def toService (q : Req) (s : State) : State :=
  let was := s.dev.st
  let s := changeState .service (cmdCause 0x0103 q 1) s
  let s := if was == .drain then completeRunning waitsDrain (fun r => { r with status := .timeout, waits := [], payload := [] }) { s with dev := { s.dev with drainDone := false, drainStep := if s.cmd.running.any waitsReset then s.dev.drainStep else 0 }, start := { s.start with offAt := none } } else s
  jMark s

/-- `device.transition` (R17, R19, R22, R520). -/
def specTransition : CmdSpec :=
  { op := 0x0103, who := fmOnly, args := fun _ p => [lenIs p 4, fld 0 (decide (fieldAt p 0 1 < 8)), rsv p 1 3], state := fun s _ p => transitionListed s (fieldAt p 0 1), run := fun x p s =>
      let nw := fieldAt p 0 1
      let pay := leBytes 1 s.dev.st.code ++ leBytes 1 nw ++ zeros 2
      if nw = 0 then
        if s.dev.drainDone then
          let t := now s
          ({ payload := pay }, modStart (fun y => { y with offAt := some (t + 1000000) }) (rememberCmd 0x0103 x.q s))
        else ({ status := .busy }, s)
      else if nw = 5 then
        if s.sec.updating then ({ status := .busy }, s)
        else ({ payload := pay, waits := [.drain] }, startDrain (changeState .drain (cmdCause 0x0103 x.q 1) s))
      else if nw = 2 then ({ payload := pay }, changeState .test (cmdCause 0x0103 x.q 1) s)
      else ({ payload := pay }, toService x.q s) }

/-- `device.reset` (R17, R520, R586, R614): a drain record that is being written comes first. -/
def specReset : CmdSpec :=
  { op := 0x0104, who := fmBmc, args := fun _ p => [lenIs p 4, rsv p 0 4], state := fun s _ _ => s.dev.st == .test || s.dev.st == .recovery || s.dev.st == .service || s.dev.st == .drain, run := fun x _ s =>
      let s := modStart (fun y => { y with resetRecord := false }) (rememberCmd 0x0104 x.q s)
      ({ waits := [.resetDrain] }, if s.dev.drainStep = 0 then startDrain s else s) }

/-- The session that holds a GPIO pin; pin 15 is also the alternate output of the observed clock (R524, R650). -/
def pinHolder (s : State) (pin : Nat) : Option Handle :=
  if pin = 15 && s.pwr.obsOut = 2 then some s.pwr.obsSession else gpioHolder s pin

/-- The level read at a pin (R520): a push-pull output's own level, a pulled-down open drain, or what the board drives, a free value. -/
def pinLevel (pin : Nat) (s : State) : Nat × State :=
  let m := tget s.pwr.gpioMode pin
  let l := tget s.pwr.gpioLevel pin
  if m = 2 then (l, s) else if m = 3 && l = 0 then (0, s)
  else
    let (n, s) := drawFree s
    (n % 2, s)

/-- `device.gpio` (R520, R524, R525). -/
def specGpio : CmdSpec :=
  { op := 0x0105, who := fmOnly, args := fun _ p => [lenIs p 8, fld 4 (decide (fieldAt p 4 1 < 16)), fld 5 (decide (fieldAt p 5 1 < 4)), fld 6 (decide (fieldAt p 6 1 < 2)), rsv p 7 1], handles := fun p => [(handleAt p 0, [6], fieldAt p 5 1 != 0)], state := fun s _ p => handleAt p 0 == 0 || (tget s.ten.sessions (hIdx (handleAt p 0))).res == .gpio (fieldAt p 4 1), held := fun s _ p => if handleAt p 0 == 0 then pinHolder s (fieldAt p 4 1) else none, cap := fun s _ p => handleAt p 0 != 0 || (lowestFree s 6).isSome, run := fun x p s =>
      let h := handleAt p 0
      let pin := fieldAt p 4 1
      let m := fieldAt p 5 1
      if m = 0 then
        let s := endSession (hIdx h) s
        let (v, s) := pinLevel pin s
        ({ payload := leBytes 1 v ++ zeros 3, h1 := h, related := h }, s)
      else
        let (h, s) := if h = 0 then (let (o, s) := openSession x.q.route (.gpio pin) 0 s; (o.getD 0, s)) else (h, s)
        let s := { s with pwr := { s.pwr with gpioMode := tset s.pwr.gpioMode pin m, gpioLevel := tset s.pwr.gpioLevel pin (fieldAt p 6 1) } }
        let (v, s) := pinLevel pin s
        ({ payload := leBytes 1 v ++ zeros 3, h1 := h, related := h }, s) }

/-- DEVICE_IDENTIFY. -/
def execDeviceIdentify (q : Req) (p : Bytes) (s : State) : Host.Outcome State Fault Refusal := finishStep (runCmd specIdentify q p s)
/-- DEVICE_STATUS. -/
def execDeviceStatus (q : Req) (p : Bytes) (s : State) : Host.Outcome State Fault Refusal := finishStep (runCmd specDeviceStatus q p s)
/-- DEVICE_TRANSITION. -/
def execDeviceTransition (q : Req) (p : Bytes) (s : State) : Host.Outcome State Fault Refusal := finishStep (runCmd specTransition q p s)
/-- DEVICE_RESET: requested in Hibernate it is ignored and counted (R22). -/
def execDeviceReset (q : Req) (p : Bytes) (s : State) : Host.Outcome State Fault Refusal :=
  finishStep (if s.dev.st == .hibernate then { s with grave := { s.grave with ignoredResets := s.grave.ignoredResets + 1 } } else runCmd specReset q p s)
/-- DEVICE_GPIO. -/
def execDeviceGpio (q : Req) (p : Bytes) (s : State) : Host.Outcome State Fault Refusal := finishStep (runCmd specGpio q p s)

end Sys2Proof.Machine
end

