-- ==== Sys2Proof/Machine/LogCmds.lean ====
section
/-! DEFINITION. The `log` commands (R518, R538 to R542, R654, R659, R660, R680, R692, R693). -/

namespace Sys2Proof.Machine

/-- Records of a ring, oldest first (R538, R540). -/
def ringRecs (s : State) (ring : Nat) : List SpoorRec :=
  (if ring = 0 then s.log.ring0 else if ring = 1 then s.log.ring1 else if ring = 2 then s.log.ring2 else s.log.flashRecs).reverse

/-- One step of a `log.read`: a record, or the sequence of one that is damaged or was never used. -/
inductive LogItem where
  | rec_ (r : SpoorRec)
  | gap (seq : Nat)

/-- The items of a ring from a sequence onward, in sequence order: sequences that no record takes are gaps of ring 0 (R541, R542). -/
def logItems (s : State) (ring start : Nat) : List LogItem :=
  let skipped := if ring = 0 then (s.log.skips.flatMap (fun e => rangeFrom e.1 (e.2 - e.1))).filter (fun q => decide (q ≥ start)) else []
  let recs := (ringRecs s ring).filter (fun r => decide (r.seq ≥ start))
  let items := recs.map (fun r => if r.damaged then .gap r.seq else .rec_ r)
  let low := match recs.head? with
    | some r => skipped.filter (fun q => decide (q < r.seq))
    | none => skipped
  low.map .gap ++ items

/-- The seal that covers a record of ring 0 (R537). -/
def sealOf (s : State) (seq : Nat) : Option Seal := s.log.seals.find? (fun x => x.lastSeq == seq / 256 * 256 + 255)

/-- The 8 KiB of a seal (R537). -/
def sealBytes (x : Seal) : Bytes :=
  let b := sealHead x ++ x.sig
  b ++ zeros (8192 - b.length)

/-- What a `log.read` has gathered so far. -/
structure LogOut where
  room : Nat := 0
  left : Nat := 0
  recs : List SpoorRec := []
  seals : List Seal := []
  gaps : List Nat := []

/-- Take items while they fit, with the seals that cover them (R542). -/
def takeItems (s : State) (seals : Bool) : List LogItem → LogOut → LogOut
  | [], o => o
  | .gap q :: t, o => if o.room < 8 then o else takeItems s seals t { o with room := o.room - 8, gaps := o.gaps ++ [q] }
  | .rec_ r :: t, o =>
    if o.left = 0 then o
    else
      let x := if seals then sealOf s r.seq else none
      let add := match x with
        | some x => if o.seals.contains x then [] else [x]
        | none => []
      let cost := 64 + 8192 * add.length
      if o.room < cost then o else takeItems s seals t { o with room := o.room - cost, left := o.left - 1, recs := o.recs ++ [r], seals := o.seals ++ add }

/-- The payload of `log.read` (R542). -/
def logBytes (o : LogOut) : Bytes :=
  leBytes 8 ((o.recs.head?.map (·.seq)).getD 0) ++ leBytes 4 o.recs.length ++ leBytes 2 o.seals.length ++ leBytes 2 o.gaps.length
    ++ o.recs.flatMap spoorBytes ++ o.seals.flatMap sealBytes ++ o.gaps.flatMap (leBytes 8)

/-- `log.read` (R518, R541, R542): PARTIAL when a damaged or unused sequence lies in the range. -/
def specLogRead : CmdSpec :=
  { op := 0x0B01, who := fun _ r p => let k := fieldAt p 0 1; (isFm r && k != 2) || (isBmc r && k != 1), args := fun _ p => [lenIs p 16, fld 0 (decide (fieldAt p 0 1 < 4)), fld 1 (decide (fieldAt p 1 1 < 2)), rsv p 2 2], reads := fun _ => true, run := fun x p s =>
      let start := if fieldAt p 8 8 = 2 ^ 64 - 1 then 0 else fieldAt p 8 8
      let items := logItems s (fieldAt p 0 1) start
      let items := if fieldAt p 8 8 = 2 ^ 64 - 1 then items.dropWhile (fun i => match i with | .gap q => !(ringRecs s (fieldAt p 0 1)).any (fun r => r.seq == q) | .rec_ _ => false) else items
      let n := fieldAt p 4 4
      let o := takeItems s (bitOf (fieldAt p 1 1) 0) items { room := capacityOf x.q - 16, left := if n = 0 then 2 ^ 32 else n }
      ({ status := if o.gaps.isEmpty then .ok else .partialDone, payload := logBytes o }, s) }

/-- The bytes of a first-error record (R659). -/
def firstErrBytes (b : Nat) (r : FirstErr) : Bytes :=
  leBytes 1 b ++ leBytes 1 (b2n r.valid + 2 * b2n r.overflow) ++ leBytes 2 r.count ++ leBytes 2 r.code ++ leBytes 1 r.masterKind ++ leBytes 1 r.access
    ++ leBytes 4 r.master ++ zeros 4 ++ leBytes 8 r.addr ++ leBytes 8 r.stamp ++ leBytes 8 r.last ++ zeros 8

/-- The summary of `log.status` (R692). -/
def logSummary (s : State) : Bytes :=
  leBytes 1 s.dev.st.code ++ zeros 3 ++ leBytes 4 s.log.notices ++ leBytes 4 s.log.degraded ++ leBytes 4 s.log.severe
    ++ leBytes 2 (s.errs.filter (fun e => e.2.valid)).length ++ zeros 2 ++ leBytes 8 (ftOf s.log.lastEvent) ++ leBytes 4 s.log.limited

/-- A reporting block (R651). -/
def isBlock (b : Nat) : Bool := decide (b < 194) || (decide (224 ≤ b) && decide (b < 256))

/-- Clear a block's first-error record, and lower its error line (R660): on the tick of a capture the clear is taken first (R661). -/
def clearErr (b : Nat) (s : State) : State :=
  if (tget s.errs b).valid && (tget s.errs b).stamp == ftCount s then s else sicLevel (8 * b) false (modErr b (fun _ => {}) s)

/-- `log.status` (R518, R534, R660, R661, R692): the record is returned as it was before its clear. -/
def specLogStatus : CmdSpec :=
  { op := 0x0B02, who := fmBmc, args := fun _ p => [lenIs p 4, fld 0 (fieldAt p 0 2 == 0xFFFF || isBlock (fieldAt p 0 2)), fld 2 (decide (fieldAt p 2 1 < 2)), rsv p 3 1], reads := fun p => !bitOf (fieldAt p 2 1) 0, run := fun _ p s =>
      let b := fieldAt p 0 2
      let pay := logSummary s ++ (if b = 0xFFFF then [] else firstErrBytes b (tget s.errs b))
      let s := if bitOf (fieldAt p 2 1) 0 && b != 0xFFFF then clearErr b s else s
      ({ payload := pay }, s) }

/-- The class that a code names (R652). -/
def classOf (n : Nat) : EvClass := if n = 0 then .notice else if n = 1 then .degraded else if n = 2 then .severe else .grave

/-- Set the forward field of a source's word (R670). -/
def setFwd (v : Nat) (c : SicSrc) : SicSrc :=
  { c with word := (c.word &&& ~~~(BitVec.ofNat 64 (63 * 2 ^ 40))) ||| BitVec.ofNat 64 (v * 2 ^ 40) }

/-- Forward a source to an MSI-X vector, or to none (R680, R693): each vector forwards at most one source. -/
def forwardTo (vec src : Nat) (s : State) : State :=
  let old := (s.sic.srcs.filter (fun e => sicField e.2.word 40 6 == vec)).map (·.1)
  let s := old.foldl (fun s k => modSrc k (setFwd 0) s) s
  if src = 0xFFFF then s else modSrc src (setFwd vec) s

/-- `log.subscribe` (R518, R539, R654, R680, R693). -/
def specSubscribe : CmdSpec :=
  { op := 0x0B03, who := fun _ r p =>
      let t := fieldAt p 1 1
      if fieldAt p 0 1 = 0 then (isFm r && t != 2) || (isBmc r && t != 1) else if fieldAt p 0 1 = 1 then isFm r else isFm r || isBmc r,
    args := fun _ p => [lenIs p 8, fld 0 (decide (fieldAt p 0 1 < 2)), fld 1 (if fieldAt p 0 1 = 0 then fieldAt p 1 1 == 1 || fieldAt p 1 1 == 2 else decide (4 ≤ fieldAt p 1 1) && decide (fieldAt p 1 1 < 64)), fld 2 (fieldAt p 0 1 == 1 || decide (fieldAt p 2 1 < 4)), rsv p 3 1, fld 4 (fieldAt p 0 1 == 0 || fieldAt p 4 2 == 0xFFFF || decide (fieldAt p 4 2 < 2048)), rsv p 6 2],
    run := fun _ p s =>
      let c := classOf (fieldAt p 2 1)
      if fieldAt p 0 1 = 1 then ({}, forwardTo (fieldAt p 1 1) (fieldAt p 4 2) s)
      else if fieldAt p 1 1 = 1 then ({}, modLog (fun l => { l with sub1 := c }) s)
      else ({}, modLog (fun l => { l with sub2 := c }) s) }

/-- LOG_READ. -/
def execLogRead (q : Req) (p : Bytes) (s : State) : Host.Outcome State Fault Refusal := finishStep (runCmd specLogRead q p s)
/-- LOG_STATUS. -/
def execLogStatus (q : Req) (p : Bytes) (s : State) : Host.Outcome State Fault Refusal := finishStep (runCmd specLogStatus q p s)
/-- LOG_SUBSCRIBE. -/
def execLogSubscribe (q : Req) (p : Bytes) (s : State) : Host.Outcome State Fault Refusal := finishStep (runCmd specSubscribe q p s)

end Sys2Proof.Machine
end

