-- ==== Sys2Proof/Machine/Counters.lean ====
section
/-! DEFINITION. The counters of each block in the order of R684, and the `counter` commands (R524, R525, R683 to R691). -/

namespace Sys2Proof.Machine

/-- A counter's place: its kind, unit and index. -/
abbrev CtrAt := Ctr × Nat × Nat

/-- Counters of kinds, in order, each expanded over its units. -/
def perUnit (ks : List Ctr) (us : List Nat) : List CtrAt := ks.flatMap (fun k => us.map (fun u => (k, u, 0)))

/-- Counters of kinds, in order, each expanded over its units and its indices. -/
def perIndex (ks : List Ctr) (us : List Nat) (is : List Nat) : List CtrAt := ks.flatMap (fun k => us.flatMap (fun u => is.map (fun i => (k, u, i))))

/-- The counters of an access gate (R494). -/
def gateCtrs (gs : List Nat) : List CtrAt := perUnit [.gChecks, .gRefused, .gSplit, .gFirst, .gRuleFail, .gDebug] gs

/-- The counters of a port: of its lanes, then of its logical ports (R71, R154, R176, R236, R287); last, those that the manual counts outside a table. -/
def portCtrs (p : Nat) : List CtrAt :=
  let ls := [2 * p, 2 * p + 1]
  let qs := List.range 8
  let cs := List.range 3
  perUnit [.hdrValid, .hdrInvalid, .lockLoss, .fecSym, .fecCw, .prbsBits, .prbsErrs] (rangeFrom (8 * p) 8)
    ++ perUnit [.flitsSent, .flitsRecv, .crcFailed, .condemned, .uncorrCw, .retx, .dups, .replayTo, .replayFull, .protoErr, .denRespTo, .linkDowns, .failovers, .failbacks, .denNear] ls
    ++ perUnit [.creditOver, .malformed, .unexpected, .mismatched, .cohViol, .decodeMiss, .cxlRespTo, .malTlp, .viral, .cxlDowns] ls
    ++ perIndex [.qFrames, .qBytes] ls qs ++ perIndex [.marks, .drops] ls cs
    ++ perUnit [.tailDrops, .revocations, .pins, .forcedSf, .hchkFail, .routeDisc, .truncSent, .truncRecv, .freezeExp, .maskedDisc] ls
    ++ perIndex [.qBlocked, .tgDeferred, .tgOverrun] ls qs ++ perUnit [.tgSwaps] ls
    ++ perUnit [.poison, .devLoadMod, .devLoadSev, .rateShort, .cxlNear, .swNear, .hostDisc, .mgDisc, .throttleDisc] ls

/-- The counters of an I/O die: its meters, its gates, its translation cache (R287, R494). -/
def dieCtrs (d : Nat) : List CtrAt :=
  perIndex [.mtrFrames, .mtrBytes] (rangeFrom (2048 * d) 2048) (List.range 3) ++ gateCtrs (rangeFrom (16 + 32 * d) 32) ++ perUnit [.xHits, .xMisses] [d]

/-- The counters of a slice (R330, R372, R494). -/
def sliceCtrs (i : Nat) : List CtrAt :=
  perUnit [.lookups, .conflicts, .trkFull] [i] ++ perIndex [.snoops] [i] (List.range 5) ++ perUnit [.notPresent, .stale, .upgOwn, .coarseConv, .victims] [i]
    ++ perIndex [.atomics] [i] [0, 1, 2, 14, 15] ++ perUnit [.cohViolS, .snoopTo, .snoopNear, .lostAns, .poisonReads, .entryFail] [i]
    ++ perUnit [.setHits, .setMisses, .emptySet, .merged] [i] ++ gateCtrs [i] ++ perUnit [.evictCoarse, .dirtyDisc, .heldDisc, .respDisc] [i]

/-- The counters of the tenancy firmware: binding shapers, bindings, the device (R287, R494). -/
def tenancyCtrs : List CtrAt :=
  let bs := List.range 65536
  perUnit [.shHeld, .shHeldTime, .shDec, .shNotApplied, .shForeign] bs ++ perUnit [.winMiss, .refusals, .ntcPosted, .ntcDropped, .ntcDiscarded] bs
    ++ perUnit [.leaseLapses, .ignCons, .disMsg, .pageMiss] [0]

/-- The statistics counters of a block in the order of R684 (DESIGN CHOICE, assumption 44). -/
def blockCtrs (b : Nat) : List CtrAt :=
  if b < 128 then portCtrs b
  else if b < 136 then dieCtrs (b - 128)
  else if b < 138 then []
  else if b < 154 then sliceCtrs (b - 138)
  else if b < 158 then perUnit [.dHits, .dMisses, .dFills, .dEvict, .dDirtyEvict, .cleanWb, .capFlows, .capTime, .bypass] [b - 154]
  else if b < 162 then perUnit [.corrected, .uncorrected, .rowsRepaired, .regionsRetired] [b - 158]
  else if b = 162 then perUnit [.ftSteps, .holdoverNs, .annLoss, .annNear] [0]
  else if b = 163 then perUnit [.domTrans, .domRepl, .domTimeout] (List.range 157)
  else if b = 164 then perUnit [.clkLoss, .clkHung, .clkWd] (List.range 25)
  else if b = 165 then perUnit [.hbNear] [0]
  else if b = 166 then perUnit [.secNear] [0]
  else if b = 168 then perUnit [.i3cDisc] [0]
  else if b = 169 then perIndex [.cmds] (List.range 3) (List.range 14) ++ perUnit [.rateRef] (List.range 3) ++ perUnit [.ignDoorbell] [0] ++ perUnit [.tenIgn] (List.range 4096) ++ perUnit [.spoorRecs, .sealsW, .flashW, .deadlineNear] [0]
  else if b = 170 || b = 172 then perUnit [.sleepE, .deepE, .refDeep] [(b - 170) / 2]
  else if 176 ≤ b && b < 192 then
    let cs := rangeFrom (8 * (b - 176)) 8
    perIndex [.cgTrips] cs [1, 2, 3, 4, 5] ++ perUnit [.cgLimit, .cgLimitTime, .cgRetries, .cgRetryOk, .cgRemoved, .cgNear] cs
  else if b = 225 then perUnit [.epochs, .lagEpochs, .epochWb, .flushFail, .jRecs, .jFail, .shortPfail] [0]
  else if b = 226 then tenancyCtrs
  else []

/-- A block of a Sett core: its slots count core events (R685). -/
def isCore (b : Nat) : Bool := decide (170 ≤ b) && decide (b < 174)

/-- A counter counts frames or frame bytes, so that a slot may filter it (R685). -/
def countsFrames (k : Ctr) : Bool := [Ctr.qFrames, .qBytes, .marks, .drops, .mtrFrames, .mtrBytes, .tgDeferred, .tgOverrun].contains k

/-- The counter that a slot's event names in a block. -/
def eventOf (b ev : Nat) : Option CtrAt := (blockCtrs b)[ev]?

/-- Entry k of a `counter.group_create` request, as its slot (R690). -/
def slotEntry (p : Bytes) (k : Nat) : PerfSlot :=
  let e := (p.drop (8 + 24 * k)).take 24
  let b := if fieldAt p 0 1 = 0 then fieldAt p 1 1 else fieldAt e 4 1
  let key := if isCore b then none else (eventOf b (fieldAt e 2 2)).map (fun c => ctrKey c.1 c.2.1 c.2.2)
  { port := if fieldAt p 0 1 = 0 then some (fieldAt p 1 1) else none, slot := fieldAt e 0 1, key := key, coreEvent := fieldAt e 2 2, filterKind := fieldAt e 5 1, filterValue := fieldAt e 8 4, period := fieldAt e 16 8 }

/-- Entry k of a `counter.group_create` request keeps its ranges (R685, R690). -/
def entryArgs (p : Bytes) (k : Nat) : List (Nat × Bool) :=
  let o := 8 + 24 * k
  let e := (p.drop o).take 24
  let scope := fieldAt p 0 1
  let b := if scope = 0 then fieldAt p 1 1 else fieldAt e 4 1
  let ev := fieldAt e 2 2
  let fk := fieldAt e 5 1
  let per := fieldAt e 16 8
  let frames := match eventOf b ev with
    | some c => countsFrames c.1 && !isCore b
    | none => false
  [fld o (decide (fieldAt e 0 1 < (if scope = 0 then 8 else 64)) && (List.range k).all (fun j => fieldAt p (8 + 24 * j) 1 != fieldAt e 0 1)),
   fld (o + 1) (decide (fieldAt e 1 1 < 2)), fld (o + 2) (if isCore b then decide (ev < 7) else (eventOf b ev).isSome), fld (o + 4) (if scope = 0 then fieldAt e 4 1 == 0 else isBlock (fieldAt e 4 1)),
   fld (o + 5) (fk == 0 || (decide (fk < 4) && frames)), rsv p (o + 6) 2, fld (o + 8) (fk == 1 || fk == 3 || (if fk = 2 then decide (fieldAt e 8 4 < 4) else fieldAt e 8 4 == 0)), rsv p (o + 12) 4, fld (o + 16) (if bitOf (fieldAt e 1 1) 0 then decide (1 ≤ per) && decide (per < 2 ^ 40) else per == 0)]

/-- Slots that a request asks for. -/
def slotCountOf (p : Bytes) : Nat := fieldAt p 2 1

/-- The checks of a `counter.group_create` request (R690). -/
def groupArgs (s : State) (p : Bytes) : List (Nat × Bool) :=
  let scope := fieldAt p 0 1
  let n := slotCountOf p
  let w := fieldAt p 4 4
  [lenIs p (8 + 24 * n), fld 0 (decide (scope < 3)), fld 1 (if scope = 0 then decide (fieldAt p 1 1 < 128) else if scope = 1 then fieldAt p 1 1 == 0 else lpExists s (fieldAt p 1 1)), fld 2 (if scope = 0 then decide (1 ≤ n) && decide (n ≤ 8) else if scope = 1 then decide (1 ≤ n) && decide (n ≤ 64) else n == 0), rsv p 3 1, fld 4 (if scope = 2 then decide (1000 ≤ w) else w == 0)]
    ++ (List.range n).flatMap (entryArgs p)

/-- The group that holds a slot or monitor which a request asks for (R525). -/
def groupHeld (s : State) (p : Bytes) : Option Handle :=
  if fieldAt p 0 1 = 2 then
    let m := tget s.ctr.mons (fieldAt p 1 1)
    if m.window = 0 then none else some m.group
  else
    let want := (List.range (slotCountOf p)).map (slotEntry p)
    (s.ctr.slots.find? (fun x => want.any (fun y => y.port == x.port && y.slot == x.slot))).map (·.group)

/-- The handles that the slot entries of `counter.group_create` hold (R690): a binding under filter kind 1, a tenant under kind 3. -/
def filterHandles (p : Bytes) : List (Handle × List Nat × Bool) :=
  (List.range (slotCountOf p)).filterMap (fun k =>
    let fk := fieldAt p (8 + 24 * k + 5) 1
    if fk = 1 then some (handleAt p (8 + 24 * k + 8), [1], false)
    else if fk = 3 then some (handleAt p (8 + 24 * k + 8), [8], false)
    else none)

/-- `counter.group_create` (R524, R525, R690). A monitor starts with the next whole window (R688). -/
def specGroupCreate : CmdSpec :=
  { op := 0x0C01, who := fmOnly, args := groupArgs, handles := filterHandles, state := fun s _ p => (filterHandles p).all (fun x => bindFree s x.1), held := fun s _ p => groupHeld s p, cap := fun s _ _ => (lowestFree s 6).isSome, run := fun x p s =>
      let (o, s) := openSession x.q.route .group 0 s
      let h := o.getD 0
      let scope := fieldAt p 0 1
      let u := fieldAt p 1 1
      let g : CtrGroup := { scope := scope, unit := u }
      let s := modGroup (hIdx h) (fun _ => g) s
      if scope = 2 then
        let w := fieldAt p 4 4
        let t := now s
        ({ related := h, h1 := h }, modMon u (fun _ => { group := h, window := w, start := roundUp t w, lastStart := roundUp t w }) s)
      else
        let new := (List.range (slotCountOf p)).map (fun k => { slotEntry p k with group := h })
        ({ related := h, h1 := h }, { s with ctr := { s.ctr with slots := s.ctr.slots ++ new } }) }

/-- A handle names a counter group's session. -/
def isGroup (s : State) (h : Handle) : Bool := (tget s.ten.sessions (hIdx h)).res == .group

/-- `counter.group_destroy` (R524, R690, R694). -/
def specGroupDestroy : CmdSpec :=
  { op := 0x0C02, who := fmOnly, args := fun _ p => [lenIs p 4], handles := fun p => [(handleAt p 0, [6], false)], state := fun s _ p => isGroup s (handleAt p 0), run := fun _ p s => ({ h1 := handleAt p 0 }, endSession (hIdx (handleAt p 0)) s) }

/-- A counter's word: its count, and WRAP at bit 63 (R691). -/
def ctrWord (v : BitVec 41) : Nat := v.toNat % 2 ^ 40 + (if v.getLsbD 40 then 2 ^ 63 else 0)

/-- The word of a performance slot; a core event's count is the core's own, a free value (DEDUCED, assumption 43). -/
def slotWord (x : PerfSlot) (s : State) : Nat × State :=
  match x.key with
  | some _ => (x.value + (if x.wrap then 2 ^ 63 else 0), s)
  | none =>
    let (n, s) := drawFree s
    (n % 2 ^ 40 + (if bitOf n 40 then 2 ^ 63 else 0), s)

/-- The words of slots, in order. -/
def slotWords : List PerfSlot → State → Bytes × State
  | [], s => ([], s)
  | x :: t, s =>
    let (n, s) := slotWord x s
    let (b, s) := slotWords t s
    (leBytes 8 n ++ b, s)

/-- A sample's 32 bytes (R687). -/
def sampleBytes (x : Sample) : Bytes :=
  leBytes 8 x.stamp ++ leBytes 1 x.slot ++ leBytes 1 x.kind ++ leBytes 1 x.opcode ++ leBytes 1 x.classChan ++ leBytes 4 x.binding.toNat
    ++ leBytes 8 x.addr ++ leBytes 2 x.did ++ leBytes 2 x.sid ++ zeros 4

/-- The answer for a bandwidth group (R688, R691, R694). -/
def monBytes (s : State) (n : Nat) : Bytes :=
  let m := tget s.ctr.mons n
  leBytes 8 (ftCount s) ++ leBytes 8 (ftOf m.lastStart) ++ leBytes 4 m.window ++ leBytes 4 (b2n m.lastShort)
    ++ leBytes 8 m.lastIn ++ leBytes 8 m.lastOut ++ leBytes 8 m.peakIn ++ leBytes 8 m.peakOut

/-- Flags of `counter.read` on a group's slots (R691). -/
def flagSlots (h : Handle) (fl : Nat) (s : State) : State :=
  { s with ctr := { s.ctr with slots := s.ctr.slots.map (fun x => if x.group == h then { x with wrap := x.wrap && !bitOf fl 0, value := if bitOf fl 1 then 0 else x.value } else x) } }

/-- Clear the WRAP bits of a block's counters (R683, R691). -/
def clearWraps (cs : List CtrAt) (s : State) : State :=
  { s with ctr := { s.ctr with vals := cs.foldl (fun t c => let k := ctrKey c.1 c.2.1 c.2.2; tset t k (BitVec.ofNat 41 ((tget t k).toNat % 2 ^ 40))) s.ctr.vals } }

/-- `counter.read` (R518, R689, R691). -/
def specCounterRead : CmdSpec :=
  { op := 0x0C03, who := fmBmc, args := fun _ p => [lenIs p 8, fld 0 (fieldAt p 4 1 != 2 || fieldAt p 0 4 == 0), fld 4 (decide (fieldAt p 4 1 < 3)), fld 5 (if fieldAt p 4 1 = 2 then isBlock (fieldAt p 5 1) else true), fld 6 (decide (fieldAt p 6 1 < 4) && (fieldAt p 4 1 != 2 || !bitOf (fieldAt p 6 1) 1)), rsv p 7 1], handles := fun p => [(handleAt p 0, [6], fieldAt p 4 1 == 2)], state := fun s _ p => fieldAt p 4 1 == 2 || isGroup s (handleAt p 0), reads := fun p => fieldAt p 6 1 == 0, run := fun _ p s =>
      let h := handleAt p 0
      let fl := fieldAt p 6 1
      let g := tget s.ctr.groups (hIdx h)
      if fieldAt p 4 1 = 2 then
        let cs := blockCtrs (fieldAt p 5 1)
        let pay := leBytes 8 (ftCount s) ++ cs.flatMap (fun c => leBytes 8 (ctrWord (tget s.ctr.vals (ctrKey c.1 c.2.1 c.2.2))))
        ({ payload := pay }, if bitOf fl 0 then clearWraps cs s else s)
      else if fieldAt p 4 1 = 1 then
        ({ payload := leBytes 4 g.samples.length ++ leBytes 4 g.lost ++ g.samples.reverse.flatMap sampleBytes, h1 := h }, flagSlots h fl s)
      else if g.scope = 2 then
        let s := bwEnd g.unit s
        ({ payload := monBytes s g.unit, h1 := h }, s)
      else
        let (b, s) := slotWords (s.ctr.slots.filter (fun x => x.group == h)) s
        ({ payload := leBytes 8 (ftCount s) ++ b, h1 := h }, flagSlots h fl s) }

/-- COUNTER_GROUP_CREATE. -/
def execCounterGroupCreate (q : Req) (p : Bytes) (s : State) : Host.Outcome State Fault Refusal := finishStep (runCmd specGroupCreate q p s)
/-- COUNTER_GROUP_DESTROY. -/
def execCounterGroupDestroy (q : Req) (p : Bytes) (s : State) : Host.Outcome State Fault Refusal := finishStep (runCmd specGroupDestroy q p s)
/-- COUNTER_READ. -/
def execCounterRead (q : Req) (p : Bytes) (s : State) : Host.Outcome State Fault Refusal := finishStep (runCmd specCounterRead q p s)
/-- BANDWIDTH_WINDOW_END. -/
def execBandwidthWindowEnd (lp : LpId) (s : State) : Host.Outcome State Fault Refusal := finishStep (bwEnd lp.val s)

end Sys2Proof.Machine
end

