-- ==== Sys2Proof/Machine/CxlIn.lean ====
section
/-! DEFINITION. CXL messages as they arrive, the training of a CXL link, and the CXL.mem timeout (R40, R158 to R178, R182, R310). -/

namespace Sys2Proof.Machine

/-- The window of a host that holds an address range, on CXL in the context of a PASID (R160, R450, R451). -/
def memTarget (s : State) (n pasid a len : Nat) : Option (SliceRec × Nat) :=
  match resolve s n pasid a len with
  | .hit i fa => some (sliceOf s (bindOf s i).slice, fa)
  | _ => none

/-- The directory records a port as the owner of a line (R310). -/
def ownsLine (s : State) (n l : Nat) : Bool :=
  match dirKey s (homeSlice l) l with
  | some key => ownerOf (dirAt s (homeSlice l) key) == some n
  | none => false

/-- A frame of a CXL host's request, with the channel of its opcode. -/
def hostFrame (cls : BitVec 2) (op a tag len : Nat) (data : Bytes) (poison : Bool) : Frame :=
  { opcode := BitVec.ofNat 8 op, cls := cls, chan := BitVec.ofNat 3 (chanOf cls op), tag := BitVec.ofNat 16 tag, length := BitVec.ofNat 16 len, addr := BitVec.ofNat 64 a, data := data, status := if poison then stPoison else stOK }

/-- Complete a CXL.mem request without data at once, with its binding's DevLoad (R170). -/
def ndrNow (n tag : Nat) (b : Handle) (orig : Nat) (s : State) : State := cxlSend n (.ndr false tag (devLoadOf s b)) (copyGone orig s)

/-- The Brock message of an M2S Req (R310); what the table does not list has none. -/
def reqOpcode (s : State) (n l : Nat) (k : ReqKind) (m : Meta) : Option Nat :=
  match k, m with
  | .memRd, .s => some 0x01
  | .memRdData, .s => some 0x01
  | .memRd, .a => some 0x02
  | .memRd, .i => some 0x04
  | .memInv, .a => some 0x03
  | .memClnEvct, _ => some (if ownsLine s n l then 0x11 else 0x12)
  | _, _ => none

/-- M2S Req (R162, R172, R176 classes C2, C5 and C6, R310): all of them travel on REQ. -/
def memReq (n : Nat) (k : ReqKind) (m : Meta) (a tag orig : Nat) (s : State) : State :=
  let reads := k == .memRd || k == .memRdData
  let kind := if reads then 0 else 1
  let lost := fun (s : State) => hostRequest n 0 (hostFrame clsCM 0x01 a tag 0 [] false) 32 orig (noteHost n tag kind s)
  if k == .other then copyGone orig (violation n 2 s)
  else match resolve s n 0 a 64 with
    | .miss => lost (violation n 6 s)
    | .faulted _ => lost s
    | .hit i fa =>
      if !(sliceOf s (bindOf s i).slice).coherent then
        (if reads then hostRequest n 0 (hostFrame clsBM 0x01 (a / 64 * 64) tag 64 [] false) 32 orig (noteHost n tag 0 s)
         else ndrNow n tag (handleOf s 1 i) orig s)
      else match reqOpcode s n (lineOf fa) k m with
        | none => copyGone orig (violation n 5 s)
        | some op => hostRequest n 0 { hostFrame clsCM op (a / 64 * 64) tag 0 [] false with chan := 0 } 32 orig (noteHost n tag kind s)

/-- The runs of set bits of a byte mask: offset and length. -/
def maskRuns (mask : Nat) : List (Nat × Nat) :=
  (List.range 64).foldl (fun l i =>
    if !bitOf mask i then l
    else match l.getLast? with
      | some (o, k) => if o + k = i then l.dropLast ++ [(o, k + 1)] else l ++ [(i, 1)]
      | none => [(i, 1)]) []

/-- A SNP_SHARE to a port for a line is outstanding (R310). -/
def shareSnooped (s : State) (n l : Nat) : Bool :=
  match busyTrk s (homeSlice l) l with
  | some k => (trkOf s (homeSlice l) k).due.any (fun d => d.lp == n && d.op == 0x20)
  | none => (slOf s (homeSlice l)).px.any (fun x => lineOf (fAddr x.f) == l && x.due.contains n)

/-- The data of an owner that answers SNP_SHARE: coloured and charged like its other writes, never held (R239, R246, R264, R310). -/
def shareWrite (n tag : Nat) (i fa : Nat) (d : Line) (poison : Bool) (orig : Nat) (s : State) : State :=
  let b := handleOf s 1 i
  let f := { hostFrame clsCM 0x10 fa tag 64 (lineBytes d) poison with binding := b }
  let (_, s) := colourRequest s n f
  ndrNow n tag b orig (sliceShareWrite (lineOf fa) d poison (chargeResponse b (chargedLen f) s))

/-- M2S RwD (R162, R172, R176, R310): to a bulk slice each run of enabled bytes is a write of its own, the last one answered. -/
def memRwd (n : Nat) (partialWr : Bool) (m : Meta) (a tag : Nat) (mask : BitVec 64) (d : Line) (poison : Bool) (orig : Nat) (s : State) : State :=
  let base := a / 64 * 64
  let whole := hostFrame clsCM 0x13 base tag 64 (lineBytes d) poison
  let part := hostFrame clsCM 0x14 base tag 72 (leBytes 8 mask.toNat ++ lineBytes d) poison
  let go := fun (f : Frame) (s : State) => hostRequest n 0 f (frameLen f) orig (noteHost n tag 2 s)
  match resolve s n 0 a 64 with
  | .miss => go (if partialWr then part else whole) (violation n 6 s)
  | .faulted _ => go (if partialWr then part else whole) s
  | .hit i fa =>
    let l := lineOf fa
    if !(sliceOf s (bindOf s i).slice).coherent then
      let runs := if partialWr then maskRuns mask.toNat else [(0, 64)]
      let bytes := lineBytes d
      let put := fun (op : Nat) (x : Nat × Nat) => hostFrame clsBM op (base + x.1) tag x.2 ((bytes.drop x.1).take x.2) poison
      match runs.getLast? with
      | none => ndrNow n tag (handleOf s 1 i) orig s
      | some z =>
        let s := moreCopies orig (runs.length - 1) (noteHost n tag 2 s)
        let s := runs.dropLast.foldl (fun s x => hostRequest n 0 (put 0x03 x) (32 + x.2) orig s) s
        hostRequest n 0 (put 0x02 z) (32 + z.2) orig s
    else
      let own := ownsLine s n l
      if partialWr then go part s
      else match m with
        | .i => go (if own then { whole with opcode := 0x10 } else whole) s
        | .s =>
          if own && shareSnooped s n l then shareWrite n tag i fa d poison orig s
          else if own then copyGone orig (violation n 5 s) else go whole s
        | .a => if own then copyGone orig (violation n 5 s) else go whole s

/-- M2S BIRsp (R176 class C5, R310): the answer to an outstanding BISnp goes to the slice that asked; BIRspE is a violation. -/
def biRsp (n : Nat) (keepsS exclusive : Bool) (tag orig : Nat) (s : State) : State :=
  if exclusive || !(cxlOf s n).bisnp.any (fun e => e.1 == tag) then copyGone orig (violation n 5 s)
  else
    let s := modCxl n (fun c => { c with bisnp := c.bisnp.filter (fun e => e.1 != tag) }) s
    let i := tag / 65536 % 16
    let k := tag % 65536
    let l := if k < 2048 then (let t := trkOf s i k; if t.phase == .victim || t.phase == .recover then t.recLine else t.line)
      else ((slOf s i).px.find? (fun x => x.tag == k)).elim 0 (fun x => lineOf (fAddr x.f))
    let f := sealHdr { hostFrame clsCM (if keepsS then 0x91 else 0x90) (l * 64) k 0 [] false with chan := 1, sid := BitVec.ofNat 12 (didOf s n), did := selfDid s, binding := bindingFor s n (l * 64) }
    raiseX (.port n) (.slice i) f 32 orig (chargeResponse f.binding 32 s)

/-- BIConflict is answered with BIConflictAck, after every completion already sent (R310). -/
def biConflict (n a tag orig : Nat) (s : State) : State := cxlSend n (.biconflictAck a tag) (copyGone orig s)

/-- S2M BISnp of an HDM-DB device (R158, R162, R191): the line's home slice takes the line back from its holders. -/
def deviceSnoop (n : Nat) (inv : Bool) (a tag orig : Nat) (s : State) : State :=
  let f := sealHdr { hostFrame clsCM (if inv then 0x21 else 0x20) (a / 64 * 64) tag 0 [] false with chan := 2, sid := BitVec.ofNat 12 (didOf s n), did := selfDid s }
  raiseX (.port n) (.slice (homeSlice (lineOf a))) f 32 orig s

/-- A response on the tick of its request's timeout is taken and counts a near miss (R182). -/
def nearMiss (n : Nat) (o : OutReq) (s : State) : State := if now s == o.at_ + (cfgOf s n).respTimeout then bump .cxlNear n s else s

/-- The request that a device's response names, when its kind fits (R176 classes C3 and C4, R182): a read or a write, of CXL.mem or of CXL.io. -/
def matchOut (n tag : Nat) (read io : Bool) (s : State) : Option OutReq × State :=
  match (cxlOf s n).out.find? (fun o => o.tag == tag) with
  | none => (none, violation n 3 s)
  | some o =>
    if o.read != read || o.io != io then (none, violation n 4 s)
    else (some o, modCxl n (fun c => { c with out := c.out.erase o }) (nearMiss n o s))

/-- Count a device's DevLoad (R171). -/
def countLoad (n dl : Nat) (s : State) : State := if dl = 2 then bump .devLoadMod n s else if dl = 3 then bump .devLoadSev n s else s

/-- Another line of the same request is still outstanding. -/
def sibling (s : State) (n : Nat) (q : Frame) : Bool :=
  (cxlOf s n).out.any (fun o => match o.asker with | .frame g => g.tag == q.tag && g.sid == q.sid | _ => false)

/-- One line of a read arrived: it joins the data of its request's other lines (R162). -/
def joinRead (n : Nat) (q : Frame) (addr : Nat) (d : Bytes) (poison : Bool) (s : State) : Frame × State :=
  let a := fAddr q
  let lo := max a addr
  let hi := min (a + q.data.length) (addr + d.length)
  let q' := { q with data := q.data.take (lo - a) ++ (d.drop (lo - addr)).take (hi - lo) ++ q.data.drop (hi - a), status := if poison then stPoison else q.status }
  (q', modCxl n (fun c => { c with out := c.out.map (fun o => match o.asker with | .frame g => if g.tag == q.tag && g.sid == q.sid then { o with asker := .frame q' } else o | _ => o) }) s)

/-- S2M NDR of a device (R171, R176, R213, R400): a write is complete once every line of it is. -/
def ndrIn (n tag dl orig : Nat) (s : State) : State :=
  let (o, s) := matchOut n tag false false (copyGone orig (countLoad n dl s))
  match o with
  | none => s
  | some o => match o.asker with
    | .sliceWrite i l => memoryWritten i l s
    | .frame q => if sibling s n q then s else complete q stOK [] (epochNow s) s
    | _ => s

/-- S2M DRS of a device (R171, R176): the data of one line. -/
def drsIn (n tag : Nat) (nxm : Bool) (d : Line) (poison : Bool) (dl orig : Nat) (s : State) : State :=
  let s := if poison then bump .poison n s else s
  let (o, s) := matchOut n tag true false (copyGone orig (countLoad n dl s))
  match o with
  | none => s
  | some o => match o.asker with
    | .slice i k => if nxm then memoryFail i k stUnavail s else memoryReturn i k (.memory d poison) s
    | .frame q =>
      let (q', s) := joinRead n q o.addr (lineBytes d) poison s
      if sibling s n q then s
      else complete { q' with data := [] } q'.status q'.data (epochNow s) s
    | _ => s

/-- A CXL.io completion (R162, R176 classes C3 and C4, R182): one with data answers a read. -/
def ioCplIn (n tag : Nat) (ok : Bool) (data : Bytes) (orig : Nat) (s : State) : State :=
  let s := copyGone orig s
  let read := (((cxlOf s n).out.find? (fun o => o.tag == tag)).map (·.read)).getD true
  let (o, s) := matchOut n tag (read || (ok && !data.isEmpty)) true s
  match o with
  | none => s
  | some o => match o.asker with
    | .frame q => complete { q with data := [] } (if ok then stOK else stUnsup) data (epochNow s) s
    | _ => s

/-- The operand size of an AtomicOp (R160): a CAS carries two operands. -/
def operandSize (op : Nat) (len : Nat) : Nat := if op = 0x07 then len / 2 else len

/-- A CXL.io message of a partner ends at Dizal (R162): class IO, to the Sett. -/
def ioMessage (n a tag : Nat) (data : Bytes) (orig : Nat) (s : State) : State :=
  let f := sealHdr { hostFrame clsIO 0x04 a tag data.length data false with sid := BitVec.ofNat 12 (didOf s n), did := selfDid s }
  routeRequest (.port n) f (frameLen f) orig s

/-- A CXL host's access to a binding page (R18, R172, R462): a page without a binding reads as zeros and drops writes; in Drain it gets the target-unavailable response. -/
def ioPage (n pasid a tag : Nat) (f : Frame) (orig : Nat) (s : State) : State :=
  let s := copyGone orig s
  let reads := f.opcode == 0x01
  let off := a % 16384
  match pageBinding s n pasid (a / 16384) with
  | none =>
    if reads then cxlSend n (.ioCpl tag true (zeros f.length.toNat)) s
    else
      let s := bump .pageMiss 0 s
      if isPosted f then s else cxlSend n (.ioCpl tag true []) s
  | some i =>
    if !takesRequests s then
      (if isPosted f then addNotice (handleOf s 1 i) .unavailable 0 (epochNow s) s else cxlSend n (.ioCpl tag false []) s)
    else if reads then pageRead i (.cxl n tag) off (min f.length.toNat (16384 - off)) s
    else
      let s := pageWrite i off f.data (isPosted f) s
      if isPosted f then s else cxlSend n (.ioCpl tag true []) s

/-- CXL.io requests (R160 to R162, R172, R465): AtomicOps to the memory window, binding pages, memory, and messages. -/
def ioIn (n : Nat) (k : IoKind) (pasid : Nat) (a tag len : Nat) (data : Bytes) (orig : Nat) (s : State) : State :=
  let unsup := fun (s : State) => cxlSend n (.ioCpl tag false []) (copyGone orig s)
  let go := fun (f : Frame) (s : State) =>
    if isPageAccess s n { f with binding := BitVec.ofNat 32 pasid } then ioPage n pasid a tag f orig s
    else hostRequest n pasid f (frameLen f) orig (if isPosted f then s else noteHost n tag (hostKindOf f) s)
  if !isHost s n then
    (match k with
     | .writeP => copyGone orig (violation n 5 s)
     | .message => ioMessage n a tag data orig s
     | _ => unsup (violation n 5 s))
  else match k with
    | .atomic op =>
      let o := op.toNat
      let sz := operandSize o data.length
      if decide (sz > 0) && a % max 1 sz != 0 then cxlSend n .errFatal (copyGone orig (violation n 8 s))
      else if !(o == 5 || o == 6 || o == 7) || (o != 7 && sz == 16) || !([4, 8, 16].contains sz) || (memTarget s n pasid a sz).isNone then unsup s
      else hostRequest n pasid (hostFrame clsCM o a tag data.length data false) (32 + data.length) orig (noteHost n tag 5 s)
    | .message => ioMessage n a tag data orig s
    | .read => go (hostFrame clsIO 0x01 a tag len [] false) s
    | .writeNP => go (hostFrame clsIO 0x02 a tag data.length data false) s
    | .writeP => go (hostFrame clsIO 0x03 a tag data.length data false) s

/-- CXL.cache passes in class BM between a host-facing and a device-facing port of this Dizal (R158, R162, R172, R176, DESIGN CHOICE, assumption 25): at most 16 CacheIDs a host; a host's response to no outstanding CQID is class C3. In Drain, or to a host that is down, a D2H request is answered GO-Err and D2H data are discarded. -/
def cacheIn (n chan : Nat) (h2d : Bool) (cacheId cqid : Nat) (last : Bool) (data : Bytes) (orig : Nat) (s : State) : State :=
  let t := Config.cachePeer n cacheId
  let key := (cacheId, cqid)
  if isHost s n != h2d || isFabric s n || cacheId ≥ 16 then copyGone orig (violation n 2 s)
  else if h2d && chan % 3 ≠ 0 && !(cxlOf s n).cq.contains key then copyGone orig (violation n 3 s)
  else
    let s := if h2d && last then modCxl n (fun c => { c with cq := c.cq.erase key }) s else s
    let there := lpExists s t && isCxl s t && lpUp s t && isHost s t != isHost s n && !isFabric s t
    if there && (h2d || chan % 3 ≠ 0 || takesRequests s) then
      let f := cacheFrame s n t chan h2d cacheId cqid last data
      raiseX (.port n) (.lp t) f (frameLen f) orig s
    else if !h2d && chan % 3 = 0 then cxlSend n .goErr (copyGone orig s)
    else copyGone orig s

/-- A link error of a CXL port (R176 class C10): a replay or an uncorrectable failure counts in the window that declares link down. -/
def linkError (n : Nat) (uncorrectable : Bool) (s : State) : State :=
  let c := cfgOf s n
  let t := now s
  if uncorrectable then
    let l := t :: slide t c.window (winOf s n).cw
    let s := modWin n (fun w => { w with cw := l }) s
    if l.length ≥ c.cwLimit then fall n 0 s else s
  else
    let l := t :: slide t c.window (winOf s n).crc
    let s := modWin n (fun w => { w with crc := l }) s
    if l.length ≥ c.crcLimit then fall n 0 s else s

/-- Viral (R176 class C9, R182): held within the host's hierarchy; its threshold of 1 takes the port out of service, but Hibernate goes on over it and skips the port's flush. -/
def viralIn (n : Nat) (s : State) : State :=
  let s := bump .viral n (modWin n (fun w => { w with viral := true }) s)
  let s := windowEvent n 9 { code := 0x020A, cls := .severe, block := n / 2, detail := 9 } s
  if s.dev.st == .hibernate then s else fall n 25 s

/-- The frame bytes that a message stands for (R688). -/
def cxlBytes : CxlMsg → Nat
  | .req _ _ _ _ => 32
  | .rwd _ _ _ _ _ _ _ => 96
  | .birsp _ _ _ => 32
  | .bisnp _ _ _ => 32
  | .ndr _ _ _ => 32
  | .drs _ _ _ _ _ _ => 96
  | .io _ _ _ _ _ d => 32 + d.length
  | .ioCpl _ _ d => 32 + d.length
  | .cache _ _ _ _ _ d => 32 + d.length
  | .pbr f => frameLen f
  | _ => 0

/-- The link capabilities that a CXL port shows (R88): L1, L1.1 on the ports of R90, and their exit latencies, below 8 µs and below 32 µs. -/
def linkCaps (s : State) (n : Nat) : CxlMsg := .linkCaps true (hasClkreq s n) 8000 32000

/-- A partner's write of the link controls (R89, R90): a host enables ASPM L1 on its port; L1.1 is enabled on the ports that have it, whatever their role (DESIGN CHOICE, assumption 128). Dizal holds CLKREQ_N low while L1.1 is enabled and the link is not in L1. -/
def linkControl (n : Nat) (aspm l11 : Bool) (s : State) : State :=
  let on_ := l11 && hasClkreq s n
  let s := modLp n (fun l => { l with aspmEn := if isHost s n then aspm else l.aspmEn, l11En := on_, l11 := l.l11 && on_ }) s
  if hasClkreq s n then modPort (n / 2) (fun p => { p with clkreqOut := on_ && !(lpOf s n).l1 }) s else s

/-- PCI-PM L1 (R88): the link enters it when it is quiet. -/
def pmL1 (n : Nat) (s : State) : State := if !(lpOf s n).l1 && cxlQuiet s n then enterL1 n s else s

/-- A message of a flit that is taken (R159, R162, R163, R176, R310). -/
def cxlMessage (n : Nat) (m : CxlMsg) (s : State) : State :=
  let s := bwCount n true (cxlBytes m) s
  match m with
  | .pbr f => if isFabric s n then frameIn n f (frameLen f) s else violation n 2 s
  | m =>
    let (o, s) := takeCredits n m s
    match o with
    | none => s
    | some o =>
      let host := isHost s n
      let bad := copyGone o (violation n 2 s)
      match m with
      | .req k v a t => if host then memReq n k v a t o s else if isDevice s n then copyGone o (violation n 5 s) else bad
      | .rwd p v a t mask d ps => if host then memRwd n p v a t mask d ps o s else if isDevice s n then copyGone o (violation n 5 s) else bad
      | .birsp ks ex t => if host then biRsp n ks ex t o s else bad
      | .biconflict a t => if host then biConflict n a t o s else bad
      | .bisnp inv a t => if isDevice s n then deviceSnoop n inv a t o s else bad
      | .ndr _ t dl => if isDevice s n then ndrIn n t dl o s else bad
      | .drs _ nxm t d p dl => if isDevice s n then drsIn n t nxm d p dl o s else bad
      | .cache c h ci cq z d => cacheIn n c h ci cq z d o s
      | .io k ps a t len d => ioIn n k ps.toNat a t len d o s
      | .ioCpl t ok d => ioCplIn n t ok d o s
      | .unsupportedIo t => cxlSend n (.ioCpl t false []) (copyGone o s)
      | .malformedTlp => cxlSend n .errFatal (violation n 8 s)
      | .viral => viralIn n s
      | .creditReturn c k => cxlCredit n c k s
      | .linkCapsRead => cxlSend n (linkCaps s n) s
      | .linkControl aspm l11 => linkControl n aspm l11 s
      | .pmL1 => pmL1 n s
      | .linkCaps _ _ _ _ => s
      | .ack _ => s
      | .nak _ _ => s
      | .linkError _ => s
      | .pbr _ => s
      | .reserved => violation n 2 s
      | .biconflictAck _ _ => copyGone o (violation n 2 s)
      | .goErr => violation n 2 s
      | .errFatal => violation n 2 s

/-- A flit in order is acknowledged and its message taken (R166, R167). -/
def cxlAccept (n : Nat) (m : CxlMsg) (s : State) : State :=
  let s := cxlTake n s
  cxlMessage n m (emit (.cxl n (.ack (cxlOf s n).rxSeq)) s)

/-- The flits held out of order that are now in order are taken (R166). -/
def cxlHeld (n : Nat) : Nat → State → State
  | 0, s => s
  | fuel + 1, s =>
    let c := cxlOf s n
    match c.held.find? (fun e => e.1 == flitAfter c.mode c.rxSeq) with
    | some e => cxlHeld n fuel (cxlAccept n e.2 (modCxl n (fun c => { c with held := c.held.filter (fun x => x.1 != e.1) }) s))
    | none => s

/-- A flit by its number (R166 to R168): the next one is taken; a copy of one already taken is discarded and moves no credit; one that comes too early asks for what is missing, and is held where both ends use selective NAKs. -/
def cxlFlit (n seq : Nat) (m : CxlMsg) (s : State) : State :=
  let c := cxlOf s n
  let want := flitAfter c.mode c.rxSeq
  let mod_ := if c.mode == .flit68 then 256 else 1023
  let ahead := (seq + mod_ - want) % mod_
  if seq = want then cxlHeld n c.held.length (cxlAccept n m s)
  else if ahead ≥ mod_ / 2 then emit (.cxl n (.ack c.rxSeq)) s
  else if c.selNak && c.mode != .flit68 then
    emit (.cxl n (.nak want true)) (if c.held.any (fun e => e.1 == seq) then s else modCxl n (fun c => { c with held := c.held ++ [(seq, m)] }) s)
  else emit (.cxl n (.nak want false)) s

/-- A CXL flit arrives (R89, R166 to R168): acknowledgements and link errors have no number of their own. -/
def cxlIn (n seq : Nat) (m : CxlMsg) (s : State) : State :=
  if !isCxl s n || !lpUp s n then s
  else
    let s := modLp n (fun l => { l with lastFlit := now s }) (wakeDl n s)
    match m with
    | .linkError u => linkError n u s
    | .ack k => cxlAck n k s
    | .nak k only => cxlNak n k only s
    | m => cxlFlit n seq m s

/-- Advertise a CXL port's credits as its link comes up (R165). -/
def advertise (n : Nat) (s : State) : State :=
  cxlChannels.foldl (fun s c => if creditLimit s n c = 0 then s else cxlSend n (.creditReturn c (creditLimit s n c)) s) s

/-- A rate in GT/s. -/
def rateGts : Rate → Nat
  | .r2 => 2 | .r5 => 5 | .r8 => 8 | .r16 => 16 | .r32 => 32 | .r64 => 64

/-- The code of a rate in `port.status` (R40, R520): the codes of rates below 32 GT/s are the model's (DESIGN CHOICE, assumption 63). -/
def rateCode : Rate → Nat
  | .r64 => 2 | .r32 => 3 | .r16 => 4 | .r8 => 5 | .r5 => 6 | .r2 => 7

/-- The rates that a training equalises (R62): with the bypass that Dizal advertises only the highest, else every one up to it. -/
def equalised (rate : Rate) (t : CxlTrain) : List Rate :=
  if t.bypass then [rate].filter (fun r => decide (rateGts r ≥ 8))
  else [Rate.r8, .r16, .r32, .r64].filter (fun r => decide (rateGts r ≤ rateGts rate))

/-- A partner's equalisation request lies within what Dizal advertises, FS = 48 and LF = 12 (R59, PRESUMED, assumption 123). -/
def askFits : EqAsk → Bool
  | .preset k => decide (k ≤ 10)
  | .coeffs pre main post => pre + main + post == 48 && decide (pre ≤ 12) && decide (pre + post + 12 ≤ main)

/-- Dizal's transmitter applies a request that fits and rejects any other (R59). -/
def takeAsk (lane : Nat) (q : EqAsk) (s : State) : State :=
  let s := if !askFits q then s
    else modLane lane (fun x => match q with
      | .preset k => { x with txPreset := some k, txCoeffs := [] }
      | .coeffs a b c => { x with txPreset := none, txCoeffs := [a, b, c] }) s
  emit (.eqReply lane (askFits q)) s

/-- Equalisation of a CXL link (R59 to R62): what Dizal advertises, the board table's presets that it asks its partner for at 32 and 64 GT/s, and its partner's requests. -/
def equalise (n : Nat) (rate : Rate) (t : CxlTrain) (s : State) : State :=
  let s := emit (.eqAdvert n 48 12 true) s
  (equalised rate t).foldl (fun s r =>
    let s := if r == .r32 || r == .r64 then (lanesOf s n).foldl (fun s l =>
        let b := fieldAt (tableBytes s) (128 + 400 * l + 3) 1
        emit (.eqPreset l (rateGts r) (if r == .r64 then b % 16 else b / 16)) s) s else s
    (t.asks.filter (fun q => q.2.1 == r && decide (q.1 < (lanesOf s n).length))).foldl (fun s q => takeAsk (4 * n + q.1) q.2.2 s) s) s

/-- The lanes of a CXL link (R33, R35, R54, R61): the table's transmit polarity, the receive polarity found in training, and the coefficients, built-in at 8 and 16 GT/s. -/
def cxlLanes (n : Nat) (rate : Rate) (t : CxlTrain) (s : State) : State :=
  let s := loadCoeffs n s
  (lanesOf s n).foldl (fun s l => modLane l (fun x => { x with txInv := bitOf (laneFlags s l) 0, rxInv := t.inv.getLsbD (l - 4 * n), coeffs := if rateGts rate < 32 then Config.builtinCoeffs (rateGts rate) else x.coeffs }) s) s

/-- The flit mode of a link (R158): the latency-optimised mode is offered first; 68-byte flits run at 32 GT/s only. -/
def flitMode (rate : Rate) (t : CxlTrain) : FlitMode :=
  if t.latency then .latencyOptimised else if t.standard || rate == .r64 then .standard else .flit68

/-- A CXL link has trained (R32, R35, R40, R54, R59 to R62, R158, R165): at 32 GT/s or above it comes up with its coefficients frozen; below, and to a partner that trains only as a restricted CXL device, it is held out of service (DEDUCED, assumption 63). -/
def cxlTrained (n : Nat) (rate : Rate) (t : CxlTrain) (s : State) : State :=
  let l := lpOf s n
  if !isCxl s n || l.link != .training || l.idleUntil.isSome || !portOn s n || !s.sec.tableOk then s
  else
    let s := equalise n rate t (cxlLanes n rate t (takeNext n s))
    if rateGts rate < 32 || t.rcd then
      let s := raise { code := 0x0202, cls := .degraded, block := n / 2, arg := rateGts rate } (bump .rateShort n s)
      modLp n (fun l => { l with link := .outOfService, rate := rateCode rate }) s
    else
      let w4 : Option (Fin 2) := if l.cfg.width = 8 && t.lanes ≤ 4 then some 0 else none
      let s := modLp n (fun l => { l with link := .up, rate := rateCode rate, width4 := w4, sinceUpDown := false, wentDown := false, l1 := false, l11 := false, huntFrom := none, lastFlit := now s }) s
      let m := flitMode rate t
      let s := modCxl n (fun _ => { mode := m, selNak := t.selNak, txSeq := if m == .flit68 then 0 else 1, rxSeq := if m == .flit68 then 255 else 0, lds := min t.lds 16 }) s
      agentBack n (startUp n (advertise n s))

/-- The CXL.mem timeout of a request towards a device (R172, R173, R176 class C7, R177, R182): a read is answered with poison; a write as if the target were unavailable, with a lost-write notice. A response on the tick of the timeout is taken ahead of it. -/
def cxlTimeout (n tag : Nat) (s : State) : State :=
  if !isCxl s n || !isDevice s n then s
  else match (cxlOf s n).out.find? (fun o => o.tag == tag && decide (now s > o.at_ + (cfgOf s n).respTimeout)) with
    | none => s
    | some o =>
      let s := violation n 7 (modCxl n (fun c => { c with out := c.out.erase o }) s)
      let drop := fun (q : Frame) (s : State) => modCxl n (fun c => { c with out := c.out.filter (fun x => match x.asker with | .frame g => !(g.tag == q.tag && g.sid == q.sid) | _ => true) }) s
      match o.asker with
      | .slice i k =>
        let (d, s) := freeLine s
        memoryReturn i k (.memory d true) s
      | .frame q =>
        let s := drop q s
        if o.io then endFrame q stUnavail s
        else if o.read then
          let (v, s) := drawFree s
          complete { q with data := [] } stPoison (leBytes q.length.toNat v) (epochNow s) s
        else endFrame q stUnavail (if cxlSilent s q || isPosted q then s else addNotice q.binding .unavailable 0 (epochNow s) s)
      | a => endAsker n a stUnavail s

/-- CXL_MESSAGE_INGRESS (R162). -/
def execCxlMessageIngress (lp : LpId) (m : CxlArrival) (s : State) : Host.Outcome State Fault Refusal := finishStep (cxlIn lp.val m.seq m.msg s)

/-- CXL_LINK_TRAINED (R40). -/
def execCxlLinkTrained (lp : LpId) (rate : Rate) (t : CxlTrain) (s : State) : Host.Outcome State Fault Refusal := finishStep (cxlTrained lp.val rate t s)

/-- CXL_MEM_TIMEOUT (R177). -/
def execCxlMemTimeout (lp : LpId) (tag : BitVec 16) (s : State) : Host.Outcome State Fault Refusal := finishStep (cxlTimeout lp.val tag.toNat s)

end Sys2Proof.Machine
end

