-- ==== Sys2Proof/Machine/GateCmds.lean ====
section
/-! DEFINITION. Rule sets, their commits and swaps, gates and leases: the `gate` commands and their events (R468 to R489, R520, R523, R757). -/

namespace Sys2Proof.Machine

/-- A rule set by handle. -/
def ruleSetOf (s : State) (h : Handle) : RuleSet := tget s.ten.ruleSets (hIdx h)

/-- Change a rule set. -/
def modRules (h : Handle) (g : RuleSet → RuleSet) (s : State) : State := modTen (fun t => { t with ruleSets := tmod t.ruleSets (hIdx h) g }) s

/-- Change a gate. -/
def modGate (g : Nat) (f : GateSt → GateSt) (s : State) : State := modTen (fun t => { t with gates := tmod t.gates g f }) s

/-- The rule sets of a tenant. -/
def setsOfTenant (s : State) (t : Handle) : Nat := (s.ten.ruleSets.filter (fun e => e.2.live && e.2.owner == t)).length

/-- `gate.set_create` (R441, R479, R520). -/
def specSetCreate : CmdSpec :=
  { op := 0x0501, who := fun s r p => isFm r || (match routeTenant s r with
      | some t => handleAt p 0 == t
      | none => false),
    args := fun _ p => [lenIs p 4], handles := fun p => [(handleAt p 0, [8], true)], names := fun _ p => [handleAt p 0],
    cap := fun s r p => (lowestFree s 7).isSome && (isFm r || decide (setsOfTenant s (handleAt p 0) < (tenantOf s (handleAt p 0)).setQuota)), creates := some 7,
    run := fun x p s =>
      match newObject 7 x s with
      | (none, s) => ({ status := .noResource }, s)
      | (some h, s) =>
        let r : RuleSet := { live := true, owner := handleAt p 0 }
        let s := modRules h (fun _ => r) s
        withDelta 0x0501 h (.ruleSet (hIdx h) r (objOf s 7 (hIdx h))) [] true s }

/-- The gates that check a rule's pages (R480). -/
def gatesOfRule (s : State) (r : BitVec 128) : List Nat :=
  match ruSlice s r with
  | some (_, sl) => if sl.coherent then List.range 16 else (reachLps s sl.target).map (· + 16)
  | none => []

/-- The gates that a change of a rule set from one list to another affects (R480, R481). -/
def gatesOfLists (s : State) (old new : List (BitVec 128)) : List Nat := ((old ++ new).flatMap (gatesOfRule s)).dedup

/-- The swap tick of a commit (R481): the first multiple of 1,024 ns at least 2 µs from now. -/
def swapTick (s : State) : Nat := roundUp (now s + 2000) 1024

/-- A change of rules would need a fifth generation on an affected gate (R484). -/
def genFull (s : State) (gs : List Nat) : Bool := gs.any (fun g => decide ((tget s.ten.gates g).inFlight.length ≥ 4))

/-- A change of rules would place more than 4,096 rules on a gate (R438, R484). -/
def gateFull (s : State) (h : Handle) (new : List (BitVec 128)) (gs : List Nat) : Bool :=
  gs.any (fun g => decide (((gateRules s g).filter (fun x => x.1 != h)).length + (new.filter (ruleOnGate s g)).length > 4096))

/-- Start a change of a rule set's committed rules (R481, R482, R484, R757): it takes its swap tick and one generation on every affected gate. -/
def startSwap (h : Handle) (new : List (BitVec 128)) (withRecall destroy : Bool) (t : Nat) (s : State) : State :=
  let gs := gatesOfLists s (ruleSetOf s h).committed new
  let s := modRules h (fun r => { r with next := new, swapAt := some t, withRecall := withRecall, destroying := destroy, staged := if destroy then [] else r.staged, awaitDrain := true, recallLps := [] }) s
  gs.foldl (fun s g => modGate g (fun x => { x with inFlight := x.inFlight ++ [t] }) s) s

/-- `gate.set_destroy` (R757). -/
def specSetDestroy : CmdSpec :=
  { op := 0x0502, who := fun s r p => isFm r || ownObj s r (handleAt p 0), args := fun _ p => [lenIs p 4], handles := fun p => oneHandle p 7, names := fun _ p => [handleAt p 0], state := fun s _ p => !(ruleSetOf s (handleAt p 0)).destroying, run := fun _ p s =>
      let h := handleAt p 0
      let r := ruleSetOf s h
      if r.swapAt.isSome || genFull s (gatesOfLists s r.committed []) then ({ status := .busy, h1 := h }, s)
      else
        let t := swapTick s
        let s := startSwap h [] false true t s
        let (seq, s) := jDelta 0x0502 (.ruleSet (hIdx h) { r with live := false, committed := [], staged := [] } (objOf s 7 (hIdx h))) s
        ({ payload := leBytes 8 t, h1 := h, waits := [.delta seq, .gateDrain h] }, s) }

/-- The rules of a `gate.rule_write` payload (R523). -/
def ruleList (p : Bytes) : List (BitVec 128) :=
  (List.range (fieldAt p 4 2)).map (fun k => BitVec.ofNat 128 (fieldAt p (8 + 16 * k) 16))

/-- The fields of a rule by byte offset, with whether each is well formed (R468, R469, R516, R523): its pages lie within one slice, no reserved field is set, RCHK is right. -/
def ruleFields (s : State) (r : BitVec 128) : List (Nat × Bool) :=
  [(0, s.ten.slices.any (fun e => e.2.live && decide (e.2.base ≤ ruBase r * 4096) && decide (ruBase r * 4096 < e.2.base + e.2.len))), (5, (ruSlice s r).isSome), (11, !r.getLsbD 95 && ruMatch r != 3), (12, bitsOf r.toNat 100 4 == 0), (14, ruOk r)]

/-- `gate.rule_write` (R469, R479, R481, R523): stages the complete new list. -/
def specRuleWrite : CmdSpec :=
  { op := 0x0503, who := fun s r p => isFm r || ownObj s r (handleAt p 0), args := fun s p => [lenIs p (8 + 16 * fieldAt p 4 2), fld 4 (decide (fieldAt p 4 2 ≤ 1024)), rsv p 6 2] ++ (ruleList p).zipIdx.flatMap (fun e => (ruleFields s e.1).map (fun f => fld (8 + 16 * e.2 + f.1) f.2)), handles := fun p => oneHandle p 7, names := fun _ p => [handleAt p 0], state := fun s _ p => !(ruleSetOf s (handleAt p 0)).destroying, cap := fun s r p =>
      let h := handleAt p 0
      let o := (ruleSetOf s h).owner
      isFm r || o == 0 || decide (rulesOfTenant s o - rulesOfSet (ruleSetOf s h) + max (ruleList p).length (ruleSetOf s h).committed.length ≤ (tenantOf s o).ruleQuota),
    run := fun _ p s =>
      let h := handleAt p 0
      let o := (ruleSetOf s h).owner
      let own := fun (r : BitVec 128) => decide (ruPrio r ≤ 127) && (match ruSlice s r with
        | some (_, sl) => sl.owner == o
        | none => false)
      if o ≠ 0 && !(ruleList p).all own then ({ status := .denied, h1 := h }, s)
      else ({ h1 := h }, modRules h (fun r => { r with staged := ruleList p }) s) }

/-- `gate.commit` (R481 to R485, R520). -/
def specGateCommit : CmdSpec :=
  { op := 0x0504, who := fun s r p => isFm r || ownObj s r (handleAt p 0), args := fun _ p => [lenIs p 8, fld 4 (decide (fieldAt p 4 1 < 4)), rsv p 5 3], handles := fun p => oneHandle p 7, names := fun _ p => [handleAt p 0], state := fun s _ p => !(ruleSetOf s (handleAt p 0)).destroying, cap := fun s _ p => let r := ruleSetOf s (handleAt p 0); !gateFull s (handleAt p 0) r.staged (gatesOfLists s r.committed r.staged), run := fun _ p s =>
      let h := handleAt p 0
      let r := ruleSetOf s h
      let fl := fieldAt p 4 1
      if r.swapAt.isSome || genFull s (gatesOfLists s r.committed r.staged) then ({ status := .busy, h1 := h }, s)
      else
        let t := swapTick s
        let s := startSwap h r.staged (bitOf fl 1) false t s
        let (seq, s) := jDelta 0x0504 (.ruleSet (hIdx h) { r with committed := r.staged, staged := [] } (objOf s 7 (hIdx h))) s
        ({ payload := leBytes 8 t, h1 := h, waits := [.delta seq, if bitOf fl 0 then .ruleSwap h else .gateDrain h] ++ (if bitOf fl 1 then [.ruleRecall h] else []) }, s) }

/-- A tenant loses C or W on a page between two rule lists (R485). -/
def losesCW (s : State) (old new : List (Handle × BitVec 128)) (page tenant : Nat) : Bool :=
  let a := pagePerms s old page false tenant
  let b := pagePerms s new page false tenant
  (bitOf a 3 && !bitOf b 3) || (bitOf a 1 && !bitOf b 1)

/-- The recall of a commit (R485): from each logical port, the lines of covered pages of coherent slices on which a tenant with a binding there loses C or W. Answers the ports. -/
def commitRecall (oldRules newRules : List (BitVec 128)) (old new : List (Handle × BitVec 128)) (s : State) : List Nat × State :=
  let lps := ((s.ten.bindings.filter (fun e => e.2.live)).map (fun e => e.2.lp)).dedup
  let covered := fun (page : Nat) => (oldRules ++ newRules).any (fun r => decide (ruBase r ≤ page) && decide (page ≤ ruLast r))
  (lps, lps.foldl (fun s n =>
    let ts := ((s.ten.bindings.filter (fun e => e.2.live && e.2.lp == n)).map (fun e => hIdx e.2.tenant)).dedup
    recallLines (fun _ e => let page := e.la / 64; coherentLine s e.la && covered page && recordsAgent e n && ts.any (losesCW s old new page)) n s) s)

/-- A rule set's swap tick: every affected gate changes together (R481, R482, R485). -/
def ruleSwap (h : Handle) (s : State) : State :=
  let r := ruleSetOf s h
  match r.swapAt with
  | none => s
  | some t =>
    if now s < t then s
    else
      let gs := gatesOfLists s r.committed r.next
      let old := gateRules s 0
      let s := modRules h (fun r => { r with committed := r.next, next := [], swapAt := none, lastSwap := t }) s
      let s := gs.foldl (fun s g => modGate g (fun x => { x with lastSwap := t }) s) s
      if r.withRecall then
        let (lps, s) := commitRecall r.committed r.next old (gateRules s 0) s
        modRules h (fun r => { r with recallLps := lps }) s
      else s

/-- No access that a gate checked before a tick is still under way (R483): at a slice its flows, at a device-facing port the frames towards it and what it still owes. -/
def gateQuiet (s : State) (t g : Nat) : Bool :=
  if g < 16 then !(slOf s g).trks.any (fun e => e.2.used && decide (e.2.since < t) && e.2.lp < 256)
  else
    let n := g - 16
    !s.sw.reqs.any (fun x => x.dst == .lp n && decide (x.since < t) && !isResponse x.f)
      && !(List.range 8).any (fun q => (tget s.sw.queues (8 * n + q)).frames.any (fun x => decide (x.since < t) && !isResponse x.f))
      && !s.sw.holds.any (fun e => e.2.frames.any (fun x => x.dst == .lp n && decide (x.since < t) && !isResponse x.f))
      && !(failOf s n).held.any (fun x => decide (x.since < t) && !isResponse x.f)
      && !(tget s.net.denOut n).any (fun o => decide (o.since < t)) && !(cxlOf s n).out.any (fun o => decide (o.since < t))

/-- A commit's old accesses have drained (R483, R484): its generation leaves the gates. -/
def commitDrained (h : Handle) (s : State) : State :=
  let r := ruleSetOf s h
  if !r.awaitDrain || r.swapAt.isSome then s
  else
    let gs := (s.ten.gates.filter (fun e => e.2.inFlight.contains r.lastSwap)).map (·.1)
    if gs.all (gateQuiet s r.lastSwap) then
      let s := modRules h (fun r => { r with awaitDrain := false }) s
      gs.foldl (fun s g => modGate g (fun x => { x with inFlight := x.inFlight.erase r.lastSwap }) s) s
    else s

/-- `gate.configure` (R475): each change of the mode raises a Notice. -/
def specGateConfigure : CmdSpec :=
  { op := 0x0505, who := fmOnly, args := fun _ p => [lenIs p 4, fld 0 (decide (fieldAt p 0 2 ≤ 271)), fld 2 (decide (fieldAt p 2 1 < 2)), rsv p 3 1], run := fun _ p s =>
      let g := fieldAt p 0 2
      let on := fieldAt p 2 1 == 1
      let was := (tget s.ten.gates g).firstByte
      let s := modGate g (fun x => { x with firstByte := on }) s
      ({}, if on != was then raise { code := 0x0501, cls := .notice, block := 226, detail := g, arg := b2n on } s else s) }

/-- `gate.default_set` (R472): at most 16 ranges. -/
def specDefaultSet : CmdSpec :=
  { op := 0x0506, who := fmOnly, args := fun _ p => [lenIs p (8 + 16 * fieldAt p 0 1), fld 0 (decide (fieldAt p 0 1 ≤ 16)), rsv p 1 7], run := fun _ p s => ({}, modTen (fun t => { t with defaultMap := (List.range (fieldAt p 0 1)).map (fun k => (fieldAt p (8 + 16 * k) 8, fieldAt p (16 + 16 * k) 8)) }) s) }

/-- The answer of `gate.status` for a gate (R520). -/
def gateStatusBytes (s : State) (g : Nat) : Bytes :=
  let x := tget s.ten.gates g
  leBytes 2 (gateRules s g).length ++ leBytes 1 x.inFlight.length ++ leBytes 1 (b2n x.firstByte) ++ zeros 4
    ++ leBytes 8 (ctrVal .gChecks g 0 s) ++ leBytes 8 (ctrVal .gRefused g 0 s) ++ leBytes 8 (ctrVal .gSplit g 0 s)
    ++ leBytes 8 (ctrVal .gFirst g 0 s) ++ leBytes 8 (ctrVal .gRuleFail g 0 s) ++ leBytes 8 x.lastSwap

/-- `gate.status` (R520): a tenant asks for its own rule sets only. -/
def specGateStatus : CmdSpec :=
  { op := 0x0507, who := fun s r p => isFm r || isBmc r || (fieldAt p 0 1 == 1 && ownObj s r (handleAt p 4)), args := fun _ p => [lenIs p 8, fld 0 (decide (fieldAt p 0 1 < 2)), rsv p 1 1, fld 2 (decide (fieldAt p 2 2 ≤ 271)), fld 4 (fieldAt p 0 1 != 0 || fieldAt p 4 4 == 0)], handles := fun p => if fieldAt p 0 1 == 1 then [(handleAt p 4, [7], false)] else [], reads := fun _ => true, run := fun _ p s => ({ payload := if fieldAt p 0 1 == 0 then gateStatusBytes s (fieldAt p 2 2) else ruleSetBytes (ruleSetOf s (handleAt p 4)), h1 := handleAt p 4 }, s) }

/-- The handles that a `gate.lease_take` names (R486). -/
def leaseObjects (p : Bytes) : List Handle := (List.range (fieldAt p 2 1)).map (fun k => handleAt p (4 + 4 * k))

/-- The leases of a tenant. -/
def leasesOfTenant (s : State) (t : Handle) : Nat := (s.ten.leases.filter (fun e => e.2.live && e.2.tenant == t)).length

/-- `gate.lease_take` (R441, R486, DEDUCED, assumption 67, DEDUCED, assumption 101). -/
def specLeaseTake : CmdSpec :=
  { op := 0x0510, who := fun s r p => isFm r || ((routeTenant s r).isSome && (leaseObjects p).all (ownObj s r)), args := fun _ p => [lenIs p (4 + 4 * fieldAt p 2 1), fld 0 (fieldAt p 0 2 == 0 || (decide (100 ≤ fieldAt p 0 2) && decide (fieldAt p 0 2 ≤ 60000))), fld 2 (decide (fieldAt p 2 1 ≤ 16)), rsv p 3 1], handles := fun p => (leaseObjects p).map (fun h => (h, [1, 2, 7, 8], false)), names := fun _ p => leaseObjects p, state := fun s _ p => (leaseObjects p).all (bindFree s), cap := fun s r _ => (lowestFree s 10).isSome && (match routeTenant s r with
      | some t => decide (leasesOfTenant s t < (tenantOf s t).leaseQuota)
      | none => true), creates := some 10,
    run := fun x p s =>
      match s.ten.leases.find? (fun e => e.2.live && (leaseObjects p).any (fun h => e.2.objects.contains h)) with
      | some e => ({ status := .locked, related := handleOf s 10 e.1 }, s)
      | none => match newObject 10 x s with
        | (none, s) => ({ status := .noResource }, s)
        | (some h, s) =>
          let term := if fieldAt p 0 2 = 0 then 1000000000 else fieldAt p 0 2 * 1000000
          let l : Lease := { live := true, owner := x.q.route, objects := leaseObjects p, term := term, named := now s, tenant := (routeTenant s x.q.route).getD 0 }
          ({ related := h, h1 := h, h2 := (leaseObjects p).headD 0 }, modTen (fun t => { t with leases := tset t.leases (hIdx h) l }) s) }

/-- A lease's own origin (R486, R493). -/
def leaseOwn (s : State) (r : Route) (h : Handle) : Bool := (isFm r || (routeTenant s r).isSome) && (!liveHandle s h || leaseMine s (tget s.ten.leases (hIdx h)) r)

/-- Free a lease: what it staged is rolled back, with its reserved handles (R487, R488). -/
def freeLease (h : Handle) (s : State) : State :=
  let l := tget s.ten.leases (hIdx h)
  let s := l.staged.foldl (fun s c => if c.reserved = 0 then s else unreserve c.reserved s) s
  freeIndex 10 (hIdx h) (modTen (fun t => { t with leases := tset t.leases (hIdx h) default }) s)

/-- `gate.lease_release` (R487). -/
def specLeaseRelease : CmdSpec :=
  { op := 0x0512, who := fun s r p => leaseOwn s r (handleAt p 0), args := fun _ p => [lenIs p 4], handles := fun p => oneHandle p 10, run := fun _ p s =>
      let h := handleAt p 0
      if (tget s.ten.leases (hIdx h)).committing then ({ status := .busy, h1 := h }, s) else ({ h1 := h }, freeLease h s) }

/-- The time from which a lease's owner counts as lost (R488): the event, or a whole term in which no command named it. -/
def leaseLost (l : Lease) : Nat :=
  match l.lostAt with
  | some t => min t (l.named + l.term)
  | none => l.named + l.term

/-- A lease lapses 250 ms after its owner is lost (R488). -/
def lapseLease (h : Handle) (s : State) : State :=
  let l := tget s.ten.leases (hIdx h)
  if !l.live || !liveHandle s h || now s < leaseLost l + 250000000 then s
  else
    let s := recordLease 0x0503 h (freeLease h s)
    bump .leaseLapses 0 (raise { code := 0x0503, cls := .notice, block := 226, h1 := h } s)

/-- GATE_SET_CREATE. -/
def execGateSetCreate (q : Req) (p : Bytes) (s : State) : Host.Outcome State Fault Refusal := finishStep (runCmd specSetCreate q p s)
/-- GATE_SET_DESTROY. -/
def execGateSetDestroy (q : Req) (p : Bytes) (s : State) : Host.Outcome State Fault Refusal := finishStep (runCmd specSetDestroy q p s)
/-- GATE_RULE_WRITE. -/
def execGateRuleWrite (q : Req) (p : Bytes) (s : State) : Host.Outcome State Fault Refusal := finishStep (runCmd specRuleWrite q p s)
/-- GATE_COMMIT. -/
def execGateCommit (q : Req) (p : Bytes) (s : State) : Host.Outcome State Fault Refusal := finishStep (runCmd specGateCommit q p s)
/-- GATE_CONFIGURE. -/
def execGateConfigure (q : Req) (p : Bytes) (s : State) : Host.Outcome State Fault Refusal := finishStep (runCmd specGateConfigure q p s)
/-- GATE_DEFAULT_SET. -/
def execGateDefaultSet (q : Req) (p : Bytes) (s : State) : Host.Outcome State Fault Refusal := finishStep (runCmd specDefaultSet q p s)
/-- GATE_STATUS. -/
def execGateStatus (q : Req) (p : Bytes) (s : State) : Host.Outcome State Fault Refusal := finishStep (runCmd specGateStatus q p s)
/-- GATE_LEASE_TAKE. -/
def execGateLeaseTake (q : Req) (p : Bytes) (s : State) : Host.Outcome State Fault Refusal := finishStep (runCmd specLeaseTake q p s)
/-- GATE_LEASE_RELEASE. -/
def execGateLeaseRelease (q : Req) (p : Bytes) (s : State) : Host.Outcome State Fault Refusal := finishStep (runCmd specLeaseRelease q p s)
/-- LEASE_LAPSE (R488). -/
def execLeaseLapse (h : Handle) (s : State) : Host.Outcome State Fault Refusal := finishStep (lapseLease h s)
/-- RULE_SWAP (R481). -/
def execRuleSwap (ruleSet : Handle) (s : State) : Host.Outcome State Fault Refusal := finishStep (ruleSwap ruleSet s)
/-- GATE_COMMIT_DRAINED (R483). -/
def execGateCommitDrained (ruleSet : Handle) (s : State) : Host.Outcome State Fault Refusal := finishStep (commitDrained ruleSet s)

end Sys2Proof.Machine
end

