-- ==== Sys2Proof/Machine/Security.lean ====
section
/-! DEFINITION. Images, the board table, owner keys, takeovers, attestation and the debug unlock (R544 to R583). -/

namespace Sys2Proof.Machine

/-- Change the security engine. -/
def modSec (g : SecSt → SecSt) (s : State) : State := { s with sec := g s.sec }

/-- The key of an image in flash: its bank and its stage (R555, R557). -/
def partKey (bank stage : Nat) : Nat := 2 * bank + (stage - 1)

/-- An image in flash. -/
def partOf (s : State) (bank stage : Nat) : Part := tget s.sec.parts (partKey bank stage)

/-- The hash of a byte string's slice. -/
def sliceHash (b : Bytes) (off n : Nat) : Digest := Config.sha3 ((b.drop off).take n)

/-- The first check of R558 that an image fails, by its Detail. -/
def imageFails (f : Fuses) (stage : Nat) (b : Bytes) : Option Nat :=
  let body := fieldAt b 12 4
  let fl := fieldAt b 7 1
  if !(fieldAt b 0 4 == 0x57465A44 && fieldAt b 4 1 == stage && fieldAt b 5 1 == 1 && decide (fieldAt b 6 1 ≤ 64) && decide (body ≤ (if stage = 1 then 245760 else 4194304)) && b.length == 16384 + body && decide (fl < 2) && fieldAt b 16 48 == 0 && fieldAt b 14566 1818 == 0) then some 1
  else if fieldAt b 6 1 < f.rollback then some 2
  else if sliceHash b 16384 body != BitVec.ofNat 512 (fieldAt b 64 64) then some 3
  else if !(sliceHash b 128 2592 == f.root && Config.verify ((b.drop 128).take 2592) (b.take 2720) ((b.drop 2720).take 4627)) then some 4
  else if f.policy.getLsbD 0 && !(bitOf fl 0 && ownerKnown f (sliceHash b 7347 2592) && Config.verify ((b.drop 7347).take 2592) (b.take 7347) ((b.drop 9939).take 4627)) then some 5
  else none

/-- The security version of an image (R557). -/
def imageSecurity (b : Bytes) : Nat := fieldAt b 6 1

/-- The firmware version of an image (R557). -/
def imageVersion (b : Bytes) : BitVec 32 := BitVec.ofNat 32 (fieldAt b 8 4)

/-- A measurement slot that takes the digest of an image (R552). -/
def measure (b : Bytes) : Digest := Config.sha3 (zeros 64 ++ leBytes 64 (Config.sha3 b).toNat)

/-- The alias seed that the measurements give (R553). -/
def aliasFrom (secret : BitVec 256) (fs rt : Digest) : Digest :=
  let tag := [0x44, 0x5A, 0x31, 0x30, 0x32, 0x34, 0x2D]
  let cdi0 := Config.sha3 (tag ++ [0x43, 0x44, 0x49, 0x30] ++ leBytes 32 secret.toNat ++ leBytes 64 fs.toNat)
  let cdi1 := Config.sha3 (tag ++ [0x43, 0x44, 0x49, 0x31] ++ leBytes 64 cdi0.toNat ++ leBytes 64 rt.toNat)
  Config.sha3 (tag ++ [0x41, 0x4C, 0x49, 0x41, 0x53] ++ leBytes 64 cdi1.toNat)

/-- The form of a staging request (R562): its length field counts its data. -/
def chunkArgs (parts : List Nat) (p : Bytes) : List (Nat × Bool) :=
  [fld 0 (parts.contains (fieldAt p 0 1)), fld 1 (decide (fieldAt p 1 1 < 4)), rsv p 2 2, fld 8 (p.length == 12 + fieldAt p 8 4 && decide (12 ≤ p.length))]

/-- The region of an image in its bank (R555). -/
def partRoom (stage : Nat) : Nat := if stage = 1 then 262144 else 8126464

/-- A chunk of an image (R563, R564, R565, R515): the first erases the part, a misplaced one leaves the part invalid, the last has it checked (DEDUCED, assumption 49). -/
def stageChunk (x : CmdCtx) (p : Bytes) (s : State) : CmdOut × State :=
  let stage := fieldAt p 0 1
  let fl := fieldAt p 1 1
  let off := fieldAt p 4 4
  let data := p.drop 12
  let bank := 1 - s.sec.activeBank
  let k := partKey bank stage
  let old := tget s.sec.parts k
  let other := match old.stager with
    | some r => !old.complete && !sameOrigin r x.q.route
    | none => false
  if s.sec.updating || other then ({ status := .busy }, s)
  else
    let first := bitOf fl 0
    let base : Bytes := if first then [] else old.bytes
    let misplaced := (first && off != 0) || (!first && (old.stager.isNone || old.complete || off != old.bytes.length)) || decide (base.length + data.length > partRoom stage)
    if misplaced then
      let s := if old.stager.isSome && !old.complete then modSec (fun y => { y with parts := tset y.parts k { old with valid := false } }) s else s
      ({ status := .invalidArg, detail := 68 }, s)
    else
      let b := base ++ data
      let last := bitOf fl 1
      let bad := if last then imageFails s.fuses stage b else none
      let part : Part := { bytes := b, complete := last, valid := last && bad.isNone, stager := some x.q.route }
      let s := modSec (fun y => { y with parts := tset y.parts k part }) s
      match bad with
      | some d => ({ status := .authFail, detail := d }, s)
      | none => ({}, s)

/-- `secure.fw_stage` (R515, R518, R562 to R565). -/
def specFwStage : CmdSpec :=
  { op := 0x0D02, who := fmBmc, args := fun _ p => chunkArgs [1, 2] p, keeps := fun st => st == .authFail || st == .invalidArg || st == .timeout, run := stageChunk }

/-- A chunk of the board table (R563, R566, R515). -/
def tableChunk (x : CmdCtx) (p : Bytes) (s : State) : CmdOut × State :=
  let fl := fieldAt p 1 1
  let off := fieldAt p 4 4
  let data := p.drop 12
  let k := 1 - s.ledger.tableCopy
  let old := tget s.sec.tables k
  let first := bitOf fl 0
  let base : Bytes := if first then [] else old.bytes
  let misplaced := (first && off != 0) || (!first && (old.stager.isNone || old.complete || off != old.bytes.length)) || decide (base.length + data.length > 524288)
  if misplaced then ({ status := .invalidArg, detail := 68 }, s)
  else
    let b := base ++ data
    let last := bitOf fl 1
    let s := modSec (fun y => { y with tables := tset y.tables k { bytes := b, complete := last, stager := some x.q.route } }) s
    if !last then ({}, s)
    else if !tableAuth s.fuses b then ({ status := .authFail }, s)
    else if !tableForm b then ({ status := .invalidArg, detail := 76 }, s)
    else
      let s := modSec (fun y => { y with measTbl := measure b, tableOk := true }) s
      ({}, recordSecurity 0x0DFF 4 (fieldAt b 16 4) (ledgerWrite (fun l => { l with tableCopy := k }) s))

/-- `secure.table_load` (R515, R518, R562, R563, R566). -/
def specTableLoad : CmdSpec :=
  { op := 0x0D01, who := fmBmc, args := fun _ p => chunkArgs [0] p, keeps := fun st => st == .authFail || st == .invalidArg, run := tableChunk }

/-- Both images of a bank have passed their checks (R564, R572). -/
def bankValid (s : State) (bank : Nat) : Bool := [1, 2].all (fun st => (partOf s bank st).complete && (partOf s bank st).valid)

/-- The states in which updates and commits run (R572, R575). -/
def updateState (s : State) : Bool := s.dev.st == .test || s.dev.st == .recovery || s.dev.st == .service

/-- The four images (R575). -/
def allImages (s : State) : List (Nat × Bytes) := [0, 1].flatMap (fun b => [1, 2].map (fun st => (st, (partOf s b st).bytes)))

/-- What `secure.fw_activate` requires (R572, R575, R582): a takeover while another runs gets past this to BUSY. -/
def activateState (s : State) (p : Bytes) : Bool :=
  if fieldAt p 0 1 = 1 then s.sec.updating || (updateState s && s.hb.standbyHealthy && bankValid s (1 - s.sec.activeBank) && s.sec.unlock.isNone)
  else updateState s && (allImages s).all (fun i => (imageFails s.fuses i.1 i.2).isNone)

/-- `secure.fw_activate` (R571 to R573, R575): a takeover's completion follows at U5. -/
def specFwActivate : CmdSpec :=
  { op := 0x0D03, who := fmBmc, args := fun _ p => [lenIs p 4, fld 0 (fieldAt p 0 1 == 1 || fieldAt p 0 1 == 2), rsv p 1 3], state := fun s _ p => activateState s p, run := fun _ p s =>
      if fieldAt p 0 1 = 1 then
        if s.sec.updating then ({ status := .busy }, s)
        else ({ waits := [.takeover] }, modSec (fun y => { y with updating := true, takeover := 2, newSeed := none }) s)
      else
        let low := (allImages s).foldl (fun n i => min n (imageSecurity i.2)) 64
        let f := { s.fuses with rollback := max s.fuses.rollback low }
        ({ payload := leBytes 1 f.rollback ++ zeros 3 }, { s with fuses := f }) }

/-- The command of a takeover. -/
def waitsTakeover (r : Running) : Bool := r.waits.contains .takeover

/-- An update is abandoned (R505, R573, R583): vector 2, and its command ends (DEDUCED, assumption 89). -/
def abandonUpdate (st : Status) (detail : Nat) (s : State) : State :=
  if !s.sec.updating then s
  else
    let s := modSec (fun y => { y with updating := false, paused := false, takeover := 0, newSeed := none }) s
    msix 2 (completeRunning waitsTakeover (fun r => { r with status := st, detail := detail, waits := [] }) s)

/-- Step U2 ends (R573): the new runtime is checked and the new alias key derived, not yet used. -/
def takeoverU2 (s : State) : State :=
  let b := (partOf s (1 - s.sec.activeBank) 2).bytes
  match imageFails s.fuses 2 b with
  | some d => abandonUpdate .authFail d s
  | none => msix 2 (modSec (fun y => { y with takeover := 3, newSeed := some (aliasFrom s.fuses.secret y.measFs (measure b)) }) s)

/-- Step U4 (R544, R573): once running commands have finished, management pauses. -/
def takeoverU4 (s : State) : State :=
  if s.cmd.running.all waitsTakeover then
    let t := now s
    modSec (fun y => { y with takeover := 4, paused := true, pausedAt := t }) s
  else s

/-- Step U5 (R552, R554, R573, R598): the new pair and bank, the new alias key, the ledger, the completion. -/
def takeoverU5 (s : State) : State :=
  let bank := 1 - s.sec.activeBank
  let b := (partOf s bank 2).bytes
  let t := now s
  let old := s.sec.fwActive
  let s := modSec (fun y => { y with activeBank := bank, measRt := measure b, aliasSeed := y.newSeed.getD y.aliasSeed, newSeed := none, paused := false, takeover := 6, fwActive := imageVersion b, fwStandby := old }) s
  let s := { s with hb := { s.hb with activePair := 1 - s.hb.activePair, standbyHealthy := false, lastKick := t } }
  let pr := s.hb.activePair
  let s := ledgerWrite (fun l => { l with bank := bank, pair := pr }) s
  msix 2 (completeRunning waitsTakeover (fun r => { r with payload := leBytes 1 bank ++ zeros 3 ++ leBytes 4 (imageVersion b).toNat, waits := [] }) s)

/-- A takeover's step completes and the next runs (R573). -/
def takeoverStep (s : State) : State :=
  if !fwRuns s then s
  else match s.sec.takeover with
    | 2 => takeoverU2 s
    | 3 => takeoverU4 s
    | 4 => takeoverU5 s
    | 6 =>
      let v := s.sec.fwActive
      { modSec (fun y => { y with takeover := 0, updating := false, fwStandby := v }) s with hb := { s.hb with standbyHealthy := true } }
    | _ => s

/-- The head of a CBOR item in the deterministic encoding (R578). -/
def cborHead (major n : Nat) : Bytes :=
  if n < 24 then leBytes 1 (32 * major + n)
  else if n < 2 ^ 8 then leBytes 1 (32 * major + 24) ++ leBytes 1 n
  else if n < 2 ^ 16 then leBytes 1 (32 * major + 25) ++ (leBytes 2 n).reverse
  else if n < 2 ^ 32 then leBytes 1 (32 * major + 26) ++ (leBytes 4 n).reverse
  else leBytes 1 (32 * major + 27) ++ (leBytes 8 n).reverse

/-- A CBOR unsigned integer. -/
def cborNat (n : Nat) : Bytes := cborHead 0 n

/-- A CBOR byte string. -/
def cborBytes (b : Bytes) : Bytes := cborHead 2 b.length ++ b

/-- A CBOR array. -/
def cborArray (l : List Bytes) : Bytes := cborHead 4 l.length ++ l.flatMap id

/-- A CBOR map with the keys 1, 2, … (R578). -/
def cborMap (l : List Bytes) : Bytes := cborHead 5 l.length ++ (l.zipIdx 1).flatMap (fun e => cborNat e.2 ++ e.1)

/-- A digest as a CBOR byte string. -/
def cborDigest (d : Digest) : Bytes := cborBytes (leBytes 64 d.toNat)

/-- The fuses of the evidence (R578). -/
def fuseEvidence (f : Fuses) : Bytes :=
  let slot := fun (k : Nat) =>
    let st := if !bitOf f.programmed k then 0 else if bitOf f.revoked k then 2 else 1
    cborArray [cborNat st, if st = 0 then cborBytes [] else cborDigest (tget f.owners k)]
  cborMap [cborDigest f.root, cborArray ((List.range 4).map slot), cborNat f.policy.toNat, cborNat f.rollback]

/-- A bank's security version: the lower of its two images' (DEDUCED, assumption 42). -/
def bankSecurity (s : State) (bank : Nat) : Nat := min (imageSecurity (partOf s bank 1).bytes) (imageSecurity (partOf s bank 2).bytes)

/-- The map of the evidence (R578). -/
def evidenceMap (s : State) (r : Route) (nonce endorse : Bytes) : Bytes :=
  cborMap [cborNat s.fuses.serial.toNat, cborBytes nonce, cborArray [cborDigest s.sec.measFs, cborDigest s.sec.measRt, cborDigest s.sec.measTbl], fuseEvidence s.fuses,
    cborArray [cborNat s.sec.fwActive.toNat, cborNat s.sec.fwStandby.toNat, cborNat s.sec.activeBank, cborNat (bankSecurity s 0), cborNat (bankSecurity s 1)],
    cborNat s.dev.st.code, cborNat ((s.sec.unlock.map (·.1)).getD 0), cborNat (ftCount s), cborArray [cborNat (Route.iface r), cborNat (Route.identity r)],
    cborBytes (aliasKey s), cborBytes endorse, cborBytes (Config.pubKey (identitySeed s)), cborBytes Config.idCert]

/-- Two routes have one origin identity (R496, R577). -/
def sameIdentity (a b : Route) : Bool := Route.iface a == Route.iface b && Route.identity a == Route.identity b

/-- Build and hold evidence (R577, R578). -/
def buildEvidence (r : Route) (nonce : Bytes) (s : State) : Bytes × State :=
  let (en, s) := endorsement s
  let m := evidenceMap s r nonce en
  let (sg, s) := aliasSign m s
  let ev := cborArray [cborBytes m, cborBytes sg]
  let e : Evidence := { origin := r, nonce := nonce, bytes := ev, until_ := now s + 10000000000 }
  (ev, modSec (fun y => { y with evidence := e :: y.evidence.filter (fun x => !sameIdentity x.origin r) }) s)

/-- A fragment of evidence (R576). -/
def fragment (x : CmdCtx) (ev : Bytes) (off : Nat) : Bytes :=
  let f := (ev.drop off).take (capacityOf x.q - 16)
  leBytes 4 ev.length ++ leBytes 4 off ++ leBytes 4 f.length ++ zeros 4 ++ f

/-- `secure.attest` (R518, R576, R577, R583, DEDUCED, assumption 48). -/
def specAttest : CmdSpec :=
  { op := 0x0D04, who := fun _ r _ => !isFw r, args := fun _ p =>
      let n := fieldAt p 0 1
      [lenIs p 72, fld 0 (decide (16 ≤ n) && decide (n ≤ 64)), rsv p 1 3, fld 8 (((p.drop (8 + n)).take (64 - n)).all (· == 0))],
    reads := fun p => fieldAt p 4 4 != 0, run := fun x p s =>
      let nonce := (p.drop 8).take (fieldAt p 0 1)
      let off := fieldAt p 4 4
      if off = 0 then
        let (ev, s) := buildEvidence x.q.route nonce s
        ({ payload := fragment x ev 0 }, s)
      else match s.sec.evidence.find? (fun e => sameIdentity e.origin x.q.route && decide (now s ≤ e.until_)) with
        | none => ({ status := .badState }, s)
        | some e =>
          if e.nonce != nonce then ({ status := .badState }, s)
          else if off ≥ e.bytes.length then ({ status := .invalidArg, detail := 68 }, s)
          else ({ payload := fragment x e.bytes off }, if now s = e.until_ then bump .secNear 0 s else s) }

/-- Held evidence ends (R577). -/
def evidenceExpire (r : Route) (s : State) : State :=
  modSec (fun y => { y with evidence := y.evidence.filter (fun e => !(sameIdentity e.origin r && decide (now s ≥ e.until_))) }) s

/-- The form of a debug-unlock token (R579, R580). -/
def tokenArgs (s : State) (p : Bytes) : List (Nat × Bool) :=
  [lenIs p 7271, rsv p 1 3, fld 4 (fieldAt p 4 4 == 0x55445A44), fld 8 (fieldAt p 8 1 == 1), fld 9 (decide (fieldAt p 9 1 < 4) && !(s.fuses.policy.getLsbD 2 && bitOf (fieldAt p 9 1) 0)), fld 10 (decide (1 ≤ fieldAt p 10 2) && decide (fieldAt p 10 2 ≤ 1440))]

/-- A token is accepted (R580): a challenge that ends on this tick still counts. -/
def tokenOk (s : State) (p : Bytes) : Bool :=
  let t := p.drop 4
  let key := (t.drop 48).take 2592
  let h := Config.sha3 key
  fieldAt t 8 8 == s.fuses.serial.toNat
    && (match s.sec.challenge with
      | some (n, e) => n == (t.drop 16).take 32 && decide (now s ≤ e)
      | none => false)
    && (ownerKnown s.fuses h || (h == s.fuses.root && !s.fuses.policy.getLsbD 1))
    && Config.verify key (t.take 2640) ((t.drop 2640).take 4627)

/-- `secure.unlock` (R515, R518, R579 to R583): the scope opens once the Drey is flushed (DEDUCED, assumption 52). -/
def specUnlock : CmdSpec :=
  { op := 0x0D05, who := fmOnly, args := fun s p => fld 0 (decide (1 ≤ fieldAt p 0 1) && decide (fieldAt p 0 1 ≤ 3)) :: (if fieldAt p 0 1 = 2 then tokenArgs s p else [lenIs p 4, rsv p 1 3]), state := fun s _ p => fieldAt p 0 1 != 2 || s.dev.st == .test, keeps := fun st => st == .authFail, run := fun _ p s =>
      let m := fieldAt p 0 1
      if m = 1 then
        let (n, s) := drawFree s
        let nonce := leBytes 32 n
        let e := now s + 60000000000
        ({ payload := nonce ++ leBytes 8 (ftOf e) }, modSec (fun y => { y with challenge := some (nonce, e) }) s)
      else if m = 3 then
        ({}, if s.sec.unlock.isSome then recordSecurity 0x0DFF 2 0 (modSec (fun y => { y with unlock := none }) s) else s)
      else
        let ok := tokenOk s p
        let near := ok && (match s.sec.challenge with | some (_, e) => decide (now s = e) | none => false)
        let s := modSec (fun y => { y with challenge := none }) (if near then bump .secNear 0 s else s)
        if ok then
          let (_, s) := flushAll true s
          ({ waits := [.openScope (fieldAt p 9 1) (fieldAt p 10 2)] }, s)
        else ({ status := .authFail }, s) }

/-- A challenge ends after 60 s (R579). -/
def challengeExpire (s : State) : State :=
  match s.sec.challenge with
  | some (_, e) => if now s ≥ e then modSec (fun y => { y with challenge := none }) s else s
  | none => s

/-- An unlock's Duration runs out (R581, R582). -/
def unlockExpire (s : State) : State :=
  match s.sec.unlock with
  | some (_, e) => if now s ≥ e then recordSecurity 0x0DFF 3 0 (modSec (fun y => { y with unlock := none }) s) else s
  | none => s

/-- Slot k's key signed the board table or countersigned an image (R570). -/
def slotInUse (s : State) (k : Nat) : Bool :=
  let h := tget s.fuses.owners k
  (s.sec.tableOk && tableKeyHash (tableBytes s) == h)
    || s.sec.parts.any (fun e => bitOf (fieldAt e.2.bytes 7 1) 0 && sliceHash e.2.bytes 7347 2592 == h)

/-- A slot is live (R548). -/
def slotLive (f : Fuses) (k : Nat) : Bool := bitOf f.programmed k && !bitOf f.revoked k

/-- What `secure.owner_key` requires (R568, R570). -/
def ownerState (s : State) (p : Bytes) : Bool :=
  let a := fieldAt p 0 1
  let k := fieldAt p 1 1
  s.dev.st == .test && (a != 1 || !bitOf s.fuses.programmed k)
    && (a != 2 || (slotLive s.fuses k && (List.range 4).any (fun j => j != k && slotLive s.fuses j) && !slotInUse s k))

/-- The authorisation of `secure.owner_key` (R568, R569). -/
def ownerAuth (s : State) (p : Bytes) : Bool :=
  fieldAt p 4 8 == s.fuses.serial.toNat
    && ((s.fuses.programmed == 0 && fieldAt p 0 1 == 1) || (ownerKnown s.fuses (sliceHash p 76 2592) && Config.verify ((p.drop 76).take 2592) (p.take 2668) ((p.drop 2668).take 4627)))

/-- Burn what `secure.owner_key` names (R549, R567). -/
def burn (p : Bytes) (f : Fuses) : Fuses :=
  let k := fieldAt p 1 1
  match fieldAt p 0 1 with
  | 1 => { f with owners := tset f.owners k (BitVec.ofNat 512 (fieldAt p 12 64)), programmed := f.programmed ||| 2 ^ k }
  | 2 => { f with revoked := f.revoked ||| 2 ^ k }
  | _ => { f with policy := f.policy ||| BitVec.ofNat 8 (fieldAt p 2 1) }

/-- `secure.owner_key` (R518, R567 to R570). -/
def specOwnerKey : CmdSpec :=
  { op := 0x0D06, who := fmOnly, args := fun s p =>
      let a := fieldAt p 0 1
      [lenIs p 7295, fld 0 (decide (1 ≤ a) && decide (a ≤ 3)), fld 1 (if a = 3 then fieldAt p 1 1 == 0 else decide (fieldAt p 1 1 < 4)), fld 2 (if a = 3 then decide (fieldAt p 2 1 < 8) else fieldAt p 2 1 == 0), rsv p 3 1, fld 12 (a == 1 || fieldAt p 12 64 == 0), fld 76 (!(s.fuses.programmed == 0 && a == 1) || (p.drop 76).all (· == 0))],
    state := fun s _ p => ownerState s p, run := fun _ p s =>
      if ownerAuth s p then ({}, { s with fuses := burn p s.fuses }) else ({ status := .authFail }, s) }

/-- SECURE_TABLE_LOAD. -/
def execSecureTableLoad (q : Req) (p : Bytes) (s : State) : Host.Outcome State Fault Refusal := finishStep (runCmd specTableLoad q p s)
/-- SECURE_FW_STAGE. -/
def execSecureFwStage (q : Req) (p : Bytes) (s : State) : Host.Outcome State Fault Refusal := finishStep (runCmd specFwStage q p s)
/-- SECURE_FW_ACTIVATE. -/
def execSecureFwActivate (q : Req) (p : Bytes) (s : State) : Host.Outcome State Fault Refusal := finishStep (runCmd specFwActivate q p s)
/-- SECURE_ATTEST. -/
def execSecureAttest (q : Req) (p : Bytes) (s : State) : Host.Outcome State Fault Refusal := finishStep (runCmd specAttest q p s)
/-- SECURE_UNLOCK. -/
def execSecureUnlock (q : Req) (p : Bytes) (s : State) : Host.Outcome State Fault Refusal := finishStep (runCmd specUnlock q p s)
/-- SECURE_OWNER_KEY. -/
def execSecureOwnerKey (q : Req) (p : Bytes) (s : State) : Host.Outcome State Fault Refusal := finishStep (runCmd specOwnerKey q p s)
/-- EVIDENCE_EXPIRY. -/
def execEvidenceExpiry (r : Route) (s : State) : Host.Outcome State Fault Refusal := finishStep (evidenceExpire r s)
/-- CHALLENGE_EXPIRY. -/
def execChallengeExpiry (s : State) : Host.Outcome State Fault Refusal := finishStep (challengeExpire s)
/-- UNLOCK_EXPIRY. -/
def execUnlockExpiry (s : State) : Host.Outcome State Fault Refusal := finishStep (unlockExpire s)
/-- TAKEOVER_STEP_DONE. -/
def execTakeoverStepDone (s : State) : Host.Outcome State Fault Refusal := finishStep (takeoverStep s)

end Sys2Proof.Machine
end

