-- ==== Sys2Proof/Machine/Sic.lean ====
section
/-! DEFINITION. The Sett interrupt controller: edges, coalescing, arbitration, claims, completions and configuration words (R622, R669 to R679, R694). -/

namespace Sys2Proof.Machine

/-- A source is a level source: its word says so, or its line is one that R669 gives as level: a first-error line, or a port's INT_N (DEDUCED, assumption 91). -/
def levelSrc (s : State) (src : Nat) : Bool :=
  sicField (tget s.sic.srcs src).word 5 1 == 1 || (src % 8 == 0 && !(decide (176 ≤ src / 8) && decide (src / 8 < 192))) || (src % 8 == 4 && decide (src / 8 < 128))

/-- The level that the device gives a line now: a first-error record's validity, or INT_N; the line of another level source changes with the event (R669). -/
def lineLevel (s : State) (src : Nat) : Bool :=
  if src % 8 = 0 && !(decide (176 ≤ src / 8) && decide (src / 8 < 192)) then (tget s.errs (src / 8)).valid
  else if src % 8 = 4 && src / 8 < 128 then (portOf s (src / 8)).intLow && (domOf s (src / 8)).st == .on
  else !(tget s.sic.srcs src).line

/-- An edge or a level change reaches the controller (R669, R672, R678). -/
def sourceEdge (src : Nat) (s : State) : State :=
  if !settRuns s then s
  else if levelSrc s src then sicLevel src (lineLevel s src) s
  else sicEdge src s

/-- The coalescing time of a source's first held edge has passed (R678): the time that the last edge found in force (R694). -/
def coalesceEnd (src : Nat) (s : State) : State :=
  let c := tget s.sic.srcs src
  if settRuns s && c.held ≠ 0 && c.due ≠ 0 && now s ≥ c.due then sicPend src c.held s else s

/-- A target pair's claim register. -/
def sicPairOf (s : State) (p : Nat) : SicPair := if p = 0 then s.sic.pair0 else s.sic.pair1

/-- Load a target pair's claim register. -/
def setSicPair (p : Nat) (c : Option Nat) (s : State) : State :=
  { s with sic := if p = 0 then { s.sic with pair0 := { committed := c } } else { s.sic with pair1 := { committed := c } } }

/-- The pair that a source is delivered to: its target, or its fallback when the target sleeps and must not be woken (R670, R679). -/
def sicRoute (s : State) (w : BitVec 64) : Nat :=
  let p := pairOf s (sicField w 6 2)
  if pairAsleep s p && sicField w 10 1 == 1 then pairOf s (sicField w 8 2) else p

/-- A pair's running priority plus one, 0 when it has claimed nothing (R673). -/
def runningPrio (s : State) (p : Nat) : Nat :=
  s.sic.srcs.foldl (fun m e => if e.2.active.map (·.val) == some p then max m (sicField e.2.word 0 4 + 1) else m) 0

/-- The source that a pair is due: the highest PRIO above the running priority, and among equals the lowest number (R673). -/
def sicSelect (s : State) (p : Nat) : Option Nat :=
  let ok := fun (e : Nat × SicSrc) => e.2.pend && e.2.active.isNone && sicField e.2.word 4 1 == 1 && s.sic.pair0.committed != some e.1 && s.sic.pair1.committed != some e.1 && sicRoute s e.2.word == p && decide (sicField e.2.word 0 4 + 1 > runningPrio s p)
  (s.sic.srcs.filter ok).foldl (fun b e => match b with
    | none => some e.1
    | some x => if sicField (tget s.sic.srcs x).word 0 4 < sicField e.2.word 0 4 then some e.1 else b) none

/-- Arbitration for one target pair (R673, R679): a sleeping pair is woken first, and is served at a later arbitration. -/
def arbitratePair (p : Nat) (s : State) : State :=
  if (sicPairOf s p).committed.isSome || (domOf s (148 + 2 * p)).st == .off then s
  else match sicSelect s p with
    | none => s
    | some src => if pairAsleep s p then wakePair p s else emit (.sicLine p) (setSicPair p (some src) s)

/-- One arbitration of both target pairs (R673). -/
def arbitrateAll (s : State) : State := if settRuns s then arbitratePair 1 (arbitratePair 0 s) else s

/-- A pair claims (R674): the source's number, with the events merged from bit 16 up. -/
def sicClaim (p : Fin 2) (s : State) : State :=
  match (sicPairOf s p.val).committed with
  | none => s
  | some src =>
    let n := (tget s.sic.srcs src).merged
    emit (.regRead (src + 65536 * n)) (modSrc src (fun c => { c with active := some p, pend := false, merged := 0 }) (setSicPair p.val none s))

/-- A pair completes a source (R674 to R676): one that it has not active is ignored and counted. -/
def sicComplete (p : Fin 2) (src : Nat) (s : State) : State :=
  let c := tget s.sic.srcs src
  if c.active != some p then { s with sic := { s.sic with spurious := s.sic.spurious + 1 } }
  else
    let s := modSrc src (fun c => { c with active := none }) s
    if levelSrc s src then sicLevel src c.line s else s

/-- The bits of a configuration word that the firmware writes: all but the forward field and the reserved ones (R670). -/
def sicWritable : BitVec 64 := 0xFFFFFF07FF

/-- The firmware writes a source's configuration word (R670, R677, R678): a level word with coalescing is refused, and FWD keeps its value. -/
def sicConfig (src : Nat) (w : BitVec 64) (s : State) : State :=
  if !settRuns s || (sicField w 5 1 == 1 && (decide (sicField w 16 8 > 1) || sicField w 24 16 != 0)) then s
  else
    let s := modSrc src (fun c => { c with word := (w &&& sicWritable) ||| (c.word &&& 0x3F0000000000) }) s
    let c := tget s.sic.srcs src
    if levelSrc s src && c.active.isNone && c.pend != c.line then sicLevel src c.line s else s

/-- SIC_SOURCE_EDGE. -/
def execSicSourceEdge (src : Fin 2048) (s : State) : Host.Outcome State Fault Refusal := finishStep (sourceEdge src.val s)
/-- SIC_COALESCE_TIMEOUT. -/
def execSicCoalesceTimeout (src : Fin 2048) (s : State) : Host.Outcome State Fault Refusal := finishStep (coalesceEnd src.val s)
/-- SIC_ARBITRATION. -/
def execSicArbitration (s : State) : Host.Outcome State Fault Refusal := finishStep (arbitrateAll s)
/-- SIC_CLAIM. -/
def execSicClaim (pair : Fin 2) (s : State) : Host.Outcome State Fault Refusal := finishStep (sicClaim pair s)
/-- SIC_COMPLETE. -/
def execSicComplete (pair : Fin 2) (src : Fin 2048) (s : State) : Host.Outcome State Fault Refusal := finishStep (sicComplete pair src.val s)
/-- SIC_CONFIG_WRITE. -/
def execSicConfigWrite (src : Fin 2048) (w : BitVec 64) (s : State) : Host.Outcome State Fault Refusal := finishStep (sicConfig src.val w s)

end Sys2Proof.Machine
end

