-- ==== Sys2Proof/Machine/Restart.lean ====
section
/-! DEFINITION. Cold and warm starts: what each keeps, the start-up steps and their triggers, the boot ledger's alternatives, and recovery mode (R7, R17, R377, R541, R547 to R561, R584 to R605, R614, R660, R683, R711, R751). -/

namespace Sys2Proof.Machine

/-- A start-up step of this start. -/
def kOf (s : State) (k : Nat) : KStep := tget s.start.steps k

/-- A step has ended. -/
def kDone (s : State) (k : Nat) : Bool := (kOf s k).st == .done

/-- A step runs. -/
def kRuns (s : State) (k : Nat) : Bool := (kOf s k).st == .running

/-- Change a step. -/
def modK (k : Nat) (g : KStep → KStep) (s : State) : State := modStart (fun x => { x with steps := tmod x.steps k g }) s

/-- A step of the previous start failed (R600). -/
def failedBefore (s : State) (k detail : Nat) : Bool := s.start.prevFailed.contains (k, detail)

/-- A step takes an alternative (R600, R613). -/
def takeAlt (k : Nat) (s : State) : State := modStart (fun x => { x with alts := x.alts ||| 2 ^ k }) s

/-- The steps of the newest start opened whose newest record says failed, or was left open (R600). -/
def failedSteps (n : Nat) (records : List StepRec) : List (Nat × Nat) :=
  let mine := records.filter (fun r => r.start == n)
  let keys := (mine.map (fun r => (r.step, r.detail))).dedup
  keys.filter (fun k => match mine.find? (fun r => (r.step, r.detail) == k) with
    | some r => r.outcome == 1 || r.outcome == 0xFF
    | none => false)

/-- What a drey keeps through a warm reset (R363, R368, R373). -/
def dreyKept (x : DreySt) : DreySt :=
  let y := stopMove x
  { ways := y.ways, regions := y.regions, spares := y.spares, relocs := y.relocs, moveQueue := y.moveQueue }

/-- What a warm reset leaves (R7, R368, R489, R526, R541, R582, R585, R660, R683, R711): what the supplies' loss leaves, and the count, the stacks with their lines and logs, the cages in their state, and the routes and slices that the write-back of the Drey needs (DEDUCED, assumption 84). -/
def warmLost (s : State) : State :=
  let t := powerLost s
  { t with log := { s.log with sub1 := .notice, sub2 := .notice, times := [], notices := 0, degraded := 0, severe := 0, lastEvent := 0, limited := 0, deferred := [], open_ := false }, drey := s.drey.map (fun (e : Nat × DreySt) => (e.1, dreyKept e.2)), sw := { routes := s.sw.routes }, ten := { slices := s.ten.slices }, pwr := { t.pwr with hbmRefresh := s.pwr.hbmRefresh } }

/-- A start-up step starts (R587): its record opens, but K9, K10 and K12 open theirs one by one (R599, DEDUCED, assumption 81). -/
def kBegin (k alt : Nat) (s : State) : State :=
  let t := now s
  let s := modK k (fun _ => { st := .running, began := t, alt := alt }) s
  let s := if alt = 0 then s else takeAlt k s
  if k = 9 || k = 10 || k = 12 then s else stepOpen k (if k = 4 then 15 else 0) alt s

/-- A start-up step ends (R587, R599). -/
def kEnd (k outcome : Nat) (s : State) : State :=
  let t := now s
  let s := modK k (fun x => { x with st := .done, ended := t }) s
  if k = 9 || k = 10 || k = 12 then s else stepClose k (if k = 4 then 15 else 0) outcome s

/-- Raise power domains (R587, DEDUCED, assumption 78). -/
def raiseDoms (ds : List Nat) (s : State) : State := ds.foldl (fun s d => (requestDomain d .on false s).2) s

/-- The domains that K1 raises. -/
def k1Doms : List Nat := [154, 148, 149, 150, 151, 152, 153]

/-- The domains that K3 raises. -/
def k3Doms : List Nat := rangeFrom 136 12

/-- Every domain of a list is On. -/
def allOn (s : State) (ds : List Nat) : Bool := ds.all (fun d => (domOf s d).st == .on)

/-- Start a start: Boot is entered and K1 runs (R17, R584, R587, R600, R751). -/
def beginStart (kind : Nat) (c : Cause) (s : State) : State :=
  let t := now s
  let old := s.ledger.startNumber
  let s := { s with start := { records := s.start.records, train := s.start.train, kind := kind, warm := kind != 1, number := old + 1, trigger := t, prevFailed := failedSteps old s.start.records } }
  let s := changeState .boot c s
  let s := if s.pwr.trstN then (requestDomain 155 .on false s).2 else s
  kBegin 1 0 (raiseDoms k1Doms s)

/-- The contacts and timers as a count that starts from 0 sees them (R85, R377, R413). -/
def countAnew (s : State) : State :=
  let lvl := fun (e : Nat × PortSt) => ((e.1, { e.2 with present := presentNow s e.1, prsntSince := 0 }) : Nat × PortSt)
  let low := fun (e : Nat × CageSt) => ((e.1, { e.2 with gateLowAt := 0 }) : Nat × CageSt)
  { s with net := { s.net with ports := s.net.ports.map lvl }, cages := { s.cages with cages := s.cages.cages.map low }, hib := { s.hib with lowSince := 0 }, io := { s.io with lastPps := none, okSince := none }, ft := { s.ft with acc := 0 } }

/-- A cold start (R17, R377, R584, R751): only from Off, with every supply good. -/
def coldBegin (s : State) : State :=
  if s.dev.st != .off || s.pins.vin12Low || !s.pins.vaon || !s.pins.porstN then s
  else
    let s := countAnew s
    beginStart 1 { identity := 163, trigger := 8 } { s with pwr := { s.pwr with clks := aonClocks s } }

/-- PORST_N rises with VAON good (R17, R725, R732): with VIN12 below its threshold the device holds itself in Off (DESIGN CHOICE, assumption 27). -/
def coldStart (s : State) : State := coldBegin { s with pins := { s.pins with porstN := true, vaon := true } }

/-- VIN12 is back and every supply has stayed in tolerance for 10 ms (R17, R725). -/
def vin12Return (s : State) : State :=
  if s.pins.vin12Low then coldBegin { s with pins := { s.pins with vin12Low := false } } else s

/-- A warm start (R17, R584, R585, R751). -/
def warmBegin (kind : Nat) (c : Cause) (s : State) : State :=
  let s := warmLost s
  beginStart kind c { s with pwr := { s.pwr with clks := aonClocks s } }

/-- The warm reset of `device.reset`, 1 ms after its completion (R17, R22, R586, R751): in Hibernate it is ignored and counted. -/
def warmReset (s : State) : State :=
  match s.start.warmAt with
  | none => s
  | some t =>
    if now s < t then s
    else match s.dev.st with
      | .hibernate => { modStart (fun x => { x with warmAt := none }) s with grave := { s.grave with ignoredResets := s.grave.ignoredResets + 1 } }
      | .test | .recovery | .service | .drain =>
        let (i, n, c, q) := s.start.byCmd
        warmBegin 2 { iface := i, identity := n, code := c, trigger := 5, arg := q } s
      | _ => modStart (fun x => { x with warmAt := none }) s

/-- The journal devices' ports, from the ledger's routing entries (R595, R597). -/
def journalPorts (s : State) : List Nat :=
  if s.ledger.journalSet then ([s.ledger.primRoute, s.ledger.mirrRoute].filter (fun e => rKind e == 1)).map rLp else []

/-- A journal port is up, or has failed (R587): its link is up, it is in start quarantine, or its wave has passed it by. -/
def journalSettled (s : State) (n : Nat) : Bool :=
  lpUp s n || (tget s.start.quar (n / 2)).quarantined || kDone s 10 || (decide (s.start.wave > dieOf n) && !s.start.waveEnd.any (fun e => e.1 == n / 2))

/-- The triggers of a start-up step have all occurred (R587). -/
def kTriggers (s : State) (k : Nat) : Bool :=
  match k with
  | 2 => kDone s 1
  | 3 | 5 => kDone s 2
  | 4 => kDone s 3
  | 6 => kDone s 5
  | 7 => kDone s 6
  | 8 => kDone s 7
  | 9 => kDone s 4 && kDone s 8
  | 10 => kDone s 6 && kDone s 8
  | 11 => s.start.warm && kDone s 9 && kDone s 10
  | 12 => kDone s 9 && (!s.start.warm || kDone s 11) && (journalPorts s).all (journalSettled s)
  | 13 => kDone s 12
  | _ => false

/-- The soft repairs that K9 makes permanent, and those it skips because they failed at the previous start (R362, R600): a record names a row by its row number. -/
def rowSkipped (s : State) (r : Repair) : Bool := failedBefore s 9 (r.row % 65536)

/-- K9 starts (R358, R362, R369, R599, R600): a record for each hard repair; the directories are all-I; after a cold start every way is invalid; relocations that a power loss stopped start again (DEDUCED, assumption 82). -/
def k9Begin (s : State) : State :=
  let s := kBegin 9 (if s.ledger.repairs.any (rowSkipped s) then 6 else 0) s
  let s := s.ledger.repairs.foldl (fun s r =>
    if rowSkipped s r then stepClose 9 (r.row % 65536) 0 (stepOpen 9 (r.row % 65536) 6 s) else stepOpen 9 (r.row % 65536) 0 s) s
  let s := { s with slices := s.slices.map (fun (e : Nat × SliceSt) => (e.1, { e.2 with dir := [], cached := [] })) }
  let s := if s.start.warm then s else { s with drey := s.drey.map (fun (e : Nat × DreySt) => (e.1, { e.2 with ways := [] })) }
  (List.range 4).foldl (fun s k => match (dreyOf s k).moveQueue with
    | [] => s
    | r :: q => startReloc k r (modDrey k (fun d => { d with moveQueue := q }) s)) s

/-- K9 ends (R362, R598, R600): each repair that succeeded is permanent and leaves the ledger's list. -/
def k9End (failed : List Nat) (s : State) : State :=
  let rs := s.ledger.repairs
  let bad := fun (r : Repair) => failed.contains (r.row % 65536)
  let s := rs.foldl (fun s r => if rowSkipped s r then s else stepClose 9 (r.row % 65536) (b2n (bad r)) s) s
  let left := rs.filter (fun r => rowSkipped s r || bad r)
  kEnd 9 0 (if left.length = rs.length then s else ledgerWrite (fun b => { b with repairs := left }) s)

/-- A dirty line that K11 does not write back is recorded lost (R368, R600). -/
def recordLost (k : Nat) (l : Nat) (s : State) : State := record { kind := 2, code := 0x07FF, identity := 154 + k, outcome := 1, detail := 1, arg := l * 64 } s

/-- The dirty lines of a controller that a test passes, by key and way. -/
def dirtyWays (s : State) (k : Nat) (p : DreyWay → Bool) : List (Nat × DreyWay) := (dreyOf s k).ways.filter (fun e => e.2.v && e.2.d && p e.2)

/-- K11 starts (R368, R600): dirty lines that check good are written back, and each other one is recorded lost; under its alternative every dirty line is recorded lost. -/
def k11Begin (s : State) : State :=
  let skip := failedBefore s 11 0
  let s := kBegin 11 (if skip then 6 else 0) s
  (List.range 4).foldl (fun s k =>
    let lost := dirtyWays s k (fun w => skip || w.x)
    let good := dirtyWays s k (fun w => !skip && !w.x)
    let s := lost.foldl (fun s e => recordLost k (dreyLine (e.1 / 16) e.2.tag) s) s
    let s := good.foldl (fun s e => issueWrite (dreyLine (e.1 / 16) e.2.tag) e.2.data false s) s
    modDrey k (fun d => { d with ways := [] }) s) s

/-- K12's first record opens (R599, R600): the read of the primary, of the mirror, or the restore itself where no journal is read. A device whose read failed at the previous start is not read, unless both failed. -/
def k12Skip (s : State) : Bool × Bool :=
  let a := failedBefore s 12 1
  let b := failedBefore s 12 2
  if a && b then (false, false) else (a, b)

/-- K12 starts (DEDUCED, assumption 83). -/
def k12Begin (s : State) : State :=
  let (a, b) := k12Skip s
  let s := kBegin 12 (if a || b then 7 else if failedBefore s 12 0 then 6 else 0) s
  if !s.ledger.journalSet then stepOpen 12 0 (if failedBefore s 12 0 then 6 else 0) s
  else if a then stepOpen 12 2 7 s
  else stepOpen 12 1 (if b then 7 else 0) s

/-- Start a step: what it does at once (R587, R597 to R600). -/
def kStart (k : Nat) (s : State) : State :=
  match k with
  | 3 => kBegin 3 0 (raiseDoms k3Doms (ledgerWrite (fun b => { b with startNumber := s.start.number }) s))
  | 4 => kBegin 4 (if failedBefore s 4 15 then 1 else 0) s
  | 6 => kBegin 6 (if failedBefore s 6 0 then 3 else 0) (if failedBefore s 6 0 then ledgerWrite (fun b => { b with tableCopy := 1 - b.tableCopy }) s else s)
  | 8 =>
    let t := now s
    let flip := failedBefore s 8 0
    let pr := if flip then 1 - s.ledger.pair else s.ledger.pair
    let s := { s with hb := { s.hb with activePair := pr, running := true, lastKick := t } }
    kBegin 8 (if flip then 4 else 0) (if flip then ledgerWrite (fun b => { b with pair := pr }) s else s)
  | 9 => k9Begin s
  | 11 => k11Begin s
  | 12 => k12Begin s
  | _ => kBegin k 0 s

/-- Every step whose triggers are now all met starts (R587). -/
def kAdvance (s : State) : State :=
  (rangeFrom 2 12).foldl (fun s k => if (kOf s k).st == .idle && kTriggers s k then kStart k s else s) s

/-- Recovery mode (R561, R584): no bank passes; the boot ROM waits for images through PE (DEDUCED, assumption 85). -/
def enterRecoveryMode (s : State) : State :=
  let t := now s
  let s := modStart (fun x => { x with kind := 4, recovMode := 1, steps := tset [] 1 { st := .done, began := t, ended := t } }) s
  { s with sec := { s.sec with measFs := 0, measRt := 0 } }

/-- The domains that K3 raised are switched off (R604). -/
def dropK3 (s : State) : State := { s with pwr := { s.pwr with doms := s.pwr.doms.filter (fun e => !(k3Doms.contains e.1)) } }

/-- A bank has failed V1 or V2 (R560, R598, R604): the other bank is active and the start runs again from K1, or, with both banks tried, recovery mode follows. -/
def bankFailed (k : Nat) (s : State) : State :=
  let bank := s.ledger.bank
  let s := stepClose k 0 1 s
  let s := modStart (fun x => { x with triedBanks := x.triedBanks ||| 2 ^ bank }) (dropK3 s)
  let s := raise { code := 0x0D01, cls := .severe, block := 224, arg := bank } s
  if bitOf s.start.triedBanks (1 - bank) then enterRecoveryMode s
  else
    let s := ledgerWrite (fun b => { b with bank := 1 - bank }) s
    let s := modSec (fun y => { y with activeBank := 1 - bank, measFs := 0, measRt := 0 }) (takeAlt 2 s)
    kBegin 1 0 (raiseDoms k1Doms (modStart (fun x => { x with steps := [] }) s))

/-- The ledger is read with K2 (R559, R597): bank and pair, the time settings, the journal devices with their routing entries. When neither copy verifies, its defaults stand and a Severe event follows (DEDUCED, assumption 32). -/
def readLedger (prim mirr : Bool) (s : State) : State :=
  let s := if prim || mirr then modStart (fun x => { x with copyBad := !(prim && mirr) }) s
    else
      let s := { s with ledger := {}, net := { s.net with lps := [] }, start := { s.start with number := 1, prevFailed := [] } }
      raise { code := 0x01FF, cls := .severe, block := 224, detail := 2 } (modStart (fun x => { x with copyBad := true }) s)
  let b := s.ledger
  let s := { s with io := { s.io with prio := b.prio, extRef := bitOf b.timeFlags 0, ppsEn := bitOf b.timeFlags 1, entries := b.entries }, hb := { s.hb with activePair := b.pair } }
  let s := modSec (fun y => { y with activeBank := b.bank }) s
  let s := modJ (fun j => { j with set_ := b.journalSet, primDid := b.primDid, mirrDid := b.mirrDid, primAddr := b.primAddr, mirrAddr := b.mirrAddr, primOk := true, mirrOk := true, degraded := false, absent := false }) s
  if b.journalSet then modSw (fun w => { w with routes := tset (tset w.routes b.primDid b.primRoute) b.mirrDid b.mirrRoute }) s else s

/-- K2 has run on an image (R558 to R560, R600): when K2 or K5 failed at the previous start, the other bank is taken and K2 runs once more (DEDUCED, assumption 80). -/
def k2End (image : Bytes) (s : State) : State :=
  let s := modSec (fun y => { y with measFs := measure image }) s
  if (failedBefore s 2 0 || failedBefore s 5 0) && !bitOf s.start.alts 2 && s.start.kind != 4 then
    let b := 1 - s.ledger.bank
    let s := ledgerWrite (fun l => { l with bank := b }) (stepClose 2 0 0 s)
    kBegin 2 2 (modSec (fun y => { y with activeBank := b, measFs := 0 }) s)
  else kEnd 2 0 s

/-- The accepted board table's serial is recorded; a table that fails leaves MEAS_TBL zero and a Severe event (R49 to R51, R559). -/
def k6End (ok : Bool) (s : State) : State :=
  let b := tableBytes s
  if ok && tableAuth s.fuses b && tableForm b then
    let s := modSec (fun y => { y with tableOk := true, measTbl := measure b }) s
    kEnd 6 0 (recordSecurity 0x0DFF 4 (fieldAt b 16 4) s)
  else
    let s := modSec (fun y => { y with tableOk := false, measTbl := 0 }) s
    kEnd 6 1 (raise { code := 0x0201, cls := .severe, block := 224 } s)

/-- The hash that a stored training result carries (R603, DEDUCED, assumption 124: over the serial and the result). -/
def trainHash (x : TrainSt) : Digest := Config.sha3 (leBytes 8 x.serial.toNat ++ x.result)

/-- A stack's stored result passes its check (R603): it is there, and carries the fitted stack's serial and its own hash. -/
def trainOk (s : State) (k : Nat) : Bool :=
  let x := tget s.start.train k
  bitOf s.ledger.training k && x.serial == Config.hbmSerial k && x.hash == trainHash x

/-- Full training of a stack writes a new training store (R602). -/
def storeTraining (s : State) (k : Nat) : State :=
  let x : TrainSt := { serial := Config.hbmSerial k, result := Config.hbmTraining k s.free }
  modStart (fun y => { y with train := tset y.train k { x with hash := trainHash x } }) { s with free := s.free + 1 }

/-- K4 ends (R587, R602): the stacks whose stored result fails its check, or read back damaged, have been trained in full; full training that failed is a Grave fault. -/
def k4End (ok : Bool) (failed : List Nat) (s : State) : State :=
  if !ok then graveCause 0x0708 (158 + failed.headD 0 % 4) (stepClose 4 15 1 (modK 4 (fun x => { x with st := .failed }) s))
  else
    let full := (List.range 4).filter (fun k => (kOf s 4).alt == 1 || failed.contains k || !trainOk s k)
    let s := full.foldl storeTraining s
    kEnd 4 0 (if full.isEmpty then s else ledgerWrite (fun b => { b with training := 15 }) s)

/-- The lowest multiple of 256 above a sequence. -/
def nextBlock (n : Nat) : Nat := (n / 256 + 1) * 256

/-- The log opens (R541): after a warm start with good rings it goes on; else from the flash summary, with the chain broken. -/
def openLog (s : State) : State :=
  match s.log.ring0.head? with
  | some r => if r.damaged || !s.start.warm then fromFlash s else s
  | none => fromFlash s
where
  /-- Steps 2 and 3 of R541. -/
  fromFlash (s : State) : State :=
    let m := s.log.flashRecs.foldl (fun n r => max n (r.seq + 1)) 0
    let (high, chain) := match s.log.flashSeals.head? with
      | some x => (max m (x.lastSeq + 1), x.chainOut)
      | none => (m, 0)
    let next := if high = 0 then 0 else nextBlock (high - 1)
    modLog (fun l => { l with ring0 := [], seals := [], nextSeq := next, chain := chain, blockIn := chain, brk := true, skips := if high < next then [(high, next)] else [] }) s

/-- What waited for the runtime is recorded, with its copies in the rings (R654, R667). -/
def writeDeferred (s : State) : State :=
  let rs := s.log.deferred
  let cls := fun (n : Nat) => if n = 3 then EvClass.grave else if n = 2 then EvClass.severe else if n = 1 then EvClass.degraded else EvClass.notice
  rs.foldl (fun s r => let s := writeSpoor r s; if r.kind = 2 then ringCopy (cls r.outcome) s else s) (modLog (fun l => { l with open_ := true, deferred := [] }) s)

/-- K8 ends: the runtime runs on both pairs (R502, R541, R559, R668). In recovery mode the version registers stay 0. -/
def k8End (s : State) : State :=
  let v := if s.start.kind = 4 then 0 else imageVersion (partOf s s.ledger.bank 2).bytes
  let t := now s
  let s := modSec (fun y => { y with fwActive := v, fwStandby := v }) s
  let s := { s with hb := { s.hb with standbyHealthy := pairPowered s (1 - s.hb.activePair.val), lastKick := t } }
  kEnd 8 0 (writeDeferred (openLog s))

/-- The waves are over, and each of their ports is live or in start quarantine (R592). -/
def wavesSettled (s : State) : Bool :=
  let live := fun (p : Nat) => ([2 * p, 2 * p + 1].filter (lpExists s)).all (linkLive s)
  s.start.wave = 8 && (startingPorts s).all live

/-- K10 ends (R592, R614): at its bound every port still down goes to start quarantine. -/
def k10End (s : State) : State :=
  if wavesSettled s then kEnd 10 0 s
  else if now s ≥ (kOf s 10).began + 450000000 then
    let live := fun (p : Nat) => ([2 * p, 2 * p + 1].filter (lpExists s)).all (linkLive s)
    kEnd 10 0 (((startingPorts s).filter (fun p => !live p)).foldl (fun s p => startFailed p s) s)
  else s

end Sys2Proof.Machine
end

