-- ==== Sys2Proof/Machine/Restore.lean ====
section
/-! DEFINITION. Recovery after power loss: what R431 reads from the journal, what it restores, and the end of the start (R17, R425, R431 to R434, R589, R599, R600, R613). -/

namespace Sys2Proof.Machine

/-- The records that the readable devices hold, newest first; those found damaged are marked (R431). -/
def readableRecs (s : State) (prim mirr : Bool) (damaged : List Nat) : List JRec :=
  (s.journal.recs.filter (fun r => (r.prim && prim) || (r.mirr && mirr))).map (fun r => { r with bad := r.bad || damaged.contains r.seq })

/-- A record is valid: it is not damaged, nor is the one whose hash it chains to (R431). -/
def recValid (recs : List JRec) (r : JRec) : Bool := !r.bad && !recs.any (fun x => x.seq + 1 == r.seq && x.bad)

/-- Put an object of a delta into an image (R426, R431). -/
def applyDelta (c : CfgImage) (o : DeltaObj) : CfgImage :=
  match o with
  | .tenant i r b => { c with objs := tset c.objs (8 * 2 ^ 20 + i) b, tenants := tset c.tenants i (if r.live then r else default) }
  | .slice i r b => { c with objs := tset c.objs (2 * 2 ^ 20 + i) b, slices := tset c.slices i (if r.live then r else default) }
  | .binding i r b => { c with objs := tset c.objs (2 ^ 20 + i) b, bindings := tset c.bindings i (if r.live then r else default) }
  | .ruleSet i r b => { c with objs := tset c.objs (7 * 2 ^ 20 + i) b, ruleSets := tset c.ruleSets i (if r.live then r else default) }
  | .none_ => c

/-- The delta of a record, if it is one. -/
def deltaOf (r : JRec) : Option DeltaObj :=
  match r.body with
  | .delta _ o => some o
  | _ => none

/-- The checkpoint that a hibernate or drain record names, with the deltas after it (R431). -/
def imageAt (recs : List JRec) (ckpt upto : Nat) : Option CfgImage :=
  match recs.find? (fun r => r.seq == ckpt && recValid recs r) with
  | some r => match r.body with
    | .checkpoint _ image => some (((recs.filter (fun x => decide (ckpt < x.seq) && decide (x.seq < upto) && recValid recs x)).reverse.filterMap deltaOf).foldl applyDelta image)
    | _ => none
  | none => none

/-- A restored binding (R433): live, marked restored, with nothing in flight. -/
def restoreBinding (d : Nat) (b : Binding) : Binding :=
  { b with restored := true, faulted := false, step := 0, lastEpoch := d, highEpoch := 0, posted := 0, lightMark := none, redMark := none }

/-- A restored meter starts as a new one does (R251, R433). -/
def restoreMeter (t : Nat) (m : MeterSt) : MeterSt := { m with tc := m.cbs * one24, tp := m.pbs * one24, last := t }

/-- A restored shaper starts with full tokens and Re equal to its Rate (R433). -/
def restoreShaper (x : ShaperSt) : ShaperSt := { configured := x.configured, par := x.par }

/-- A restored rule set has only its committed rules (R425, R427). -/
def restoreRules (r : RuleSet) : RuleSet := { live := r.live, owner := r.owner, committed := r.committed }

/-- The mediated-mode translations of the restored bindings (R459, R587). -/
def rebuildXlat (s : State) (bs : Tab Binding) : Tab XlatEntry :=
  (bs.filter (fun e => e.2.live)).foldl (fun t e =>
    (xlatAdd e.2.lp e.2.pasid e.2.wbase ((sliceOf s e.2.slice).base + e.2.off) e.1 (e.2.len / 2097152) t).getD t) []

/-- Put a configuration image in force and rebuild the tables (R431, R433, R587). -/
def restoreImage (c : CfgImage) (d : Nat) (s : State) : State :=
  let t := now s
  let bs := c.bindings.map (fun (e : Nat × Binding) => (e.1, restoreBinding d e.2))
  let s := { s with ten := { objs := c.objs, tenants := c.tenants.map (fun (e : Nat × Tenant) => (e.1, { e.2 with times := [] })), slices := c.slices, bindings := bs, ruleSets := c.ruleSets.map (fun (e : Nat × RuleSet) => (e.1, restoreRules e.2)), mediated := c.mediated } }
  let s := { s with tm := { s.tm with meters := c.meters.map (fun (e : Nat × MeterSt) => (e.1, restoreMeter t e.2)), attached := c.attached, shapers := c.shapers.map (fun (e : Nat × ShaperSt) => (e.1, restoreShaper e.2)) } }
  if c.mediated then let x := rebuildXlat s bs; modTen (fun y => { y with xlat := x }) s else s

/-- D and the epoch floor that a start restores (R397, R407, R429, R431). -/
def restoreEpochs (d next : Nat) (unclean : Bool) (s : State) : State :=
  let t := now s
  updateFabric (reserveEpochs (modHoard (fun h => { h with durable := d, durableAt := t, fabricDurable := d, floor := next, epoch := max h.epoch next, restart := d, unclean := unclean }) s))

/-- Only the journal's own routes and no slice, tenant, binding or rule set stand: what was kept for the write-back goes (R432). -/
def clearConfig (s : State) : State :=
  let keep := if s.ledger.journalSet then [s.ledger.primDid, s.ledger.mirrDid] else []
  { s with ten := {}, sw := { s.sw with routes := s.sw.routes.filter (fun e => keep.contains e.1) } }

/-- The body of a hibernate or drain record. -/
def drainOf (r : JRec) : Option DrainBody :=
  match r.body with
  | .drain b | .hibernate b => some b
  | _ => none

/-- R431 on what the devices gave: the newest valid record decides. -/
def recover (prim mirr : Bool) (damaged : List Nat) (s : State) : State :=
  let s := clearConfig s
  let reserve := s.ledger.reservation + 1
  if !prim && !mirr then
    modStart (fun x => { x with clean := false }) (restoreEpochs 0 reserve false (modJ (fun j => { j with recs := [], primOk := false, mirrOk := false, absent := true }) s))
  else
    let recs := readableRecs s prim mirr damaged
    let good := recs.filter (recValid recs)
    let next := (recs.head?.map (·.seq + 1)).getD 0
    let last := good.head?
    let mark := (good.find? (fun r => match r.body with | .mark => true | _ => false)).map (·.epoch)
    let ck := (good.find? (fun r => match r.body with | .checkpoint _ _ => true | _ => false)).map (·.seq)
    let s := modJ (fun j => { j with recs := recs, nextSeq := next, lastMark := mark.getD 0, ckptSeq := ck.getD 0 }) s
    let unclean := fun (d : Nat) => modStart (fun x => { x with clean := false }) (restoreEpochs d reserve true s)
    match last with
    | none => unclean 0
    | some n => match drainOf n with
      | none => unclean n.durable
      | some b =>
        let skip := failedBefore s 12 0
        let s := match (if skip then none else imageAt recs b.checkpoint n.seq) with
          | none => s
          | some c => restoreImage c b.finalDurable s
        let s := { s with dur := { s.dur with queued := b.notices.map (fun (x : Notice) => { x with late := true }) } }
        modStart (fun x => { x with clean := true }) (restoreEpochs b.finalDurable (b.finalEpoch + 1) false s)

/-- K12 ends (R431, R587, R599, R600): each device that was read has its record, then the restore has its own. -/
def k12End (prim mirr : Bool) (damaged : List Nat) (s : State) : State :=
  let (a, b) := k12Skip s
  let live := fun (e : Nat) => rKind e == 1 && lpUp s (rLp e)
  let rp := s.ledger.journalSet && !a && prim && live s.ledger.primRoute
  let rm := s.ledger.journalSet && !b && mirr && live s.ledger.mirrRoute
  let alt := if failedBefore s 12 0 then 6 else 0
  let s := if !s.ledger.journalSet then s
    else if a then stepOpen 12 0 alt (stepClose 12 2 (b2n (!rm)) s)
    else if b then stepOpen 12 0 alt (stepClose 12 1 (b2n (!rp)) s)
    else stepOpen 12 0 alt (stepClose 12 2 (b2n (!rm)) (stepOpen 12 2 0 (stepClose 12 1 (b2n (!rp)) s)))
  kEnd 12 0 (stepClose 12 0 0 (recover rp rm damaged s))

/-- K13 ends (R17, R425, R587, R598, R613, R751): Recovery or Service, a mark, and the ledger's mark that the start is ready. -/
def k13End (s : State) : State :=
  let t := now s
  let s := changeState (if s.start.clean then .recovery else .service) { identity := 224, trigger := 3 } s
  let s := ledgerWrite (fun b => { b with lastReady := s.start.number }) (jMark s)
  kEnd 13 0 (modStart (fun x => { x with readyAt := t, duration := (t - x.trigger) / 1000 }) s)

end Sys2Proof.Machine
end

