-- ==== Sys2Proof/Machine/Waves.lean ====
section
/-! DEFINITION. The start's events: steps that end, port waves, start-quarantine retries, recovery mode, the grandmaster by default, and the events that power a port (R40, R50, R58, R561, R587 to R594, R601). -/

namespace Sys2Proof.Machine

/-- A start-up step can end: its power domains are On, but for the standby pair's that timed out, and its write-backs are done (R587, R629). -/
def stepReady (s : State) (k : Nat) : Bool :=
  match k with
  | 1 => k1Doms.all (fun d => (domOf s d).st == .on || standbyDead s d)
  | 3 => allOn s k3Doms
  | 11 => !writesLeft s
  | _ => true

/-- A running step ends, with what it does at its end (R559, R587, R597 to R604). In recovery mode K2 and K5 end by doorbell only (R561, DEDUCED, assumption 79). -/
def stepEnd (k : Nat) (e : StepEnd) (s : State) : State :=
  match k with
  | 1 => kEnd 1 (b2n (!allOn s k1Doms)) s
  | 2 =>
    if s.start.kind = 4 then s
    else
      let s := readLedger e.primary e.mirror s
      let b := (partOf s s.ledger.bank 1).bytes
      if e.ok && (imageFails s.fuses 1 b).isNone then k2End b s else bankFailed 2 s
  | 4 => k4End e.ok e.failed s
  | 5 =>
    if s.start.kind = 4 then s
    else
      let b := (partOf s s.ledger.bank 2).bytes
      if e.ok && (imageFails s.fuses 2 b).isNone then kEnd 5 0 (modSec (fun y => { y with measRt := measure b }) s) else bankFailed 5 s
  | 6 => k6End e.ok s
  | 7 => kEnd 7 0 (modSec (fun y => { y with locked := true, aliasSeed := aliasFrom s.fuses.secret y.measFs y.measRt }) s)
  | 8 => k8End s
  | 9 => k9End e.failed s
  | 10 => k10End s
  | 12 => k12End e.primary e.mirror e.damaged s
  | 13 => k13End s
  | _ => kEnd k 0 s

/-- START_STEP_DONE (R587): the step ends when it runs and may, and every step whose triggers are now met starts. A step whose last trigger came since the last such event has started then. -/
def startStepDone (k : Nat) (e : StepEnd) (s : State) : State :=
  if s.dev.st != .boot then s
  else
    let s := kAdvance s
    if kRuns s k && stepReady s k then kAdvance (stepEnd k e s) else s

/-- A port of a wave is brought up further (R591, R618): its domain once its die is On and its cage power-good or its presence ignored, then its links. -/
def portAdvance (p : Nat) (s : State) : State :=
  if !((cageOf s p).pg || (cfgOf s (2 * p)).ignorePresent) then s
  else
    let x := domOf s p
    if x.target.isSome || (domOf s (128 + p / 16)).st != .on then s
    else if x.st != .on then (requestDomain p .on true s).2
    else
      let halves := [2 * p, 2 * p + 1].filter (lpExists s)
      let going := halves.any (fun n => !linkStopped s n)
      let train := halves.filter (fun n => linkStopped s n && !(going && lpDisabled s n))
      train.foldl (fun s n => if s.sec.tableOk && mayTrain s n then trainAfresh n s else s) s

/-- Every port whose start-up link-up is under way goes on (R591, R593). -/
def waveAdvance (s : State) : State := if settRuns s then (startingPorts s).foldl (fun s p => portAdvance p s) s else s

/-- Step 2 of R591 for a port: its cage ramps, unless it already is power-good (R711). A cage that is latched or damaged fails the link-up. -/
def portStep2 (p : Nat) (s : State) : State :=
  let c := cageOf s p
  if c.st = .latched || c.st = .damaged then startFailed p s
  else if c.st = .off then startRamp p false s
  else s

/-- A cage that is not power-good at the end of step 2 of its wave or retry fails its port's start-up link-up (R592, R714). -/
def step2End (p : Nat) (s : State) : State :=
  if (startingPorts s).contains p && !((cageOf s p).pg || (cfgOf s (2 * p)).ignorePresent) && decide (now s ≥ tget s.start.waveEnd p) then startFailed p s else s

/-- A port that a wave brings up (R591): the ledger marks it enabled, and a module is there or its presence is ignored. -/
def portEligible (s : State) (p : Nat) : Bool := bitOf s.ledger.ports p && (presentNow s p || (cfgOf s (2 * p)).ignorePresent)

/-- A port names a journal device in the ledger (R601). -/
def journalPort (s : State) (p : Nat) : Bool := (journalPorts s).any (fun n => n / 2 == p)

/-- One port in its wave (R591, R600, R601): left out when its link-up failed at the previous start and it carries no journal device. -/
def wavePort (p : Nat) (s : State) : State :=
  if !portEligible s p || !s.sec.tableOk then s
  else if failedBefore s 10 p && !journalPort s p then
    let s := modStart (fun x => { x with quar := tset x.quar p { quarantined := true } }) (takeAlt 10 s)
    stepClose 10 p 0 (stepOpen 10 p 5 s)
  else
    let t := now s
    let s := modStart (fun x => { x with waveEnd := tset x.waveEnd p (t + 25000000) }) (stepOpen 10 p 0 s)
    portStep2 p s

/-- PORT_WAVE (R591, R594): wave d starts 25 ms × d after K10 starts. -/
def portWave (d : Nat) (s : State) : State :=
  let s := if s.dev.st == .boot then kAdvance s else s
  if s.dev.st != .boot || !kRuns s 10 || s.start.wave ≠ d || now s < (kOf s 10).began + 25000000 * d then s
  else
    let s := modStart (fun x => { x with wave := d + 1 }) (requestDomain (128 + d) .on true s).2
    waveAdvance ((rangeFrom (16 * d) 16).foldl (fun s p => wavePort p s) s)

/-- START_QUARANTINE_RETRY (R593): every 2 s from the end of K13, at most 15 attempts; one that is still under way has failed (DEDUCED, assumption 87). -/
def quarantineRetry (p : Nat) (s : State) : State :=
  let q := tget s.start.quar p
  if !settRuns s || s.dev.st == .hibernate || !kDone s 13 || !q.quarantined || q.attempts ≥ 15 || now s < max q.nextAt s.start.readyAt then s
  else
    let t := now s
    let s := if q.trying then stepClose 0x20 p 1 s else s
    let s := modStart (fun x => { x with quar := tset x.quar p { q with trying := true, attempts := q.attempts + 1, nextAt := t + 2000000000 }, waveEnd := tset x.waveEnd p (t + 25000000) }) s
    let s := stepOpen 0x20 p 0 s
    if portEligible s p then waveAdvance (portStep2 p s) else startFailed p s

/-- A CXL port is not up 250 ms after step 2 of its wave or retry (R40, R592). -/
def cxlStartTimeout (p : Nat) (s : State) : State :=
  let halves := [2 * p, 2 * p + 1].filter (lpExists s)
  if (startingPorts s).contains p && isCxl s (2 * p) && !halves.all (linkLive s) && now s ≥ tget s.start.waveEnd p + 250000000 then startFailed p s else s

/-- No ANNOUNCE was heard within 30 µs of the end of K8 (R380, R590). -/
def selfGrandmaster (s : State) : State :=
  if kDone s 8 && timeRuns s && s.ft.mode = .boot && !s.ft.gm && (heardNow s).isEmpty && now s ≥ (kOf s 8).ended + 30000 then selfGm (gmMode s) s else s

/-- An image in BAR2 at an offset: its header, and a body as long as the header says, at most the longest permitted (R557, R561). -/
def bar2Image (s : State) (off : Nat) : Bytes := memRead s.mbx.bar2 off (16384 + min (fieldAt (memRead s.mbx.bar2 (off + 12) 4) 0 4) 4194304)

/-- RECOVERY_MODE_DOORBELL (R561): bit 0 runs a first stage from BAR2, bit 1 a runtime; an image that fails a check leaves recovery mode waiting. -/
def recoveryDoorbell (v : BitVec 32) (s : State) : State :=
  if s.dev.st != .boot || s.start.kind ≠ 4 then s
  else
    let first := bar2Image s 0
    let s := if v.getLsbD 0 && s.start.recovMode = 1 && (imageFails s.fuses 1 first).isNone then
        let s := kAdvance s
        kAdvance (k2End first (modStart (fun x => { x with recovMode := 2 }) (readLedger true true s)))
      else s
    let run := bar2Image s 0x200000
    if v.getLsbD 1 && s.start.recovMode = 2 && kRuns s 5 && (imageFails s.fuses 2 run).isNone then
      kAdvance (kEnd 5 0 (modSec (fun y => { y with measRt := measure run }) s))
    else s

/-- COLD_START (R17, R587). -/
def execColdStart (s : State) : Host.Outcome State Fault Refusal := finishStep (coldStart s)
/-- VIN12_RETURN (R725). -/
def execVin12Return (s : State) : Host.Outcome State Fault Refusal := finishStep (vin12Return s)
/-- WARM_RESET (R585). -/
def execWarmReset (s : State) : Host.Outcome State Fault Refusal := finishStep (warmReset s)
/-- START_STEP_DONE (R587). -/
def execStartStepDone (k : Fin 14) (e : StepEnd) (s : State) : Host.Outcome State Fault Refusal := finishStep (startStepDone k.val e s)
/-- PORT_WAVE (R591). -/
def execPortWave (d : Fin 8) (s : State) : Host.Outcome State Fault Refusal := finishStep (portWave d.val s)
/-- START_QUARANTINE_RETRY (R593). -/
def execStartQuarantineRetry (p : PortId) (s : State) : Host.Outcome State Fault Refusal := finishStep (quarantineRetry p.val s)
/-- CXL_START_LINK_UP_TIMEOUT (R592). -/
def execCxlStartLinkUpTimeout (p : PortId) (s : State) : Host.Outcome State Fault Refusal := finishStep (cxlStartTimeout p.val s)
/-- SELF_GRANDMASTER (R590). -/
def execSelfGrandmaster (s : State) : Host.Outcome State Fault Refusal := finishStep (selfGrandmaster s)
/-- RECOVERY_MODE_DOORBELL (R561). -/
def execRecoveryModeDoorbell (v : BitVec 32) (s : State) : Host.Outcome State Fault Refusal := finishStep (recoveryDoorbell v s)
/-- CAGE_SAMPLE (R698): a port of a wave whose cage asserts power-good goes on; at the end of step 2 one that has not fails. -/
def execCageSample (c : PortId) (mA mV : Nat) (s : State) : Host.Outcome State Fault Refusal := finishStep (waveAdvance (step2End c.val (cageSample c.val mA mV s)))
/-- DOMAIN_READY (R625): a port of a wave whose domain is On goes on. -/
def execDomainReady (d : Fin 157) (s : State) : Host.Outcome State Fault Refusal := finishStep (waveAdvance (domainReady d.val s))
/-- DOMAIN_DWELL_END (R628). -/
def execDomainDwellEnd (d : Fin 157) (s : State) : Host.Outcome State Fault Refusal := finishStep (dwellEnd d.val s)
/-- DOMAIN_READY_TIMEOUT (R629): a port of a wave whose I/O die is back goes on. -/
def execDomainReadyTimeout (d : Fin 157) (s : State) : Host.Outcome State Fault Refusal := finishStep (waveAdvance (readyTimeout d.val s))

end Sys2Proof.Machine
end

