-- ==== Sys2Proof/Machine/Discovery.lean ====
section
/-! DEFINITION. Fabric discovery: rounds, PROBE, REPORT and READY (R606 to R611, R614). -/

namespace Sys2Proof.Machine

/-- Change the discovery state. -/
def modDisc (g : DiscSt → DiscSt) (s : State) : State := { s with disc := g s.disc }

/-- A Den fabric port that is up: the ports that carry discovery messages (R606). -/
def discPort (s : State) (n : Nat) : Bool := isDen s n && isFabric s n && lpUp s n

/-- The Den fabric ports that are up (R608). -/
def denUp (s : State) : List Nat := (List.range 256).filter (discPort s)

/-- The ports on which probes leave: those with time enabled (R609). -/
def probePorts (s : State) : List Nat := (denUp s).filter (fun n => (tget s.io.entries n).en)

/-- The runtime serves discovery. -/
def discRuns (s : State) : Bool := fwRuns s && s.dev.st != .hibernate

/-- This module's entry at a depth (R607). -/
def selfEntry (s : State) (depth : Nat) : ModEntry :=
  { serial := s.fuses.serial.toNat, did := (ownDid s).getD 0, didValid := (ownDid s).isSome, depth := depth, fabricPorts := (denUp s).length, endpoints := ((List.range 256).filter (fun n => !isFabric s n && lpUp s n)).length, state := s.dev.st.code }

/-- A module entry in its 16 bytes (R607). -/
def entryBytes (e : ModEntry) : Bytes :=
  leBytes 8 e.serial ++ leBytes 2 (e.did % 4096 + 32768 * b2n e.didValid) ++ leBytes 1 e.depth ++ leBytes 1 e.fabricPorts ++ leBytes 2 e.endpoints ++ leBytes 1 e.state ++ [0]

/-- A discovery message's payload (R607). -/
def discBytes (m : DiscMsg) : Bytes :=
  leBytes 1 m.subtype.toNat ++ [1] ++ leBytes 1 m.depth ++ leBytes 1 (b2n m.child + 2 * b2n m.booting) ++ leBytes 4 m.round ++ leBytes 8 m.gmSerial
    ++ leBytes 8 m.senderSerial ++ leBytes 8 (ftOf m.roundStart) ++ leBytes 2 m.entries.length ++ zeros 6 ++ m.entries.flatMap entryBytes

/-- Send a discovery message: an IO_MSG with DID 0xBFF and the privileged-origin bit (R606). -/
def sendDisc (n : Nat) (m : DiscMsg) (s : State) : State :=
  let b := discBytes { m with senderSerial := s.fuses.serial.toNat }
  let f := sealHdr { opcode := 0x04, cls := clsIO, chan := BitVec.ofNat 3 (chanOf clsIO 4), priv := true, did := 0xBFF, sid := selfDid s, length := BitVec.ofNat 16 b.length, data := b }
  raiseX .sett (.lp n) f (frameLen f) 0 s

/-- A message of the round in hand. -/
def roundMsg (s : State) (subtype : Byte) : DiscMsg :=
  { subtype := subtype, depth := s.disc.depth, round := s.disc.round, gmSerial := s.disc.gmSerial, roundStart := s.disc.roundStart }

/-- A discovery message at a port that does not take it is discarded and counted as a routing discard (R606). -/
def discFrom (n : Nat) (m : DiscMsg) (act : State → State) (s : State) : State :=
  if !discPort s n then (if settRuns s then bump .routeDisc n s else s)
  else if !discRuns s then s
  else act (modDisc (fun d => { d with highest := max d.highest m.round }) s)

/-- This module's deadline for the answers to its probes (R609). -/
def discDeadline (s : State) : Nat :=
  if s.disc.from_.isNone then s.disc.roundStart + 500000000 else s.disc.roundStart + 500000000 - 20000000 * (s.disc.depth + 1)

/-- Every probe is answered, or the deadline has passed (R609): the grandmaster ends the round, with READY unless a report carried booting; any other module reports (DEDUCED, assumption 88). -/
def roundFinish (s : State) : State :=
  let d := s.disc
  match d.from_ with
  | some p => sendDisc p.val { roundMsg s 2 with child := true, booting := d.booting, entries := d.entries } (modDisc (fun x => { x with inRound := false }) s)
  | none =>
    let t := now s
    if d.booting then modDisc (fun x => { x with inRound := false, endedAt := some t }) s
    else
      let s := modDisc (fun x => { x with inRound := false, endedAt := none, ready := true, readyRound := x.round, readyEntries := x.entries }) s
      d.children.foldl (fun s n => sendDisc n { roundMsg s 3 with entries := d.entries } s) s

/-- Forward probes on a set of ports; with none to forward the round's part of this module is over. -/
def forwardProbes (ports : List Nat) (s : State) : State :=
  if ports.isEmpty then roundFinish s else ports.foldl (fun s n => sendDisc n (roundMsg s 1) s) s

/-- The grandmaster starts a round (R608). -/
def roundStart (s : State) : State :=
  let t := now s
  let d := s.disc
  let since := s.io.gmSince.getD t
  let first := decide (t ≥ since + 1000000) && !(d.gmSerial == s.fuses.serial.toNat && d.round != 0 && decide (d.roundStart ≥ since))
  let again := match d.endedAt with
    | some e => decide (t ≥ e + 50000000)
    | none => false
  let held := decide (t ≥ since + 1000000)
  if !discRuns s || !s.ft.gm || !kDone s 13 || !held || !(first || again || d.upPorts != denUp s || d.newModule) then s
  else
    let ports := probePorts s
    let self := selfEntry s 0
    let up := denUp s
    let me := s.fuses.serial.toNat
    forwardProbes ports (modDisc (fun d => { d with round := max d.highest d.round + 1, highest := max d.highest d.round + 1, inRound := true, gmSerial := me, roundStart := t, depth := 0, from_ := none, awaiting := ports, entries := [self], booting := false, ready := false, endedAt := none, children := [], newModule := false, upPorts := up }) s)

/-- A PROBE (R609, R614). -/
def probe (lp : LpId) (m : DiscMsg) (s : State) : State :=
  let n := lp.val
  discFrom n m (fun s =>
    if m.round ≤ s.disc.round || s.ft.parent != some lp then
      sendDisc n { subtype := 2, depth := s.disc.depth, round := m.round, gmSerial := m.gmSerial, roundStart := m.roundStart } s
    else
      let self := selfEntry s (m.depth + 1)
      let late := !kDone s 13 || decide (s.ft.mode = .boot)
      let ports := if late then [] else (probePorts s).filter (fun k => k != n)
      let s := modDisc (fun d => { d with round := m.round, inRound := true, gmSerial := m.gmSerial, roundStart := m.roundStart, depth := m.depth + 1, from_ := some lp, awaiting := ports, entries := [self], booting := late, ready := false, endedAt := none, children := [] }) s
      forwardProbes ports s) s

/-- A REPORT (R608 to R610, R614): one on the very tick of the deadline is taken and counted. -/
def report (lp : LpId) (m : DiscMsg) (s : State) : State :=
  let n := lp.val
  discFrom n m (fun s =>
    let d := s.disc
    if d.inRound && m.round == d.round && d.awaiting.contains n && decide (now s ≤ discDeadline s) then
      let s := if now s = discDeadline s then bump .discNear n s else s
      let s := modDisc (fun d => { d with awaiting := d.awaiting.filter (fun k => k != n), entries := if m.child then d.entries ++ m.entries else d.entries, children := if m.child then d.children ++ [n] else d.children, booting := d.booting || (m.child && m.booting) }) s
      if s.disc.awaiting.isEmpty then roundFinish s else s
    else if s.ft.gm && !d.inRound && m.entries.any (fun e => !d.readyEntries.any (fun x => x.serial == e.serial)) then modDisc (fun d => { d with newModule := true }) s
    else s) s

/-- The deadline of this module's probes (R609, R610): each port that has not answered raises a Notice event. -/
def discDeadlineEnd (s : State) : State :=
  if !discRuns s || !s.disc.inRound || s.disc.awaiting.isEmpty || now s < discDeadline s then s
  else
    let out := s.disc.awaiting
    let s := out.foldl (fun s n => raise { code := 0x02FF, cls := .notice, block := n / 2, detail := 2, arg := n } s) (modDisc (fun d => { d with awaiting := [] }) s)
    roundFinish s

/-- READY (R609, R610): stored, and sent on to the modules beneath. -/
def ready (lp : LpId) (m : DiscMsg) (s : State) : State :=
  discFrom lp.val m (fun s =>
    if s.disc.from_ != some lp || m.round != s.disc.round then s
    else
      let s := modDisc (fun d => { d with inRound := false, ready := true, readyRound := m.round, readyEntries := m.entries }) s
      s.disc.children.foldl (fun s n => sendDisc n { roundMsg s 3 with entries := m.entries } s) s) s

/-- DISCOVERY_ROUND_START. -/
def execDiscoveryRoundStart (s : State) : Host.Outcome State Fault Refusal := finishStep (roundStart s)
/-- PROBE. -/
def execProbe (lp : LpId) (m : DiscMsg) (s : State) : Host.Outcome State Fault Refusal := finishStep (probe lp m s)
/-- REPORT. -/
def execReport (lp : LpId) (m : DiscMsg) (s : State) : Host.Outcome State Fault Refusal := finishStep (report lp m s)
/-- DISCOVERY_DEADLINE. -/
def execDiscoveryDeadline (s : State) : Host.Outcome State Fault Refusal := finishStep (discDeadlineEnd s)
/-- READY. -/
def execReady (lp : LpId) (m : DiscMsg) (s : State) : Host.Outcome State Fault Refusal := finishStep (ready lp m s)

end Sys2Proof.Machine
end

