-- ==== Sys2Proof/Machine/Heart.lean ====
section
/-! DEFINITION. The heartbeat, firmware stalls, lockstep errors and the device watchdog (R22, R583, R662 to R668, R694). -/

namespace Sys2Proof.Machine

/-- Change the heartbeat. -/
def modHb (g : HbSt → HbSt) (s : State) : State := { s with hb := g s.hb }

/-- The block of a lockstep pair's events: its lower-numbered core (R752). -/
def pairBlock (p : Nat) : Nat := 170 + 2 * p

/-- The watchdog's warm start (R17, R667, R751): event 0x0104 waits for the runtime. -/
def watchdogStart (s : State) : State :=
  match s.dev.st with
  | .boot | .test | .recovery | .service | .drain =>
    raise { code := 0x0104, cls := .severe, block := 165 } (warmBegin 3 { identity := 165, trigger := 6 } s)
  | _ => s

/-- How long a fault in hand waits for a kick: 5 ms of a new active pair, else 500 µs (R667 step W3). -/
def kickWait (s : State) : Nat := if s.hb.handover then 5000000 else 500000

/-- HEARTBEAT_KICK (R665 to R668): in time it ends a stall, and after a handover the event of step W2 follows; on the very tick it is taken and counted. -/
def kick (s : State) : State :=
  let t := now s
  if !settRuns s || !s.hb.running || s.hb.stopAt.isSome then s
  else match s.hb.stallAt with
    | some a =>
      if t > a + kickWait s then s
      else
        let s := if t = a + kickWait s then bump .hbNear 0 s else s
        let over_ := s.hb.handover
        let lock := s.hb.lockstep
        let old := 1 - s.hb.activePair.val
        let s := modHb (fun h => { h with lastKick := t, stallAt := none, handover := false, lockstep := false }) s
        if !over_ then s
        else if lock then raise { code := 0x0102, cls := .degraded, block := pairBlock old } s
        else raise { code := 0x0101, cls := .degraded, block := 165 } s
    | none =>
      let s := if t = s.hb.lastKick + 1000000 && !s.sec.paused then bump .hbNear 0 s else s
      modHb (fun h => { h with lastKick := t }) s

/-- Fence the active pair and hand over to the standby pair (R667 step W1, R668): the former active pair reloads within 240 ms. -/
def handOverPair (lock : Bool) (s : State) : State :=
  let t := now s
  modHb (fun h => { h with activePair := 1 - h.activePair, standbyHealthy := false, stallSeen := true, stallAt := some t, handover := true, lockstep := lock, reloadAt := some (t + 240000000) }) s

/-- A takeover in hand is given up when its pair is needed or lost (R583). -/
def dropUpdate (s : State) : State :=
  if s.sec.takeover = 6 then modSec (fun y => { y with updating := false, takeover := 0 }) s else abandonUpdate .timeout 0 s

/-- FIRMWARE_STALL (R574, R665, R667): 1 ms without a kick, or a management pause of more than 10 ms. -/
def firmwareStall (s : State) : State :=
  let t := now s
  let due := if s.sec.paused then decide (t > s.sec.pausedAt + 10000000) else decide (t ≥ s.hb.lastKick + 1000000)
  if !settRuns s || !s.hb.running || s.hb.stallAt.isSome || s.hb.stopAt.isSome || !due then s
  else if s.hb.standbyHealthy then handOverPair false (dropUpdate s)
  else modHb (fun h => { h with stallSeen := true, stallAt := some t, handover := false, lockstep := false }) s

/-- HBEAT_STOP (R663, R667 step W3): the wait has passed without a kick. -/
def hbeatStop (s : State) : State :=
  let t := now s
  match s.hb.stallAt with
  | some a => if settRuns s && s.hb.stopAt.isNone && t ≥ a + kickWait s then modHb (fun h => { h with running := false, level := false, stopAt := some t }) s else s
  | none => s

/-- WATCHDOG_WARM_START (R667 step W4): 20 ms after HBEAT stopped. -/
def watchdogDue (s : State) : State :=
  match s.hb.stopAt with
  | some a => if now s ≥ a + 20000000 then watchdogStart s else s
  | none => s

/-- A lockstep error of the pair in control (R583, R668, R694). -/
def lockActive (s : State) : State :=
  let t := now s
  let p := s.hb.activePair.val
  let fresh := match s.hb.stallAt with
    | some a => s.hb.handover && !s.hb.lockstep && decide (t ≤ a + 10000)
    | none => false
  if fresh then
    raise { code := 0x0103, cls := .degraded, block := pairBlock p } (modHb (fun h => { h with activePair := 1 - h.activePair, handover := false }) s)
  else if s.sec.takeover = 3 || s.sec.takeover = 4 then
    let s := raise { code := 0x0102, cls := .degraded, block := pairBlock p } s
    modHb (fun h => { h with stallSeen := true }) (modSec (fun y => { y with takeover := 4, paused := true, pausedAt := if y.paused then y.pausedAt else t }) s)
  else if s.hb.standbyHealthy then handOverPair true (dropUpdate s)
  else if s.dev.st == .hibernate then s
  else
    let s := watchdogStart s
    raise { code := 0x0102, cls := .degraded, block := pairBlock p } s

/-- A lockstep error of the standby pair (R668): it reloads the active bank's runtime. -/
def lockStandby (p : Nat) (s : State) : State :=
  let t := now s
  let s := modHb (fun h => { h with standbyHealthy := false, reloadAt := some (t + 240000000) }) (dropUpdate s)
  raise { code := 0x0103, cls := .degraded, block := pairBlock p } s

/-- LOCKSTEP_ERROR (R668): a pair that runs compares its two cores (DEDUCED, assumption 90). -/
def lockstepError (p : Nat) (s : State) : State :=
  if !settRuns s || !(kRuns s 8 || kDone s 8) then s
  else if p = s.hb.activePair.val then lockActive s
  else lockStandby p s

/-- STANDBY_RELOAD_DONE (R668): the standby pair is healthy and runs the active bank's version. -/
def standbyReload (s : State) : State :=
  if settRuns s && s.hb.reloadAt.isSome && pairPowered s (1 - s.hb.activePair.val) then
    let v := s.sec.fwActive
    modSec (fun y => { y with fwStandby := v }) (modHb (fun h => { h with standbyHealthy := true, reloadAt := none }) s)
  else s

/-- HBEAT_PERIOD (R662): HBEAT rises at each multiple of 1,000,000 ns, where HB_COUNT advances, and falls 500,000 ns later (DEDUCED, assumption 86). -/
def hbeatPeriod (s : State) : State :=
  let ph := now s % 1000000
  if !settRuns s || !s.hb.running then s
  else if ph ≤ 1 && !s.hb.level then modHb (fun h => { h with level := true, count := h.count + 1 }) s
  else if 500000 ≤ ph && ph ≤ 500001 && s.hb.level then modHb (fun h => { h with level := false }) s
  else s

/-- HEARTBEAT_KICK. -/
def execHeartbeatKick (s : State) : Host.Outcome State Fault Refusal := finishStep (kick s)
/-- FIRMWARE_STALL. -/
def execFirmwareStall (s : State) : Host.Outcome State Fault Refusal := finishStep (firmwareStall s)
/-- HBEAT_STOP. -/
def execHbeatStop (s : State) : Host.Outcome State Fault Refusal := finishStep (hbeatStop s)
/-- WATCHDOG_WARM_START. -/
def execWatchdogWarmStart (s : State) : Host.Outcome State Fault Refusal := finishStep (watchdogDue s)
/-- LOCKSTEP_ERROR. -/
def execLockstepError (pair : Fin 2) (s : State) : Host.Outcome State Fault Refusal := finishStep (lockstepError pair.val s)
/-- STANDBY_RELOAD_DONE. -/
def execStandbyReloadDone (s : State) : Host.Outcome State Fault Refusal := finishStep (standbyReload s)
/-- HBEAT_PERIOD. -/
def execHbeatPeriod (s : State) : Host.Outcome State Fault Refusal := finishStep (hbeatPeriod s)

end Sys2Proof.Machine
end

