-- ==== Sys2Proof/Machine/Lease.lean ====
section
/-! DEFINITION. Every command by its opcode, the commit of a lease, and the dispatch of posted commands (R487, R498, R506 to R510, R513, R517, R528, R530). -/

namespace Sys2Proof.Machine

/-- The commands of groups 0x01 to 0x04 but the lease commit (R517). -/
def specsA : List CmdSpec :=
  [specIdentify, specDeviceStatus, specTransition, specReset, specGpio, specPortConfigure, specPortEnable, specPortDisable, specPortStatus, specPortRetrain, specPortPower, specFreeze, specRouteSet, specMcastCreate, specMcastUpdate, specMcastDestroy, specTenantCreate, specTenantSet, specTenantDestroy, specTenantRead, specBindCreate, specBindDestroy, specBindRead, specBindMode, specBindApprove, specBindRefuse, specBindReinstate, specSliceCreate, specSliceSet, specSliceDestroy, specSliceRead]

/-- The commands of groups 0x05 to 0x08 but the lease commit (R517). -/
def specsB : List CmdSpec :=
  [specSetCreate, specSetDestroy, specRuleWrite, specGateCommit, specGateConfigure, specDefaultSet, specGateStatus, specLeaseTake, specLeaseRelease, specQueueMap, specBufferSet, specRedSet, specMeterCreate, specMeterSet, specMeterDestroy, specMeterAttach, specShaperSet, specShaperClear, specTgWrite, specTgCommit, specCohConfigure, specCohEntryRead, specCohDreyPolicy, specCohDreyFlush, specCohHbmScrub, specCohHbmStatus, specCohRegionRetire, specHoardConfigure, specHoardStatus, specHoardDirtyCap, specHoardJournalSet, specHoardJournalRead]

/-- The commands of groups 0x09 to 0x0F (R517). -/
def specsC : List CmdSpec :=
  [specTimeConfigure, specTimeSet, specTimeStatus, specDomainSet, specDomainStatus, specClkobs, specLogRead, specLogStatus, specSubscribe, specCounterRead, specGroupCreate, specGroupDestroy, specFwStage, specFwActivate, specTableLoad, specAttest, specUnlock, specOwnerKey, specPrbs, specPrbsStop, specEyescan, specSurvey, specSurveyRead, specCageSet, specCageStatus]

/-- The command that an opcode names in a list. -/
def specIn (l : List CmdSpec) (op : Nat) : Option CmdSpec := l.find? (fun c => c.op == op)

/-- The request context of a staged command, with the state as its checks see it: a reserved index counts as the free one that the creation takes (R487). -/
def stagedView (x : Staged) (s : State) : State := if x.reserved = 0 then s else freeIndex (hType x.reserved) (hIdx x.reserved) s

/-- Checks 6 and 8 to 10 of R513 again as a staged command is applied: what it named may have gone since (DEDUCED, assumption 92). -/
def recheck (c : CmdSpec) (x : Staged) (s : State) : Option (Status × Nat × Handle) :=
  match firstHandle s (c.handles x.payload) with
  | some st => some (st, 0, 0)
  | none =>
    if !stateServes s c x.req.route x.payload || !c.state s x.req.route x.payload then some (.badState, 0, 0)
    else match c.held s x.req.route x.payload with
      | some h => some (.conflict, 0, h)
      | none => if c.cap (stagedView x s) x.req.route x.payload then none else some (.noResource, 0, 0)

/-- Apply staged commands in the order they were staged: all of them, or none and the first failure (R487). -/
def applyStaged (l : List CmdSpec) : List Staged → List Wait → State → CmdOut × State
  | [], w, s => ({ waits := w }, s)
  | x :: r, w, s =>
    match specIn l x.opcode with
    | none => ({ status := .badState }, s)
    | some c => match recheck c x s with
      | some (st, d, h) => ({ status := st, detail := d, related := h }, s)
      | none =>
        let (o, s) := executeCmd c { q := x.req, reserved := x.reserved } x.payload s
        if o.status == .ok || o.status == .partialDone then applyStaged l r (w ++ o.waits) s
        else ({ status := o.status, detail := o.detail, related := o.related }, s)

/-- `gate.lease_commit` over a list of commands that it may apply (R487): while one runs, another of the same lease is refused with BUSY. -/
def commitSpec (l : List CmdSpec) : CmdSpec :=
  { op := 0x0511, who := fun s r p => leaseOwn s r (handleAt p 0), args := fun _ p => [lenIs p 4], handles := fun p => oneHandle p 10, run := fun _ p s =>
      let h := handleAt p 0
      let x := tget s.ten.leases (hIdx h)
      if x.committing then ({ status := .busy, h1 := h }, s)
      else
        let (o, s) := applyStaged l x.staged [] (modTen (fun t => { t with leases := tmod t.leases (hIdx h) (fun y => { y with staged := [], committing := true, named := now s }) }) s)
        ({ o with h1 := h, waits := o.waits ++ [.gateLease h] }, s) }

/-- Every command but the lease commit (R517). -/
def specsBase : List CmdSpec := specsA ++ specsB ++ specsC

/-- `gate.lease_commit`; a staged commit of another lease applies what that lease staged. -/
def specLeaseCommit : CmdSpec := commitSpec (specsBase ++ [commitSpec specsBase])

/-- Every command of the device (R517). -/
def specs : List CmdSpec := specsBase ++ [specLeaseCommit]

/-- GATE_LEASE_COMMIT. -/
def execGateLeaseCommit (q : Req) (p : Bytes) (s : State) : Host.Outcome State Fault Refusal := finishStep (runCmd specLeaseCommit q p s)

/-- Byte offset of the request of a PE slot in BAR2 (R506). -/
def slotBase (k : Nat) : Nat := k * 0x200000

/-- The largest request payload of a route (R497). -/
def requestLimit : Route → Nat
  | .pe _ => 1048512
  | .i3c _ _ => 4096
  | .tenant _ => 1856
  | .firmware _ => 0

/-- The request that a header opens (R510). -/
def reqOf (r : Route) (h : Bytes) : Req :=
  { route := r, flags := BitVec.ofNat 8 (fieldAt h 3 1), seq := BitVec.ofNat 32 (fieldAt h 4 4), lease := handleAt h 12, deadline := BitVec.ofNat 64 (fieldAt h 16 8), cap := BitVec.ofNat 32 (fieldAt h 24 4) }

/-- Check 1 of R513: the version, the payload length and RCHK. -/
def headerOk (r : Route) (h pay : Bytes) : Bool :=
  fieldAt h 2 1 == 1 && decide (fieldAt h 8 4 ≤ requestLimit r) && decide (pay.length = fieldAt h 8 4)
    && (crc32c (h.take 60 ++ pay)).toNat == fieldAt h 60 4

/-- A command whose header's reserved bytes 28 to 59 are checked with its fields (R510, R513). -/
def withHeader (h : Bytes) (c : CmdSpec) : CmdSpec := { c with args := fun s p => (28, fieldAt h 28 32 == 0) :: c.args s p }

/-- A request that starts: its header and payload, through every check to its execution (R508, R509, R513). -/
def startRequest (r : Route) (h pay : Bytes) (s : State) : State :=
  let q := reqOf r h
  let op := fieldAt h 0 2
  if !headerOk r h pay then refuseCmd op q .invalidArg 0 0 (countRate r s)
  else match specIn specs op with
    | none => refuseCmd op q .unsupported 0 0 (countRate r s)
    | some c => runCmd (withHeader h c) q pay s

/-- The payload that a header announces, cut at the route's limit (R497, R506, R530). -/
def payLen (r : Route) (h : Bytes) : Nat := min (fieldAt h 8 4) (requestLimit r)

/-- The header and payload of a PE slot (R506). -/
def slotRequest (s : State) (k : Nat) : Bytes × Bytes :=
  let h := memRead s.mbx.bar2 (slotBase k) 64
  (h, memRead s.mbx.bar2 (slotBase k + 64) (min (fieldAt h 8 4) 1048512))

/-- The header and payload of a tenant mailbox (R530). -/
def tenRequest (m : TenMbx) : Bytes × Bytes :=
  let h := memRead m.cells 0 64
  (h, memRead m.cells 64 (min (fieldAt h 8 4) 1856))

/-- The header and payload of an I3C request, after the vendor ID (R528). -/
def i3cRequest (x : I3cReq) : Bytes × Bytes := (x.bytes.take 64, (x.bytes.drop 64).take (fieldAt x.bytes 8 4))

/-- Start the first command of the PE queue (R498, R507). -/
def startPe (s : State) : State :=
  match s.cmd.peQueue with
  | [] => s
  | k :: r =>
    let (h, pay) := slotRequest s k
    let s := modMbx (fun m => { m with slots := tset m.slots k .running }) (modCmd (fun c => { c with peQueue := r }) s)
    startRequest (.pe (Fin.ofNat 16 k)) h pay s

/-- Start the first command of the I3C queue (R498, R528). -/
def startI3c (s : State) : State :=
  match s.i3c.queue with
  | [] => s
  | x :: r =>
    let (h, pay) := i3cRequest x
    startRequest (.i3c x.eid x.tag) h pay { s with i3c := { s.i3c with queue := r } }

/-- Start the first command of the tenant queue (R498, R532). -/
def startTenant (s : State) : State :=
  match s.cmd.tenQueue with
  | [] => s
  | i :: r =>
    let m := tget s.ten.mbxs i
    let (h, pay) := tenRequest m
    let s := modMail i (fun m => { m with run := true }) (modCmd (fun c => { c with tenQueue := r }) s)
    startRequest (.tenant m.origin) h pay s

/-- A queue that holds a posted command: 0 PE, 1 I3C, 2 tenants. -/
def queueWaits (s : State) (q : Nat) : Bool :=
  if q = 0 then !s.cmd.peQueue.isEmpty else if q = 1 then !s.i3c.queue.isEmpty else !s.cmd.tenQueue.isEmpty

/-- The queue whose turn it is (R498). -/
def nextQueue (s : State) : Option Nat := ([0, 1, 2].map (fun k => (s.cmd.turn + k) % 3)).find? (queueWaits s)

/-- COMMAND_DISPATCH (R498): at most eight commands run; the queues take turns. -/
def dispatch (s : State) : State :=
  if !commandsRun s || s.cmd.running.length ≥ 8 then s
  else match nextQueue s with
    | none => s
    | some q =>
      let s := modCmd (fun c => { c with turn := (q + 1) % 3 }) s
      if q = 0 then startPe s else if q = 1 then startI3c s else startTenant s

/-- The header of a request that a route has posted, when it waits in its queue. -/
def postedHeader (s : State) : Route → Option Bytes
  | .pe k => if s.cmd.peQueue.contains k.val then some (slotRequest s k.val).1 else none
  | .i3c e t => (s.i3c.queue.find? (fun x => x.eid == e && x.tag == t)).map (fun x => (i3cRequest x).1)
  | .tenant b => match s.cmd.tenQueue.find? (fun i => (tget s.ten.mbxs i).origin == b) with
    | some i => some (tenRequest (tget s.ten.mbxs i)).1
    | none => none
  | .firmware _ => none

/-- Take a posted request out of its queue. -/
def unpost (r : Route) (s : State) : State :=
  match r with
  | .pe k => modMbx (fun m => { m with slots := tset m.slots k.val .running }) (modCmd (fun c => { c with peQueue := c.peQueue.erase k.val }) s)
  | .i3c e t => { s with i3c := { s.i3c with queue := s.i3c.queue.filter (fun x => !(x.eid == e && x.tag == t)) } }
  | .tenant b => modCmd (fun c => { c with tenQueue := c.tenQueue.filter (fun i => (tget s.ten.mbxs i).origin != b) }) s
  | .firmware _ => s

/-- COMMAND_DEADLINE (R510, R514): a posted command whose Deadline has passed completes with TIMEOUT (DEDUCED, assumption 95). -/
def deadlinePassed (r : Route) (s : State) : State :=
  match postedHeader s r with
  | none => s
  | some h =>
    let q := reqOf r h
    if commandsRun s && q.deadline != 0 && decide (q.deadline.toNat < ftCount s) then refuseCmd (fieldAt h 0 2) q .timeout 0 0 (unpost r s)
    else s

/-- MCTP_REQUEST (R497, R528): a request past the fourth outstanding is discarded and counted; one that does not open with the vendor ID is not for this protocol (DEDUCED, assumption 94). -/
def mctpRequest (eid tag : Byte) (body : Bytes) (s : State) : State :=
  if !fwRuns s || fieldAt body 0 2 ≠ s.fuses.vendor.toNat then s
  else if s.i3c.queue.length + (s.cmd.running.filter (fun r => isBmc r.req.route)).length ≥ 4 then bump .i3cDisc 0 s
  else { s with i3c := { s.i3c with queue := s.i3c.queue ++ [{ eid := eid, tag := tag, bytes := body.drop 2 }] } }

/-- COMMAND_DISPATCH. -/
def execCommandDispatch (s : State) : Host.Outcome State Fault Refusal := finishStep (dispatch s)
/-- COMMAND_DEADLINE. -/
def execCommandDeadline (r : Route) (s : State) : Host.Outcome State Fault Refusal := finishStep (deadlinePassed r s)
/-- MCTP_REQUEST. -/
def execMctpRequest (eid tag : Byte) (body : Bytes) (s : State) : Host.Outcome State Fault Refusal := finishStep (mctpRequest eid tag body s)
/-- DYNAMIC_ADDRESS_ASSIGNMENT (R527): the I3C target answers whenever the Sett runs. -/
def execDynamicAddressAssignment (addr : BitVec 7) (s : State) : Host.Outcome State Fault Refusal :=
  finishStep (if settRuns s then { s with i3c := { s.i3c with dynAddr := some addr } } else s)

end Sys2Proof.Machine
end

