-- ==== Sys2Proof/Machine/Mailbox.lean ====
section
/-! DEFINITION. The registers of BAR0 and BAR2 that have effects, the MSI-X masks, and what resets or loses the PE endpoint (R5, R7, R378, R488, R499 to R508, R544, R617, R647, R682). -/

namespace Sys2Proof.Machine

/-- The PE endpoint answers: its power domain is up (R504, R587 step K1). -/
def peUp (s : State) : Bool := s.dev.st != .off && (domOf s 153).st != .off

/-- Dizal takes doorbells: PE is up, the device is not in Grave, and no recovery mode waits for images (R504, R561). -/
def takesDoorbells (s : State) : Bool := peUp s && s.dev.st != .grave && !(s.start.kind == 4 && !kDone s 5)

/-- One bit of MBX_DOORBELL (R507). -/
def ringSlot (s : State) (k : Nat) : State :=
  if tget s.mbx.slots k == .free then
    modCmd (fun c => { c with peQueue := c.peQueue ++ [k] }) (modMbx (fun m => { m with slots := tset m.slots k .posted }) s)
  else bump .ignDoorbell 0 (modMbx (fun m => { m with ignored := m.ignored + 1 }) s)

/-- A write of MBX_DOORBELL (R504, R507): its bits are taken in rising slot order. -/
def doorbell (v : BitVec 32) (s : State) : State :=
  if takesDoorbells s then ((List.range 16).filter (fun k => v.getLsbD k)).foldl ringSlot s else s

/-- One bit of MBX_DONE (R507). -/
def clearDone (s : State) (k : Nat) : State :=
  if tget s.mbx.slots k == .done then modMbx (fun m => { m with slots := tset m.slots k .free }) s else s

/-- A write of MBX_DONE (R507, DEDUCED, assumption 93). -/
def doneWrite (v : BitVec 32) (s : State) : State :=
  if peUp s then ((List.range 16).filter (fun k => v.getLsbD k)).foldl clearDone s else s

/-- The running total of ignored doorbells goes back to 0; its WRAP bit stays (R543, R683). -/
def clearIgnored (s : State) : State :=
  let k := ctrKey .ignDoorbell 0 0
  { s with ctr := { s.ctr with vals := tset s.ctr.vals k (BitVec.ofNat 41 ((tget s.ctr.vals k).toNat / 2 ^ 40 * 2 ^ 40)) } }

/-- A read of MBX_IGNORED (R502): it returns the count of ignored doorbells and clears it, the running total of R543 with it; the counter's WRAP bit stays (DEDUCED, assumption 135). -/
def ignoredRead (s : State) : State :=
  if peUp s then emit (.regRead s.mbx.ignored.toNat) (clearIgnored (modMbx (fun m => { m with ignored := 0 }) s)) else s

/-- A write of MBX_EVT_CONS (R502, R505). -/
def evtCons (v : BitVec 32) (s : State) : State :=
  if peUp s then
    let s := modMbx (fun m => { m with evtCons := v }) s
    if s.mbx.evtProd != s.mbx.evtCons then msix 1 s else s
  else s

/-- A read of FT_NOW_LO latches the count (R378). -/
def nowRead (s : State) : State :=
  if peUp s then emit (.regRead (ftCount s % 2 ^ 32)) { s with io := { s.io with nowHi := BitVec.ofNat 32 (ftCount s / 2 ^ 32) } } else s

/-- A read of FT_EPOCH_LO latches the rest of the epoch registers (R378). -/
def epochRead (s : State) : State :=
  if peUp s then
    let e := s.hoard.epoch
    let d := s.hoard.durable
    emit (.regRead (e % 2 ^ 32)) { s with io := { s.io with epochHi := BitVec.ofNat 32 (e / 2 ^ 32), durLo := BitVec.ofNat 32 d, durHi := BitVec.ofNat 32 (d / 2 ^ 32) } }
  else s

/-- A read of SIC_GRAVE_TIME_LO latches g0 (R682). -/
def graveTimeRead (s : State) : State :=
  if peUp s then
    let t := s.grave.time
    emit (.regRead (t.toNat % 2 ^ 32)) { s with grave := { s.grave with latched := t } }
  else s

/-- MSIX_UNMASK (R544): a pending vector is sent. -/
def unmask (v : Nat) (s : State) : State :=
  let s := modMbx (fun m => { m with masked := m.masked &&& ~~~(1#64 <<< v) }) s
  if s.mbx.pba.getLsbD v then msix v (modMbx (fun m => { m with pba := m.pba &&& ~~~(1#64 <<< v) }) s) else s

/-- A word of the MSI-X table (R501): bit 0 of an entry's last word masks its vector (PRESUMED, assumption 30). -/
def msixWord (off : Nat) (v : BitVec 32) (s : State) : State :=
  let vec := (off - 0xE000) / 16
  if off % 16 = 12 then
    if v.getLsbD 0 then modMbx (fun m => { m with masked := m.masked ||| (1#64 <<< vec) }) s else unmask vec s
  else modMbx (fun m => { m with msixTable := memWrite m.msixTable (off - 0xE000) (leBytes 4 v.toNat) }) s

/-- The clock domains whose bit a write of a W1C register sets. -/
def clearClks (v : BitVec 32) (g : ClkSt → ClkSt) (s : State) : State :=
  ((List.range 25).filter (fun c => v.getLsbD c)).foldl (fun s c => modClk c g s) s

/-- A write to a register of BAR0 with no behaviour of its own (R5, R7, R501): the W1C and RW fields take it, everything else ignores it. -/
def bar0Write (off : Nat) (v : BitVec 32) (s : State) : State :=
  if off = 0x104 then (if v.getLsbD 2 then modHb (fun h => { h with stallSeen := false }) s else s)
  else if off = 0x20C then modMbx (fun m => { m with irqEn := v.truncate 16 }) s
  else if off = 0x808 then (if v.getLsbD 9 then { s with ft := { s.ft with stepped := false } } else s)
  else if 0x1000 ≤ off && off < 0x1000 + 157 * 16 && off % 16 = 8 then
    modDom ((off - 0x1000) / 16) (fun d => { d with errs := d.errs - (d.errs &&& (v.toNat % 4)) }) s
  else if off = 0x2004 then clearClks v (fun c => { c with loss := false }) s
  else if off = 0x2008 then clearClks v (fun c => { c with hung := false }) s
  else if 0xE000 ≤ off && off < 0xE400 then msixWord off v s
  else s

/-- REGISTER_WRITE: 32 bits at an aligned offset of BAR0 or BAR2 (R7, R501, R506). -/
def registerWrite (bar2 : Bool) (off : Nat) (v : BitVec 32) (s : State) : State :=
  if !peUp s || off % 4 ≠ 0 then s
  else if bar2 then (if off < 0x2000000 then modMbx (fun m => { m with bar2 := memWrite m.bar2 off (leBytes 4 v.toNat) }) s else s)
  else bar0Write off v s

/-- The PE_ and MBX_ registers go to their reset values, and POSTED slots are discarded unexecuted; a RUNNING command goes on, but its completion is discarded (R500, R544). -/
def resetEndpoint (s : State) : State :=
  let s := modMbx (fun m => { bar2 := m.bar2 }) s
  modCmd (fun c => { c with peQueue := [], running := c.running.map (fun r => { r with discard := r.discard || isFm r.req.route }) }) s

/-- PE_PERST_N asserts (R488, R500, R526, R544): the fabric manager is lost too. -/
def endpointReset (s : State) : State := if s.dev.st = .off then s else originLost isFm (resetEndpoint s)

/-- The PE link goes down (R488, R526). -/
def peLinkLost (s : State) : State := if s.dev.st = .off then s else originLost isFm s

/-- TRST_N (R617): PD_DBG is On while it is high. -/
def trstChange (level : Bool) (s : State) : State :=
  let s := { s with pwr := { s.pwr with trstN := level } }
  if s.dev.st = .off then s else (requestDomain 155 (if level then .on else .off) false s).2

/-- MBX_DOORBELL_WRITE. -/
def execMbxDoorbellWrite (v : BitVec 32) (s : State) : Host.Outcome State Fault Refusal := finishStep (doorbell v s)
/-- MBX_DONE_CLEAR. -/
def execMbxDoneClear (v : BitVec 32) (s : State) : Host.Outcome State Fault Refusal := finishStep (doneWrite v s)
/-- MBX_IGNORED_READ. -/
def execMbxIgnoredRead (s : State) : Host.Outcome State Fault Refusal := finishStep (ignoredRead s)
/-- MBX_EVT_CONS_WRITE. -/
def execMbxEvtConsWrite (v : BitVec 32) (s : State) : Host.Outcome State Fault Refusal := finishStep (evtCons v s)
/-- FT_NOW_LO_READ. -/
def execFtNowLoRead (s : State) : Host.Outcome State Fault Refusal := finishStep (nowRead s)
/-- FT_EPOCH_LO_READ. -/
def execFtEpochLoRead (s : State) : Host.Outcome State Fault Refusal := finishStep (epochRead s)
/-- SIC_GRAVE_TIME_LO_READ. -/
def execSicGraveTimeLoRead (s : State) : Host.Outcome State Fault Refusal := finishStep (graveTimeRead s)
/-- REGISTER_WRITE. -/
def execRegisterWrite (bar2 : Bool) (off : Nat) (v : BitVec 32) (s : State) : Host.Outcome State Fault Refusal := finishStep (registerWrite bar2 off v s)
/-- MSIX_UNMASK. -/
def execMsixUnmask (vec : Fin 64) (s : State) : Host.Outcome State Fault Refusal := finishStep (if peUp s then unmask vec.val s else s)
/-- PE_PERST_N_ASSERT. -/
def execPePerstNAssert (s : State) : Host.Outcome State Fault Refusal := finishStep (endpointReset s)
/-- FUNCTION_LEVEL_RESET (R488, R500): the fabric manager is not lost (DEDUCED, assumption 96). -/
def execFunctionLevelReset (s : State) : Host.Outcome State Fault Refusal := finishStep (if s.dev.st = .off then s else resetEndpoint s)
/-- PE_LINK_DOWN. -/
def execPeLinkDown (s : State) : Host.Outcome State Fault Refusal := finishStep (peLinkLost s)
/-- TRST_N_CHANGE. -/
def execTrstNChange (level : Bool) (s : State) : Host.Outcome State Fault Refusal := finishStep (trstChange level s)

end Sys2Proof.Machine
end

