-- ==== Sys2Proof/Machine/Debug.lean ====
section
/-! DEFINITION. Debug masters and locked regions (R301, R332, R490 to R492, R582). -/

namespace Sys2Proof.Machine

/-- The scope of the debug unlock in force (R579): bit 0 opens locked regions, bit 1 lets a standby core halt. -/
def unlockScope (s : State) : Nat := (s.sec.unlock.map (·.1)).getD 0

/-- A debug master can access: the memory-access port in a powered debug domain, or a halted core of the standby pair (R490, R579, R617). -/
def debugLives (m : DebugMaster) (s : State) : Bool :=
  s.dev.st != .off && (match m with
    | .jtag => (domOf s 155).st == .on
    | .core n => bitOf (unlockScope s) 1 && decide (n.val / 2 ≠ s.hb.activePair.val))

/-- A halted standby core makes its pair unhealthy (R582). -/
def haltCore (m : DebugMaster) (s : State) : State :=
  match m with
  | .jtag => s
  | .core _ => modHb (fun h => { h with standbyHealthy := false }) s

/-- A page lies in a journal range (R421, R490). -/
def inJournal (s : State) (a : Nat) : Bool :=
  s.journal.set_ && ((decide (s.journal.primAddr ≤ a) && decide (a < s.journal.primAddr + 2 ^ 28)) || (decide (s.journal.mirrAddr ≤ a) && decide (a < s.journal.mirrAddr + 2 ^ 28)))

/-- A page lies in a locked region (R490). -/
def lockedPage (s : State) : DebugTarget → Bool
  | .fabric a => inJournal s a || (match sliceAt s a with
    | some (_, r) => r.locked
    | none => false)
  | .hbm k a => decide (88 ≤ contentRegion s k.val (a / 2 ^ 28))

/-- The gate that checks a debug access to fabric memory: the home slice's for a coherent line, else that of the target's port (R466). -/
def debugGate (s : State) (a : Nat) : Option Nat :=
  match sliceAt s a with
  | none => none
  | some (_, r) => if r.coherent then some (homeSlice (a / 64)) else (targetLp s r.target).map (· + 16)

/-- A refused access to a locked page (R491): a record, up to 1,000 each second, and a count. -/
def debugRefuse (t : DebugTarget) (s : State) : State :=
  let page := match t with
    | .fabric a => a / 4096
    | .hbm _ a => a / 4096
  let g := match t with
    | .fabric a => (debugGate s a).getD 0
    | .hbm k _ => 4 * k.val
  let ts := slide (now s) 1000000000 s.ten.debugTimes
  let s := bump .gDebug g s
  if ts.length < 1000 then recordSecurity 0x0DFF 5 page (modTen (fun x => { x with debugTimes := now s :: ts }) s)
  else bump .debugBeyond 0 s

/-- The directory entry that 128 bits of the store hold (R301). -/
def entryOf (w : Nat) : DirEntry :=
  { la := bitsOf w 0 46, st := bitsOf w 46 4, coarse := bitOf w 50, nptr := bitsOf w 51 3, fidx := bitsOf w 54 2, fv := bitOf w 56, px := bitOf w 57, ref := bitOf w 58, shr := BitVec.ofNat 32 (bitsOf w 64 32), trk := bitsOf w 96 12, echk := BitVec.ofNat 16 (bitsOf w 112 16) }

/-- The slice and the key of the first of four entries at a directory address of a stack (R332). -/
def dirPlace (k a : Nat) : Nat × Nat := (4 * k + a / 2 ^ 31, a / 16 % 2 ^ 27)

/-- A directory set's SRAM copy is newer than the store (R355). -/
def setCached (s : State) (i key : Nat) : Bool := (tget (slOf s i).cached (key / 16 % 4096)).contains (key / 16)

/-- A line of a stack as a debug master reads it; what the model does not hold is a free value (R332, R338, R490). -/
def hbmRead (k a : Nat) (s : State) : Line × State :=
  let c := contentRegion s k (a / 2 ^ 28) * 2 ^ 28 + a % 2 ^ 28
  let (i, key) := dirPlace k c
  if c < 2 ^ 33 && !setCached s i key then
    let w := fun (j : Nat) => let e := dirAt s i (key + j); if e == default then 0 else entryWord e
    (BitVec.ofNat 512 (w 0 + w 1 * 2 ^ 128 + w 2 * 2 ^ 256 + w 3 * 2 ^ 384), s)
  else if 2 ^ 33 ≤ c && c < 88 * 2 ^ 28 && (tget (dreyOf s k).ways ((c - 2 ^ 33) / 64)).v then
    ((tget (dreyOf s k).ways ((c - 2 ^ 33) / 64)).data, s)
  else
    let (n, s) := drawFree s
    (BitVec.ofNat 512 n, s)

/-- A line of a stack as a debug master writes it: directory entries take the bits, a Drey way its data; what the tables and the log hold no longer checks. The word is stored with its side word (R301, R332, R334, R361). -/
def hbmWrite (k a : Nat) (d : Line) (s : State) : State :=
  let r := contentRegion s k (a / 2 ^ 28)
  let off := a % 2 ^ 28
  let c := r * 2 ^ 28 + off
  let m := if 32 ≤ r && r < 88 then wayMeta (tget (dreyOf s k).ways ((c - 2 ^ 33) / 64)) else 0
  let s := emit (.hbm k a d (sideWord d m)) s
  if r < 32 then
    let (i, key) := dirPlace k c
    if setCached s i key then s
    else (List.range 4).foldl (fun s j => modSl i (fun x => { x with dir := tset x.dir (key + j) (entryOf (bitsOf d.toNat (128 * j) 128)) }) s) s
  else if r < 88 then
    let key := (c - 2 ^ 33) / 64
    if (tget (dreyOf s k).ways key).v then modDrey k (fun x => { x with ways := tmod x.ways key (fun w => { w with data := d }) }) s else s
  else if r < 92 then badTableWord k (c - 88 * 2 ^ 28) s
  else badLogWord k (c - 92 * 2 ^ 28) s

/-- A line of fabric memory as a debug master reads it: the Drey's copy of a coherent line that nobody owns; what another holder or the memory device would answer is a free value. -/
def fabricRead (a : Nat) (s : State) : Line × State :=
  let l := a / 64
  let owned := match dirKey s (homeSlice l) l with
    | some key => decide ((dirAt s (homeSlice l) key).st ≥ 2)
    | none => false
  match dreyFind s l with
  | some w => if coherentLine s l && !owned then ((wayOf s (dreyCtl l) (dreySet l) w).data, s) else let (n, s) := drawFree s; (BitVec.ofNat 512 n, s)
  | none => let (n, s) := drawFree s; (BitVec.ofNat 512 n, s)

/-- A line of fabric memory as a debug master writes it: a coherent line is recalled from its holders and kept in the Drey; any other goes to its target. -/
def fabricWrite (a : Nat) (d : Line) (s : State) : State :=
  let l := a / 64
  if coherentLine s l then dreyPut l d true false 1 (recallLines (fun _ e => e.la == l) 256 s) else issueWrite l d false s

/-- An access that is not locked: checked as a privileged origin's at the gate that covers it (R491). -/
def debugOpen (t : DebugTarget) (write : Option Line) (s : State) : State :=
  match t with
  | .hbm k a => match write with
    | some d => hbmWrite k.val a d s
    | none => let (d, s) := hbmRead k.val a s; emit (.debug (some d)) s
  | .fabric a =>
    match debugGate s a with
    | none => if write.isSome then s else emit (.debug none) s
    | some g =>
      let (v, s) := gateCheck g (memFrame s (a / 64) (write.map (fun d => (d, false))) 0 0) s
      match v, write with
      | .pass, some d => fabricWrite a d s
      | .pass, none => let (d, s) := fabricRead a s; emit (.debug (some d)) s
      | _, some _ => s
      | _, none => emit (.debug none) s

/-- DEBUG_ACCESS (R490 to R492): a locked page reads all ones and ignores writes (DEDUCED, assumption 98). -/
def debugAccess (m : DebugMaster) (t : DebugTarget) (write : Option Line) (s : State) : State :=
  if !debugLives m s then s
  else
    let s := haltCore m s
    if lockedPage s t && !bitOf (unlockScope s) 0 then
      let s := debugRefuse t s
      if write.isSome then s else emit (.debug (some (BitVec.allOnes 512))) s
    else debugOpen t write s

/-- DEBUG_ACCESS. -/
def execDebugAccess (m : DebugMaster) (t : DebugTarget) (write : Option Line) (s : State) : Host.Outcome State Fault Refusal := finishStep (debugAccess m t write s)

end Sys2Proof.Machine
end

