-- ==== Sys2Proof/Machine/PageRows.lean ====
section
/-! DEFINITION. The operations on binding pages and on notices (R407 to R410, R462 to R465, R477, R531, R532). -/

namespace Sys2Proof.Machine

/-- A page access that finds the device in Drain (R18): nothing is served; a posted write loses what it held, with a notice (R173). -/
def pageGone (i : Nat) (posted : Bool) (s : State) : State :=
  if posted then addNotice (handleOf s 1 i) .unavailable 0 (epochNow s) s else emit (.page []) s

/-- A host reaches a page: through a port that is up (R180), on the binding that the page carries for its port and PASID, else as a miss of the kind given (R462). -/
def onPage (r : PageRef) (posted : Bool) (miss : State → State) (k : Nat → State → State) (s : State) : State :=
  if !settRuns s || !lpUp s r.lp.val then s
  else match pageBinding s r.lp.val r.pasid.toNat r.page with
    | none => miss s
    | some i => if takesRequests s then k i s else pageGone i posted s

/-- A miss by a write, and by a Den host's read, counts; a CXL host's read answers 0 (R462). -/
def missRead (r : PageRef) (len : Nat) (s : State) : State :=
  if isCxl s r.lp.val then emit (.page (zeros len)) s else bump .pageMiss 0 s

/-- MBX_NTC_CONS_WRITE (R464). -/
def execMbxNtcConsWrite (r : PageRef) (v : BitVec 32) (s : State) : Host.Outcome State Fault Refusal :=
  finishStep (onPage r true (bump .pageMiss 0) (fun i => writeCons i v) s)

/-- MBX_TEN_DB_WRITE (R532). -/
def execMbxTenDbWrite (r : PageRef) (v : BitVec 32) (s : State) : Host.Outcome State Fault Refusal :=
  finishStep (onPage r true (bump .pageMiss 0) (fun i => tenDoorbell i v) s)

/-- MBX_TEN_DONE_CLEAR (R531). -/
def execMbxTenDoneClear (r : PageRef) (v : BitVec 32) (s : State) : Host.Outcome State Fault Refusal :=
  finishStep (onPage r true (bump .pageMiss 0) (fun i => tenDone i v) s)

/-- DURABLE_EPOCH_BLOCK_READ (R410): a read of the block from an offset to its end. -/
def execDurableEpochBlockRead (r : PageRef) (off : Nat) (s : State) : Host.Outcome State Fault Refusal :=
  finishStep (onPage r false (missRead r (64 - off)) (fun i => pageRead i .host off (64 - off)) s)

/-- MESSAGE_WINDOW_WRITE (R465). -/
def execMessageWindowWrite (r : PageRef) (data : Bytes) (s : State) : Host.Outcome State Fault Refusal :=
  finishStep (onPage r true (bump .pageMiss 0) (fun i => messageWrite i data) s)

/-- BINDING_PAGE_ACCESS (R462). -/
def execBindingPageAccess (r : PageRef) (a : PageAcc) (s : State) : Host.Outcome State Fault Refusal :=
  finishStep (match a with
    | .read off len => onPage r false (missRead r len) (fun i => pageRead i .host off (min len (16384 - off))) s
    | .write off v posted => onPage r posted (bump .pageMiss 0) (fun i => pageWrite i off (leBytes 4 v.toNat) posted) s)

/-- NOTICE_POST (R477): an open notice of a binding, reason and rule set is posted 10 µs after its first event. -/
def execNoticePost (b : Handle) (why : Reason) (ruleSet : Handle) (s : State) : Host.Outcome State Fault Refusal :=
  finishStep (postOpen (fun n => n.binding == b && n.why == why && n.ruleSet == ruleSet && decide (n.first + 10000 ≤ now s)) s)

/-- POSTED_WRITE_ACK (R410, DESIGN CHOICE, assumption 70). -/
def execPostedWriteAck (b : Handle) (epoch : Nat) (s : State) : Host.Outcome State Fault Refusal :=
  finishStep (ackPosted b epoch s)

end Sys2Proof.Machine
end

