-- ==== Sys2Proof/Machine/Dispatch.lean ====
section
/-! DEFINITION. One arm per operation or event of the opcode table: the effect of a command on everything but the queue. -/

namespace Sys2Proof.Machine

/-- The effect of a command on everything but the queue (DEDUCED, assumption 33). -/
def exec (i : Instr) (s : State) : Host.Outcome State Fault Refusal :=
  match i with
  | .deviceIdentify q p => Sys2Proof.Machine.execDeviceIdentify q p s
  | .deviceStatus q p => Sys2Proof.Machine.execDeviceStatus q p s
  | .deviceTransition q p => Sys2Proof.Machine.execDeviceTransition q p s
  | .deviceReset q p => Sys2Proof.Machine.execDeviceReset q p s
  | .deviceGpio q p => Sys2Proof.Machine.execDeviceGpio q p s
  | .portConfigure q p => Sys2Proof.Machine.execPortConfigure q p s
  | .portEnable q p => Sys2Proof.Machine.execPortEnable q p s
  | .portDisable q p => Sys2Proof.Machine.execPortDisable q p s
  | .portStatus q p => Sys2Proof.Machine.execPortStatus q p s
  | .portRetrain q p => Sys2Proof.Machine.execPortRetrain q p s
  | .portPower q p => Sys2Proof.Machine.execPortPower q p s
  | .portFreeze q p => Sys2Proof.Machine.execPortFreeze q p s
  | .portRouteSet q p => Sys2Proof.Machine.execPortRouteSet q p s
  | .portMcastCreate q p => Sys2Proof.Machine.execPortMcastCreate q p s
  | .portMcastUpdate q p => Sys2Proof.Machine.execPortMcastUpdate q p s
  | .portMcastDestroy q p => Sys2Proof.Machine.execPortMcastDestroy q p s
  | .bindTenantCreate q p => Sys2Proof.Machine.execBindTenantCreate q p s
  | .bindTenantSet q p => Sys2Proof.Machine.execBindTenantSet q p s
  | .bindTenantDestroy q p => Sys2Proof.Machine.execBindTenantDestroy q p s
  | .bindTenantRead q p => Sys2Proof.Machine.execBindTenantRead q p s
  | .bindCreate q p => Sys2Proof.Machine.execBindCreate q p s
  | .bindDestroy q p => Sys2Proof.Machine.execBindDestroy q p s
  | .bindRead q p => Sys2Proof.Machine.execBindRead q p s
  | .bindMode q p => Sys2Proof.Machine.execBindMode q p s
  | .bindApprove q p => Sys2Proof.Machine.execBindApprove q p s
  | .bindRefuse q p => Sys2Proof.Machine.execBindRefuse q p s
  | .bindReinstate q p => Sys2Proof.Machine.execBindReinstate q p s
  | .sliceCreate q p => Sys2Proof.Machine.execSliceCreate q p s
  | .sliceSet q p => Sys2Proof.Machine.execSliceSet q p s
  | .sliceDestroy q p => Sys2Proof.Machine.execSliceDestroy q p s
  | .sliceRead q p => Sys2Proof.Machine.execSliceRead q p s
  | .gateSetCreate q p => Sys2Proof.Machine.execGateSetCreate q p s
  | .gateSetDestroy q p => Sys2Proof.Machine.execGateSetDestroy q p s
  | .gateRuleWrite q p => Sys2Proof.Machine.execGateRuleWrite q p s
  | .gateCommit q p => Sys2Proof.Machine.execGateCommit q p s
  | .gateConfigure q p => Sys2Proof.Machine.execGateConfigure q p s
  | .gateDefaultSet q p => Sys2Proof.Machine.execGateDefaultSet q p s
  | .gateStatus q p => Sys2Proof.Machine.execGateStatus q p s
  | .gateLeaseTake q p => Sys2Proof.Machine.execGateLeaseTake q p s
  | .gateLeaseCommit q p => Sys2Proof.Machine.execGateLeaseCommit q p s
  | .gateLeaseRelease q p => Sys2Proof.Machine.execGateLeaseRelease q p s
  | .trafficQueueMap q p => Sys2Proof.Machine.execTrafficQueueMap q p s
  | .trafficBufferSet q p => Sys2Proof.Machine.execTrafficBufferSet q p s
  | .trafficRedSet q p => Sys2Proof.Machine.execTrafficRedSet q p s
  | .trafficMeterCreate q p => Sys2Proof.Machine.execTrafficMeterCreate q p s
  | .trafficMeterSet q p => Sys2Proof.Machine.execTrafficMeterSet q p s
  | .trafficMeterDestroy q p => Sys2Proof.Machine.execTrafficMeterDestroy q p s
  | .trafficMeterAttach q p => Sys2Proof.Machine.execTrafficMeterAttach q p s
  | .trafficShaperSet q p => Sys2Proof.Machine.execTrafficShaperSet q p s
  | .trafficShaperClear q p => Sys2Proof.Machine.execTrafficShaperClear q p s
  | .trafficGateWrite q p => Sys2Proof.Machine.execTrafficGateWrite q p s
  | .trafficGateCommit q p => Sys2Proof.Machine.execTrafficGateCommit q p s
  | .cohConfigure q p => Sys2Proof.Machine.execCohConfigure q p s
  | .cohEntryRead q p => Sys2Proof.Machine.execCohEntryRead q p s
  | .cohDreyPolicy q p => Sys2Proof.Machine.execCohDreyPolicy q p s
  | .cohDreyFlush q p => Sys2Proof.Machine.execCohDreyFlush q p s
  | .cohHbmScrub q p => Sys2Proof.Machine.execCohHbmScrub q p s
  | .cohHbmStatus q p => Sys2Proof.Machine.execCohHbmStatus q p s
  | .cohRegionRetire q p => Sys2Proof.Machine.execCohRegionRetire q p s
  | .hoardConfigure q p => Sys2Proof.Machine.execHoardConfigure q p s
  | .hoardStatus q p => Sys2Proof.Machine.execHoardStatus q p s
  | .hoardDirtyCap q p => Sys2Proof.Machine.execHoardDirtyCap q p s
  | .hoardJournalSet q p => Sys2Proof.Machine.execHoardJournalSet q p s
  | .hoardJournalRead q p => Sys2Proof.Machine.execHoardJournalRead q p s
  | .timeConfigure q p => Sys2Proof.Machine.execTimeConfigure q p s
  | .timeSet q p => Sys2Proof.Machine.execTimeSet q p s
  | .timeStatus q p => Sys2Proof.Machine.execTimeStatus q p s
  | .powerDomainSet q p => Sys2Proof.Machine.execPowerDomainSet q p s
  | .powerDomainStatus q p => Sys2Proof.Machine.execPowerDomainStatus q p s
  | .powerClkobs q p => Sys2Proof.Machine.execPowerClkobs q p s
  | .logRead q p => Sys2Proof.Machine.execLogRead q p s
  | .logStatus q p => Sys2Proof.Machine.execLogStatus q p s
  | .logSubscribe q p => Sys2Proof.Machine.execLogSubscribe q p s
  | .counterGroupCreate q p => Sys2Proof.Machine.execCounterGroupCreate q p s
  | .counterGroupDestroy q p => Sys2Proof.Machine.execCounterGroupDestroy q p s
  | .counterRead q p => Sys2Proof.Machine.execCounterRead q p s
  | .secureTableLoad q p => Sys2Proof.Machine.execSecureTableLoad q p s
  | .secureFwStage q p => Sys2Proof.Machine.execSecureFwStage q p s
  | .secureFwActivate q p => Sys2Proof.Machine.execSecureFwActivate q p s
  | .secureAttest q p => Sys2Proof.Machine.execSecureAttest q p s
  | .secureUnlock q p => Sys2Proof.Machine.execSecureUnlock q p s
  | .secureOwnerKey q p => Sys2Proof.Machine.execSecureOwnerKey q p s
  | .diagPrbs q p => Sys2Proof.Machine.execDiagPrbs q p s
  | .diagPrbsStop q p => Sys2Proof.Machine.execDiagPrbsStop q p s
  | .diagEyescan q p => Sys2Proof.Machine.execDiagEyescan q p s
  | .diagSurvey q p => Sys2Proof.Machine.execDiagSurvey q p s
  | .diagSurveyRead q p => Sys2Proof.Machine.execDiagSurveyRead q p s
  | .cageSet q p => Sys2Proof.Machine.execCageSet q p s
  | .cageStatus q p => Sys2Proof.Machine.execCageStatus q p s
  | .mbxDoorbellWrite v => Sys2Proof.Machine.execMbxDoorbellWrite v s
  | .mbxDoneClear v => Sys2Proof.Machine.execMbxDoneClear v s
  | .mbxIgnoredRead => Sys2Proof.Machine.execMbxIgnoredRead s
  | .mbxEvtConsWrite v => Sys2Proof.Machine.execMbxEvtConsWrite v s
  | .mbxNtcConsWrite r v => Sys2Proof.Machine.execMbxNtcConsWrite r v s
  | .mbxTenDbWrite r v => Sys2Proof.Machine.execMbxTenDbWrite r v s
  | .mbxTenDoneClear r v => Sys2Proof.Machine.execMbxTenDoneClear r v s
  | .ftNowLoRead => Sys2Proof.Machine.execFtNowLoRead s
  | .ftEpochLoRead => Sys2Proof.Machine.execFtEpochLoRead s
  | .sicGraveTimeLoRead => Sys2Proof.Machine.execSicGraveTimeLoRead s
  | .registerWrite bar2 off v => Sys2Proof.Machine.execRegisterWrite bar2 off v s
  | .recoveryModeDoorbell v => Sys2Proof.Machine.execRecoveryModeDoorbell v s
  | .msixUnmask vec => Sys2Proof.Machine.execMsixUnmask vec s
  | .durableEpochBlockRead r off => Sys2Proof.Machine.execDurableEpochBlockRead r off s
  | .messageWindowWrite r data => Sys2Proof.Machine.execMessageWindowWrite r data s
  | .bindingPageAccess r a => Sys2Proof.Machine.execBindingPageAccess r a s
  | .commandDispatch => Sys2Proof.Machine.execCommandDispatch s
  | .commandDeadline r => Sys2Proof.Machine.execCommandDeadline r s
  | .mctpRequest eid tag body => Sys2Proof.Machine.execMctpRequest eid tag body s
  | .journalDeltaDurable seq primary mirror => Sys2Proof.Machine.execJournalDeltaDurable seq primary mirror s
  | .flashSummaryWrite => Sys2Proof.Machine.execFlashSummaryWrite s
  | .mediatedRequestTimeout ev => Sys2Proof.Machine.execMediatedRequestTimeout ev s
  | .leaseLapse h => Sys2Proof.Machine.execLeaseLapse h s
  | .evidenceExpiry r => Sys2Proof.Machine.execEvidenceExpiry r s
  | .challengeExpiry => Sys2Proof.Machine.execChallengeExpiry s
  | .unlockExpiry => Sys2Proof.Machine.execUnlockExpiry s
  | .takeoverStepDone => Sys2Proof.Machine.execTakeoverStepDone s
  | .warmReset => Sys2Proof.Machine.execWarmReset s
  | .offEntry => Sys2Proof.Machine.execOffEntry s
  | .drainRecordWritten => Sys2Proof.Machine.execDrainRecordWritten s
  | .porstNAssert lowNs => Sys2Proof.Machine.execPorstNAssert lowNs s
  | .coldStart => Sys2Proof.Machine.execColdStart s
  | .startStepDone k e => Sys2Proof.Machine.execStartStepDone k e s
  | .portWave d => Sys2Proof.Machine.execPortWave d s
  | .startQuarantineRetry p => Sys2Proof.Machine.execStartQuarantineRetry p s
  | .selfGrandmaster => Sys2Proof.Machine.execSelfGrandmaster s
  | .discoveryRoundStart => Sys2Proof.Machine.execDiscoveryRoundStart s
  | .probe lp m => Sys2Proof.Machine.execProbe lp m s
  | .report lp m => Sys2Proof.Machine.execReport lp m s
  | .discoveryDeadline => Sys2Proof.Machine.execDiscoveryDeadline s
  | .ready lp m => Sys2Proof.Machine.execReady lp m s
  | .pfailNFall => Sys2Proof.Machine.execPfailNFall s
  | .pfailNShortPulse => Sys2Proof.Machine.execPfailNShortPulse s
  | .hibernate => Sys2Proof.Machine.execHibernate s
  | .hibernateStepDone targets => Sys2Proof.Machine.execHibernateStepDone targets s
  | .hibernateRecordCommitted primary mirror => Sys2Proof.Machine.execHibernateRecordCommitted primary mirror s
  | .pfailNRise => Sys2Proof.Machine.execPfailNRise s
  | .vin12PowerFail => Sys2Proof.Machine.execVin12PowerFail s
  | .vin12Undervoltage => Sys2Proof.Machine.execVin12Undervoltage s
  | .graveClear => Sys2Proof.Machine.execGraveClear s
  | .vin12Return => Sys2Proof.Machine.execVin12Return s
  | .vaonLoss => Sys2Proof.Machine.execVaonLoss s
  | .pePerstNAssert => Sys2Proof.Machine.execPePerstNAssert s
  | .functionLevelReset => Sys2Proof.Machine.execFunctionLevelReset s
  | .trstNChange level => Sys2Proof.Machine.execTrstNChange level s
  | .debugAccess m t write => Sys2Proof.Machine.execDebugAccess m t write s
  | .prsntNChange p level => Sys2Proof.Machine.execPrsntNChange p level s
  | .intNLevel p level => Sys2Proof.Machine.execIntNLevel p level s
  | .laneLock lane headers => Sys2Proof.Machine.execLaneLock lane headers s
  | .laneLockLoss lane headers => Sys2Proof.Machine.execLaneLockLoss lane headers s
  | .laneRelockTimeout lane => Sys2Proof.Machine.execLaneRelockTimeout lane s
  | .alignmentMarker lp => Sys2Proof.Machine.execAlignmentMarker lp s
  | .codewordUncorrectable lane idx => Sys2Proof.Machine.execCodewordUncorrectable lane idx s
  | .denLinkUp lp marks inv skewNs => Sys2Proof.Machine.execDenLinkUp lp marks inv skewNs s
  | .hello lp m => Sys2Proof.Machine.execHello lp m s
  | .echo lp m => Sys2Proof.Machine.execEcho lp m s
  | .done lp m => Sys2Proof.Machine.execDone lp m s
  | .initTimeout lp => Sys2Proof.Machine.execInitTimeout lp s
  | .flitTransmit lp => Sys2Proof.Machine.execFlitTransmit lp s
  | .flitReceive lp first others => Sys2Proof.Machine.execFlitReceive lp first others s
  | .replayTimeout lp => Sys2Proof.Machine.execReplayTimeout lp s
  | .ackStallTimeout lp => Sys2Proof.Machine.execAckStallTimeout lp s
  | .linkDown lp => Sys2Proof.Machine.execLinkDown lp s
  | .electricalIdleEnd lp => Sys2Proof.Machine.execElectricalIdleEnd lp s
  | .probationEnd lp => Sys2Proof.Machine.execProbationEnd lp s
  | .failover lp m => Sys2Proof.Machine.execFailover lp m s
  | .failoverAbandon lp => Sys2Proof.Machine.execFailoverAbandon lp s
  | .failback lp m => Sys2Proof.Machine.execFailback lp m s
  | .failbackDone lp m => Sys2Proof.Machine.execFailbackDone lp m s
  | .failbackDestMove lp did => Sys2Proof.Machine.execFailbackDestMove lp did s
  | .retrainReq lp m => Sys2Proof.Machine.execRetrainReq lp m s
  | .retrainAccept lp m => Sys2Proof.Machine.execRetrainAccept lp m s
  | .widthReq lp m => Sys2Proof.Machine.execWidthReq lp m s
  | .widthAccept lp m => Sys2Proof.Machine.execWidthAccept lp m s
  | .withdraw lp m => Sys2Proof.Machine.execWithdraw lp m s
  | .retrainHoldRelease lp => Sys2Proof.Machine.execRetrainHoldRelease lp s
  | .dl1IdleTimeout lp => Sys2Proof.Machine.execDl1IdleTimeout lp s
  | .dl1Req lp m => Sys2Proof.Machine.execDl1Req lp m s
  | .dl1Ack lp m => Sys2Proof.Machine.execDl1Ack lp m s
  | .dl1Refuse lp m => Sys2Proof.Machine.execDl1Refuse lp m s
  | .dl2Req lp m => Sys2Proof.Machine.execDl2Req lp m s
  | .dl2Ack lp m => Sys2Proof.Machine.execDl2Ack lp m s
  | .dlExitDone lp => Sys2Proof.Machine.execDlExitDone lp s
  | .announceSend => Sys2Proof.Machine.execAnnounceSend s
  | .announce lp m => Sys2Proof.Machine.execAnnounce lp m s
  | .announceTimeout => Sys2Proof.Machine.execAnnounceTimeout s
  | .delayReqSend => Sys2Proof.Machine.execDelayReqSend s
  | .delayReq lp m => Sys2Proof.Machine.execDelayReq lp m s
  | .delayRsp lp m => Sys2Proof.Machine.execDelayRsp lp m s
  | .ftrefPpsEdge => Sys2Proof.Machine.execFtrefPpsEdge s
  | .ftrefLoss pps => Sys2Proof.Machine.execFtrefLoss pps s
  | .ftrefRestored => Sys2Proof.Machine.execFtrefRestored s
  | .epochBoundary => Sys2Proof.Machine.execEpochBoundary s
  | .epochFlushDone failed => Sys2Proof.Machine.execEpochFlushDone failed s
  | .noticePost b why ruleSet => Sys2Proof.Machine.execNoticePost b why ruleSet s
  | .postedWriteAck b epoch => Sys2Proof.Machine.execPostedWriteAck b epoch s
  | .requestClassify lp f arrived => Sys2Proof.Machine.execRequestClassify lp f arrived s
  | .cxlMessageIngress lp m => Sys2Proof.Machine.execCxlMessageIngress lp m s
  | .cxlLinkTrained lp rate t => Sys2Proof.Machine.execCxlLinkTrained lp rate t s
  | .cxlMemTimeout lp tag => Sys2Proof.Machine.execCxlMemTimeout lp tag s
  | .denResponseTimeout lp tag => Sys2Proof.Machine.execDenResponseTimeout lp tag s
  | .responseIngress lp f => Sys2Proof.Machine.execResponseIngress lp f s
  | .crossbarGrant a => Sys2Proof.Machine.execCrossbarGrant a s
  | .throttle f => Sys2Proof.Machine.execThrottle f s
  | .mergeTimeout id => Sys2Proof.Machine.execMergeTimeout id s
  | .freezeHoldExpiry p => Sys2Proof.Machine.execFreezeHoldExpiry p s
  | .routeHoldRelease did => Sys2Proof.Machine.execRouteHoldRelease did s
  | .egressDequeue lp => Sys2Proof.Machine.execEgressDequeue lp s
  | .shaperRefill => Sys2Proof.Machine.execShaperRefill s
  | .throttleRecovery b => Sys2Proof.Machine.execThrottleRecovery b s
  | .timeGateSlot lp => Sys2Proof.Machine.execTimeGateSlot lp s
  | .gateSwap lp => Sys2Proof.Machine.execGateSwap lp s
  | .ruleSwap ruleSet => Sys2Proof.Machine.execRuleSwap ruleSet s
  | .gateCommitDrained ruleSet => Sys2Proof.Machine.execGateCommitDrained ruleSet s
  | .bindDestroyProgress b => Sys2Proof.Machine.execBindDestroyProgress b s
  | .brockRequest sl lp f => Sys2Proof.Machine.execBrockRequest sl lp f s
  | .wbM sl lp f => Sys2Proof.Machine.execWbM sl lp f s
  | .evictE sl lp f => Sys2Proof.Machine.execEvictE sl lp f s
  | .evictS sl lp f => Sys2Proof.Machine.execEvictS sl lp f s
  | .snoopAnswer sl lp f => Sys2Proof.Machine.execSnoopAnswer sl lp f s
  | .snoopTimeout sl lp trk => Sys2Proof.Machine.execSnoopTimeout sl lp trk s
  | .memoryDataReturn sl trk r => Sys2Proof.Machine.execMemoryDataReturn sl trk r s
  | .memoryWriteComplete sl line => Sys2Proof.Machine.execMemoryWriteComplete sl line s
  | .lostAgentSweepDone sl lp => Sys2Proof.Machine.execLostAgentSweepDone sl lp s
  | .setCacheFill sl set ok => Sys2Proof.Machine.execSetCacheFill sl set ok s
  | .dreyCleaner k => Sys2Proof.Machine.execDreyCleaner k s
  | .dirtyCapHold k => Sys2Proof.Machine.execDirtyCapHold k s
  | .patrolScrub stack errors => Sys2Proof.Machine.execPatrolScrub stack errors s
  | .domainReady d => Sys2Proof.Machine.execDomainReady d s
  | .domainDwellEnd d => Sys2Proof.Machine.execDomainDwellEnd d s
  | .domainReadyTimeout d => Sys2Proof.Machine.execDomainReadyTimeout d s
  | .coreWfi pair mode => Sys2Proof.Machine.execCoreWfi pair mode s
  | .clockLoss c => Sys2Proof.Machine.execClockLoss c s
  | .clockSwitchHung c => Sys2Proof.Machine.execClockSwitchHung c s
  | .observedClockStop => Sys2Proof.Machine.execObservedClockStop s
  | .graveFault code block => Sys2Proof.Machine.execGraveFault code block s
  | .thermalSample junctions lids hbms => Sys2Proof.Machine.execThermalSample junctions lids hbms s
  | .heartbeatKick => Sys2Proof.Machine.execHeartbeatKick s
  | .firmwareStall => Sys2Proof.Machine.execFirmwareStall s
  | .hbeatStop => Sys2Proof.Machine.execHbeatStop s
  | .watchdogWarmStart => Sys2Proof.Machine.execWatchdogWarmStart s
  | .lockstepError pair => Sys2Proof.Machine.execLockstepError pair s
  | .standbyReloadDone => Sys2Proof.Machine.execStandbyReloadDone s
  | .sicSourceEdge src => Sys2Proof.Machine.execSicSourceEdge src s
  | .sicCoalesceTimeout src => Sys2Proof.Machine.execSicCoalesceTimeout src s
  | .sicArbitration => Sys2Proof.Machine.execSicArbitration s
  | .sicClaim pair => Sys2Proof.Machine.execSicClaim pair s
  | .sicComplete pair src => Sys2Proof.Machine.execSicComplete pair src s
  | .sicConfigWrite src w => Sys2Proof.Machine.execSicConfigWrite src w s
  | .bandwidthWindowEnd lp => Sys2Proof.Machine.execBandwidthWindowEnd lp s
  | .cageSample c mA mV => Sys2Proof.Machine.execCageSample c mA mV s
  | .cageFaultTimer c => Sys2Proof.Machine.execCageFaultTimer c s
  | .cageHardTrip c mA => Sys2Proof.Machine.execCageHardTrip c mA s
  | .cageRampTimeout c => Sys2Proof.Machine.execCageRampTimeout c s
  | .cageAttemptWindow c => Sys2Proof.Machine.execCageAttemptWindow c s
  | .cageRetry c => Sys2Proof.Machine.execCageRetry c s
  | .hbeatPeriod => Sys2Proof.Machine.execHbeatPeriod s
  | .ftoutPpsPulse => Sys2Proof.Machine.execFtoutPpsPulse s
  | .clkreqNChange p level => Sys2Proof.Machine.execClkreqNChange p level s
  | .aspmL1Request lp enter => Sys2Proof.Machine.execAspmL1Request lp enter s
  | .laneMargining lp m => Sys2Proof.Machine.execLaneMargining lp m s
  | .peLinkDown => Sys2Proof.Machine.execPeLinkDown s
  | .cxlStartLinkUpTimeout p => Sys2Proof.Machine.execCxlStartLinkUpTimeout p s
  | .relocationStepDone stack => Sys2Proof.Machine.execRelocationStepDone stack s
  | .dynamicAddressAssignment addr => Sys2Proof.Machine.execDynamicAddressAssignment addr s

end Sys2Proof.Machine
end

