-- ==== Sys2Proof/Machine/Tick.lean ====
section
/-! DEFINITION. One fabric-time tick: what an idle block does (R375, DESIGN CHOICE, assumption 1). -/

namespace Sys2Proof.Machine

/-- The increment nominal in units of 2^−32 ns: 0x1_0000 of R375. -/
def nominalInc : Nat := 2 ^ 32

/-- What is left of a slew after one tick (R391): in HOLDOVER the increment is frozen (R379). -/
def slewTick (f : FtSt) : FtSt :=
  if f.mode = .holdover || f.slew = 0 then f
  else
    let d : Int := (f.inc : Int) - (nominalInc : Int)
    let rest := f.slew - d
    if (0 < f.slew && rest ≤ 0) || (f.slew < 0 && 0 ≤ rest) then { f with slew := 0, inc := nominalInc }
    else { f with slew := rest }

/-- One fabric-time tick: the count advances by the increment (R374, R375). It stands still while the device is without VAON. HOLDOVER time counts nanoseconds (R436). FTOUT_PPS falls 100 µs after its whole second (R383). -/
def tick (s : State) : State :=
  if s.pins.vaon then
    let before := now s
    let s := { s with ft := slewTick { s.ft with acc := s.ft.acc + BitVec.ofNat 80 s.ft.inc } }
    let s := { s with io := { s.io with ppsOut := s.io.ppsOut && decide (now s % 1000000000 < 100000) } }
    if s.ft.mode = .holdover then bumpC .holdoverNs 0 0 (now s - before) {} s else s
  else s

end Sys2Proof.Machine
end

