-- ==== Sys2Proof/Machine/Step.lean ====
section
/-! DEFINITION. One step: the command at the front of the queue, or one fabric-time tick. -/

namespace Sys2Proof.Machine

/-- One step: run the command at the front of the queue on the state with the queue's rest; on an empty queue one fabric-time tick passes (DESIGN CHOICE, assumption 1, DESIGN CHOICE, assumption 102). -/
def step (s : State) : Host.Outcome State Fault Refusal :=
  match s.pending with
  | [] => .next (tick s)
  | c :: rest => exec c { s with pending := rest }

/-- The state with the command that a word spells put at the front of the queue; the table gives no words, so none does (DEDUCED, assumption 4). -/
def State.withFetchWord (s : State) (nbits w : Nat) : State :=
  match decodeTableWord nbits w with
  | some c => { s with pending := c :: s.pending }
  | none => s

end Sys2Proof.Machine
end

