-- ==== Sys2Proof/Safety.lean ====
section
/-! DEFINITION. What counts as a safe run, and the words that the statements are written in: a quiet state, an admitted command and what it answers. -/

namespace Sys2Proof

/-- A run of `k` steps is safe when it ends in a state: no fault and no refusal on the way. -/
def SafeRun (k : Nat) (s : Machine.State) : Prop := ∃ t, core.run k s = .next t

namespace Machine

/-- Nothing is left for the end of a step to do: no link fell, no write waits for a port that is down, no flush failed, no port waits to be started, no flush or drain is under way, the hold-up estimate is what was last told of it, no session is open, no command runs, no page read waits and no Grave cause arose. -/
def Quiet (s : State) : Prop :=
  s.net.fallen = [] ∧ (∀ x ∈ s.sw.reqs, deadWrite s x = false) ∧ s.dur.failedTo = [] ∧ startingPorts s = [] ∧ s.hoard.flushing = none ∧ s.dev.drainStep = 0
    ∧ (s.dur.holdup = 0 ∨ s.dur.exceeded = decide (holdEstimate s > s.dur.holdup)) ∧ s.ten.sessions = []
    ∧ s.cmd.running = [] ∧ s.ten.pageReads = [] ∧ s.dev.graveReq = none

/-- The state in which an admitted command is carried out: it has counted against its origin's rate (R439, R497). -/
def counted (q : Req) (s : State) : State := countRate q.route s

/-- A command passes every check of R513: commands run, it names no lease and no Deadline, and none of checks 3 and 5 to 10 fails; and it is no `device.transition` that a power failure precedes (R22). -/
def Admitted (c : CmdSpec) (q : Req) (p : Bytes) (s : State) : Prop :=
  commandsRun s = true ∧ q.lease = 0 ∧ q.deadline = 0 ∧ checkCmd c q p s = none ∧ (c.op = 0x0103 → pfailHeld s = false)

/-- The running command that an answer `o` starts or completes: the completion's fields are those of `o` (R509, R511). -/
def runningOf (c : CmdSpec) (q : Req) (p : Bytes) (s : State) (o : CmdOut) : Running :=
  { req := q, opcode := c.op, accepted := ftCount (counted q s), waits := o.waits, status := o.status, related := o.related, detail := o.detail, payload := o.payload, h1 := o.h1, h2 := o.h2, reads := c.reads p }

/-- The instruction `i` carries its command out: it leaves the state `t` and completes with, or waits to complete with, the answer `o`. -/
def Answers (i : Instr) (c : CmdSpec) (q : Req) (p : Bytes) (s : State) (o : CmdOut) (t : State) : Prop :=
  exec i s = .next (settle (launch (runningOf c q p s o) t))

end Machine

end Sys2Proof
end

