-- ==== Sys2Proof/Certificates/Slice0/Obligations.lean ====
section
/-! DEFINITION. The statements for the provers. -/

open Sys2Proof Sys2Proof.Machine

/-- A step takes the command at the front of the queue and runs `exec` on it with the queue's rest. -/
def Obligations.StepRunsTheFrontCommand : Prop :=
  ∀ (c : Instr) (rest : List Instr) (s : State), s.pending = c :: rest → step s = exec c { s with pending := rest }

/-- On an empty queue one tick of fabric time passes (the model's choice, DESIGN CHOICE, assumption 1): without VAON nothing changes; with it the accumulator grows by the increment, FTOUT_PPS stays high only within the first 100 µs of a second, and besides these only the slew of the fabric-time unit, the counters, and what the wrap of a counter sets off at the interrupt controller and in its outputs may change. -/
def Obligations.EmptyQueueTicks : Prop :=
  ∀ s : State, s.pending = [] → ∃ t, step s = .next t ∧ (s.pins.vaon = false → t = s)
    ∧ (s.pins.vaon = true → t.ft.acc = s.ft.acc + BitVec.ofNat 80 s.ft.inc ∧ t.io = { s.io with ppsOut := s.io.ppsOut && decide (now t % 1000000000 < 100000) })
    ∧ t = { s with ft := t.ft, io := t.io, ctr := t.ctr, sic := t.sic, mbx := t.mbx, outbox := t.outbox } ∧ t.ft = { s.ft with acc := t.ft.acc, slew := t.ft.slew, inc := t.ft.inc }

/-- Every command of the table ends in a next state, whatever the state: none faults and none is refused. -/
def Obligations.EveryCommandCompletes : Prop :=
  ∀ (i : Instr) (s : State), ∃ t, exec i s = .next (settle t)

/-- Where nothing is left for the end of a step to do, the end of a step changes nothing: there a command's next state is its own effect. The end of a step is the model's own (log entry 34). -/
def Obligations.QuietStatesSettle : Prop :=
  ∀ s : State, Quiet s → settle s = s

/-- No Grave cause is pending between steps: whatever command is at the front of the queue, a step from a state without one leaves a state without one. -/
def Obligations.NoGraveCauseOutlivesAStep : Prop :=
  ∀ s t : State, s.dev.graveReq = none → step s = .next t → t.dev.graveReq = none

/-- No Grave cause is pending at reset, and the reset state is quiet. -/
def Obligations.ResetHasNoGraveCause : Prop :=
  State.reset.dev.graveReq = none ∧ Quiet State.reset

/-- Entering Grave (R655, R656) from a state other than Off and Grave: the device is in Grave, the heartbeat has stopped, ALERT_N is low, the 148 data-path domains are off, no frame is held for sending or half received, no command runs, and the cause and its instant are kept unless an earlier cause already is. A Grave fault in a device whose Sett runs, where nothing else is left to do at the step's end, ends in Grave in the same step (R17, R655). -/
def Obligations.GraveStopsTheDevice : Prop :=
  (∀ (code block : Nat) (s : State), s.dev.st ≠ .off → s.dev.st ≠ .grave →
    (enterGrave code block s).dev.st = .grave ∧ (enterGrave code block s).hb.running = false
      ∧ (enterGrave code block s).pins.alertN = false ∧ (∀ d, d < 148 → (domOf (enterGrave code block s) d).st = .off)
      ∧ (enterGrave code block s).net.tx = [] ∧ (enterGrave code block s).net.rx = [] ∧ (enterGrave code block s).cmd.running = []
      ∧ (enterGrave code block s).grave.valid = true
      ∧ (s.grave.valid = false → (enterGrave code block s).grave.code = BitVec.ofNat 16 code ∧ (enterGrave code block s).grave.block = BitVec.ofNat 8 block ∧ (enterGrave code block s).grave.time = BitVec.ofNat 64 (ftCount s))
      ∧ (s.grave.valid = true → (enterGrave code block s).grave = s.grave))
  ∧ (∀ (c : BitVec 16) (b : Byte) (s : State), settRuns s = true → Quiet s →
    exec (.graveFault c b) s = .next (enterGrave c.toNat b.toNat s))

/-- The checks of R513 decide in their order, and the first that fails gives the status, the Detail and the Related handle: the origin, its rate, the reserved fields and values, the handles, another origin's lease, a lease that is not the origin's own, the states, the sessions, and the capacities. It rests on the model's own choices in log entry 10. -/
def Obligations.ChecksDecideInOrder : Prop :=
  ∀ (c : CmdSpec) (q : Req) (p : Bytes) (s : State),
    (c.who s q.route p = false → checkCmd c q p s = some (.denied, c.deniedDetail q.route p, 0))
    ∧ (c.who s q.route p = true → originWait s q.route ≠ 0 → checkCmd c q p s = some (.busy, originWait s q.route, 0))
    ∧ (c.who s q.route p = true → originWait s q.route = 0 →
      (∀ off, (2 ≤ q.flags.toNat ∧ off = 3 ∨ q.flags.toNat < 2 ∧ firstBad (c.args s p) = some off) → checkCmd c q p s = some (.invalidArg, off, 0))
      ∧ (q.flags.toNat < 2 → firstBad (c.args s p) = none →
        (∀ st, firstHandle s ((q.lease, [10], true) :: c.handles p) = some st → checkCmd c q p s = some (st, 0, 0) ∧ (st = .badHandle ∨ st = .staleHandle))
        ∧ (firstHandle s ((q.lease, [10], true) :: c.handles p) = none →
          (∀ h, lockedBy s q.route (c.names s p) = some h → checkCmd c q p s = some (.locked, 0, h))
          ∧ (lockedBy s q.route (c.names s p) = none → q.lease ≠ 0 → leaseMine s (tget s.ten.leases (hIdx q.lease)) q.route = false → checkCmd c q p s = some (.locked, 0, q.lease))
          ∧ (lockedBy s q.route (c.names s p) = none → (q.lease = 0 ∨ leaseMine s (tget s.ten.leases (hIdx q.lease)) q.route = true) →
            (c.state s q.route p = false → checkCmd c q p s = some (.badState, 0, 0))
            ∧ (stateServes s c q.route p = false → checkCmd c q p s = some (.badState, 0, 0))
            ∧ (stateServes s c q.route p = true → c.state s q.route p = true →
              (∀ h, c.held s q.route p = some h → checkCmd c q p s = some (.conflict, 0, h))
              ∧ (c.held s q.route p = none → c.cap s q.route p = false → checkCmd c q p s = some (.noResource, 0, 0))
              ∧ (c.held s q.route p = none → c.cap s q.route p = true → checkCmd c q p s = none))))))

/-- A command that fails a check of R513 completes with that check's status, Detail and Related handle, is counted against its origin's rate or, when the rate refused it, as refused, and leaves as they are (R514): the device state, fabric time, epochs, the flushes, Hibernate, the journal, the first-error registers, the heartbeat, Grave, the images, the fuses, the ledger, the start, discovery, the links, traffic management, the slices and their coherence, the Drey, power, cages and pins, the running commands, the commands that wait, the routes, queues and groups of the switch, and the objects, slices, bindings, rule sets, leases and sessions. The `device.transition` that a power failure precedes is not checked at all (R22) and is left out here. -/
def Obligations.RefusedCommandsHaveNoEffect : Prop :=
  ∀ (c : CmdSpec) (q : Req) (p : Bytes) (s t : State) (st : Status) (d : Nat) (h : Handle), commandsRun s = true → (c.op = 0x0103 → pfailHeld s = false) → checkCmd c q p s = some (st, d, h) →
    t = runCmd c q p s →
    t = refuseCmd c.op q st d h (if st = .busy then bump .rateRef (Route.cls q.route) s else countRate q.route s)
    ∧ t.dev = s.dev ∧ t.ft = s.ft ∧ t.hoard = s.hoard ∧ t.dur = s.dur ∧ t.hib = s.hib ∧ t.journal = s.journal ∧ t.errs = s.errs ∧ t.hb = s.hb ∧ t.grave = s.grave
    ∧ t.sec = s.sec ∧ t.fuses = s.fuses ∧ t.ledger = s.ledger ∧ t.start = s.start ∧ t.disc = s.disc ∧ t.net = s.net ∧ t.tm = s.tm ∧ t.slices = s.slices ∧ t.coh = s.coh
    ∧ t.drey = s.drey ∧ t.pwr = s.pwr ∧ t.cages = s.cages ∧ t.pins = s.pins ∧ t.cmd = s.cmd ∧ t.pending = s.pending
    ∧ t.sw.routes = s.sw.routes ∧ t.sw.queues = s.sw.queues ∧ t.sw.groups = s.sw.groups
    ∧ t.ten.objs = s.ten.objs ∧ t.ten.slices = s.ten.slices ∧ t.ten.bindings = s.ten.bindings ∧ t.ten.ruleSets = s.ten.ruleSets ∧ t.ten.leases = s.ten.leases ∧ t.ten.sessions = s.ten.sessions

/-- What is written is what is read, for every value that a field can hold: the 32 header bytes, reserved bits included, and the payload of a frame (R183), the bodies of INIT, CTRL and TIME flits with any number of zero bytes after them (R109, R138, R389), the type, index and generation of a handle (R8), and a directory entry (R301). -/
def Obligations.EncodingsRoundTrip : Prop :=
  (∀ f : Frame, parseFrame (frameBytes f) = f)
  ∧ (∀ (m : InitMsg) (k : Nat), m.credits.length = 8 → (∀ c ∈ m.credits, c < 65536) → initFrom (initBody m ++ zeros k) = m)
  ∧ (∀ (m : CtrlMsg) (k : Nat), ctrlFrom (ctrlBody m ++ zeros k) = m)
  ∧ (∀ (m : TimeMsg) (k : Nat), m.steps < 256 → m.gmPrio < 256 → m.exchange < 65536 → m.gmSerial < 2 ^ 64 → m.senderSerial < 2 ^ 64 → m.sendTime < 2 ^ 64 → m.t1 < 2 ^ 64 → m.t2 < 2 ^ 64 → m.epoch < 2 ^ 64 →
      m.epochStart < 2 ^ 48 → m.period < 2 ^ 32 → m.pendingPeriod < 2 ^ 32 → m.base < 2 ^ 48 → m.changeTime < 2 ^ 48 → m.durable < 2 ^ 64 → m.subtree < 2 ^ 64 → m.floor < 2 ^ 64 → timeFrom (timeBody m ++ zeros k) = m)
  ∧ (∀ ty idx gen : Nat, ty < 16 → idx < 2 ^ 20 → gen < 256 → hType (mkHandle ty idx gen) = ty ∧ hIdx (mkHandle ty idx gen) = idx ∧ hGen (mkHandle ty idx gen) = gen)
  ∧ (∀ e : DirEntry, e.la < 2 ^ 46 → e.st < 16 → e.nptr < 8 → e.fidx < 4 → e.trk < 2 ^ 12 → entryOf (entryWord e) = e)

/-- The mailbox buffers hold what was last written: a run of bytes reads back, and every byte outside it reads as before. It rests on the model's own choices in log entry 5. -/
def Obligations.BuffersReadWhatWasWritten : Prop :=
  ∀ (m : List Host.Cell) (a : Nat) (p : Bytes),
    memRead (memWrite m a p) a p.length = p
    ∧ (∀ b, (b < a ∨ a + p.length ≤ b) → memGet (memWrite m a p) b = memGet m b)

/-- The `device`, `log` and `counter` commands that pass their checks (R22, R520, R522, R538 to R542, R613, R650, R654, R660, R680, R687 to R693). `device.identify` and `device.status` answer their fields. `device.transition` to Off is BUSY before the drain is done and then sets Off 1 ms away; to Test, Service and Drain it makes the change, Drain with the answer at its end, unless an update is in hand. `device.reset` begins a drain and answers at its end, and in Hibernate is only counted. `device.gpio` drives the pin of a named session. `log.read` answers the items from its number on, `log.status` its summary, with a block's first error, which the clear flag empties unless it stands on the very tick; `log.subscribe` sets its forwarding or its class. `counter.group_create` opens a session with its counters, `counter.group_destroy` ends it, and `counter.read` of a block answers its counters and clears their WRAP flags. It rests on the model's own choices in log entries 2, 10, 20, 44. -/
def Obligations.DeviceLogAndCounterCommands : Prop :=
  ∀ (q : Req) (p : Bytes) (s u : State), u = counted q s →
    (Admitted specIdentify q p s → Answers (.deviceIdentify q p) specIdentify q p s { payload := identifyBytes u } u)
    ∧ (Admitted specDeviceStatus q p s → Answers (.deviceStatus q p) specDeviceStatus q p s { payload := deviceStatusBytes u } u)
    ∧ (Admitted specTransition q p s → fieldAt p 0 1 = 0 → u.dev.drainDone = true →
        Answers (.deviceTransition q p) specTransition q p s { payload := leBytes 1 u.dev.st.code ++ [0, 0, 0] } { u with start := { u.start with byCmd := (Route.iface q.route, Route.identity q.route, 0x0103, q.seq.toNat), offAt := some (now u + 1000000) } })
    ∧ (Admitted specTransition q p s → fieldAt p 0 1 = 0 → u.dev.drainDone = false → Answers (.deviceTransition q p) specTransition q p s { status := .busy } u)
    ∧ (Admitted specTransition q p s → fieldAt p 0 1 = 2 → Answers (.deviceTransition q p) specTransition q p s { payload := leBytes 1 u.dev.st.code ++ [2, 0, 0] } (changeState .test (cmdCause 0x0103 q 1) u))
    ∧ (Admitted specTransition q p s → fieldAt p 0 1 = 4 → Answers (.deviceTransition q p) specTransition q p s { payload := leBytes 1 u.dev.st.code ++ [4, 0, 0] } (toService q u))
    ∧ (Admitted specTransition q p s → fieldAt p 0 1 = 5 → u.sec.updating = false → Answers (.deviceTransition q p) specTransition q p s { payload := leBytes 1 u.dev.st.code ++ [5, 0, 0], waits := [.drain] } (startDrain (changeState .drain (cmdCause 0x0103 q 1) u)))
    ∧ (Admitted specReset q p s → u.dev.drainStep = 0 →
        Answers (.deviceReset q p) specReset q p s { waits := [.resetDrain] } (startDrain { u with start := { u.start with byCmd := (Route.iface q.route, Route.identity q.route, 0x0104, q.seq.toNat), resetRecord := false } }))
    ∧ (s.dev.st = .hibernate → exec (.deviceReset q p) s = .next (settle { s with grave := { s.grave with ignoredResets := s.grave.ignoredResets + 1 } }))
    ∧ (Admitted specGpio q p s → handleAt p 0 ≠ 0 → fieldAt p 5 1 = 2 → Answers (.deviceGpio q p) specGpio q p s { payload := leBytes 1 (fieldAt p 6 1) ++ [0, 0, 0], h1 := handleAt p 0, related := handleAt p 0 }
        { u with pwr := { u.pwr with gpioMode := tset u.pwr.gpioMode (fieldAt p 4 1) 2, gpioLevel := tset u.pwr.gpioLevel (fieldAt p 4 1) (fieldAt p 6 1) } })
    ∧ (∀ start o, Admitted specLogRead q p s → fieldAt p 8 8 = start → start ≠ 2 ^ 64 - 1 → o = takeItems u (bitOf (fieldAt p 1 1) 0) (logItems u (fieldAt p 0 1) start) { room := capacityOf q - 16, left := if fieldAt p 4 4 = 0 then 2 ^ 32 else fieldAt p 4 4 } →
        Answers (.logRead q p) specLogRead q p s { status := if o.gaps.isEmpty then .ok else .partialDone, payload := logBytes o } u)
    ∧ (Admitted specLogStatus q p s → fieldAt p 0 2 = 0xFFFF → Answers (.logStatus q p) specLogStatus q p s { payload := logSummary u } u)
    ∧ (∀ b, Admitted specLogStatus q p s → fieldAt p 0 2 = b → b ≠ 0xFFFF → bitOf (fieldAt p 2 1) 0 = true → ((tget u.errs b).valid = false ∨ (tget u.errs b).stamp ≠ ftCount u) →
        Answers (.logStatus q p) specLogStatus q p s { payload := logSummary u ++ firstErrBytes b (tget u.errs b) } (sicLevel (8 * b) false { u with errs := tset u.errs b {} }))
    ∧ (Admitted specSubscribe q p s → fieldAt p 0 1 = 1 → Answers (.logSubscribe q p) specSubscribe q p s {} (forwardTo (fieldAt p 1 1) (fieldAt p 4 2) u))
    ∧ (Admitted specSubscribe q p s → fieldAt p 0 1 = 0 → fieldAt p 1 1 = 1 → Answers (.logSubscribe q p) specSubscribe q p s {} { u with log := { u.log with sub1 := classOf (fieldAt p 2 1) } })
    ∧ (Admitted specSubscribe q p s → fieldAt p 0 1 = 0 → fieldAt p 1 1 = 2 → Answers (.logSubscribe q p) specSubscribe q p s {} { u with log := { u.log with sub2 := classOf (fieldAt p 2 1) } })
    ∧ (∀ h v, Admitted specGroupCreate q p s → fieldAt p 0 1 ≠ 2 → openSession q.route .group 0 u = (some h, v) →
        Answers (.counterGroupCreate q p) specGroupCreate q p s { related := h, h1 := h } { v with ctr := { v.ctr with groups := tset v.ctr.groups (hIdx h) { scope := fieldAt p 0 1, unit := fieldAt p 1 1 }, slots := v.ctr.slots ++ (List.range (fieldAt p 2 1)).map (fun k => { slotEntry p k with group := h }) } })
    ∧ (Admitted specGroupDestroy q p s → Answers (.counterGroupDestroy q p) specGroupDestroy q p s { h1 := handleAt p 0 } (endSession (hIdx (handleAt p 0)) u))
    ∧ (Admitted specCounterRead q p s → fieldAt p 4 1 = 2 → fieldAt p 6 1 = 1 →
        Answers (.counterRead q p) specCounterRead q p s { payload := leBytes 8 (ftCount u) ++ (blockCtrs (fieldAt p 5 1)).flatMap (fun c => leBytes 8 (ctrWord (tget u.ctr.vals (ctrKey c.1 c.2.1 c.2.2)))) } (clearWraps (blockCtrs (fieldAt p 5 1)) u))

/-- The `port` commands of links and routing, and the `diag` commands, that pass their checks (R28, R50, R63 to R76, R78 to R84, R133, R195, R198, R210, R220, R520, R521, R598). `port.configure` keeps the setting, the odd half's with it, in the ledger, drops CLKREQ on a Den port, and sends FAILBACK where the flag is newly set on a live link. `port.enable` trains a stopped port anew, and else forgets its link downs; `port.disable` stops it; `port.status` answers its fields. `port.retrain` is BUSY during a retrain, trains a quarantined port anew at its whole width, and retrains a live Den port. `port.power` in DL0 keeps the idle time and the bar, or asks for DL2. `port.freeze` sets its flag. `port.route_set` is BUSY while a failover, a failback or a retrain has the destination, and else changes the entry, an ordered change of a port with a hold. The multicast commands create, change and remove a group. `diag.prbs` opens its session and `diag.prbs_stop` answers its lanes' results and ends it; `diag.eyescan` and `diag.survey` answer free values when their engine is done; `diag.survey_read` answers the draft table. It rests on the model's own choices in log entries 2, 28, 53, 65, 121. -/
def Obligations.PortAndLaneCommands : Prop :=
  ∀ (q : Req) (p : Bytes) (s u : State) (n : Nat), u = counted q s → n = fieldAt p 0 1 →
    (∀ c v w, Admitted specPortConfigure q p s → c = cfgFrom p → v = storeCfg n c (setOddHalf n (cfgOf u n) c u) → w = (if c.mode = 1 ∧ n % 2 = 0 then modPort (n / 2) (fun x => { x with clkreqOut := false }) v else v) →
        ((c.failback = false ∨ (cfgOf u n).failback = true ∨ linkLive w n = false) → Answers (.portConfigure q p) specPortConfigure q p s {} (ledgerWrite id w))
        ∧ (c.failback = true → (cfgOf u n).failback = false → linkLive w n = true → Answers (.portConfigure q p) specPortConfigure q p s {} (ledgerWrite id (sendFailback n w))))
    ∧ (Admitted specPortEnable q p s → linkStopped u n = true →
        Answers (.portEnable q p) specPortEnable q p s {} (markPort n (modStart (fun x => { x with quar := tset x.quar (n / 2) default }) (trainAfresh n u))))
    ∧ (Admitted specPortEnable q p s → linkStopped u n = false → Answers (.portEnable q p) specPortEnable q p s {} (markPort n (modLp n (fun l => { l with downs := [] }) u)))
    ∧ (∀ t, Admitted specPortDisable q p s → t = discardMasked (portPins (n / 2) (disableLp n u)) → (lpDisabled t (n - n % 2) && lpDisabled t (n - n % 2 + 1)) = false →
        Answers (.portDisable q p) specPortDisable q p s {} (markPort n t))
    ∧ (∀ t, Admitted specPortDisable q p s → t = discardMasked (portPins (n / 2) (disableLp n u)) → (lpDisabled t (n - n % 2) && lpDisabled t (n - n % 2 + 1)) = true →
        Answers (.portDisable q p) specPortDisable q p s {} (markPort n (modStart (fun x => { x with quar := tset x.quar (n / 2) default }) t)))
    ∧ (Admitted specPortStatus q p s → Answers (.portStatus q p) specPortStatus q p s { payload := portCfgBytes n (cfgOf u n) ++ leBytes 1 (linkCode (lpOf u n).link) ++ leBytes 1 (if isDen u n then 1 else (lpOf u n).rate) ++ leBytes 1 (widthNow u n) ++ leBytes 1 (dlCode (lpOf u n).dl) ++ leBytes 4 (b2n (portDrained u (n / 2)) + 2 * b2n (twinOf u n).isSome + 4 * b2n (presentNow u (n / 2))) ++ leBytes 4 (txOf u n).rtt ++ sBytes 2 (lpOf u n).lidAtUp ++ zeros 2 } u)
    ∧ (Admitted specPortRetrain q p s → ((initOf u n).retrain ≠ 0 ∨ (initOf u n).held = true) → Answers (.portRetrain q p) specPortRetrain q p s { status := .busy } u)
    ∧ (Admitted specPortRetrain q p s → (initOf u n).retrain = 0 → (initOf u n).held = false → (lpOf u n).link = .quarantined → Answers (.portRetrain q p) specPortRetrain q p s {} (trainAfresh n (modLp n (fun l => { l with width4 := none }) u)))
    ∧ (Admitted specPortRetrain q p s → (initOf u n).retrain = 0 → (initOf u n).held = false → (lpOf u n).link = .up → isDen u n = false → Answers (.portRetrain q p) specPortRetrain q p s {} (modLp n (fun l => { l with downs := [] }) u))
    ∧ (Admitted specPortRetrain q p s → (initOf u n).retrain = 0 → (initOf u n).held = false → (lpOf u n).link = .up → isDen u n = true → Answers (.portRetrain q p) specPortRetrain q p s {} (portRetrain n (modLp n (fun l => { l with downs := [] }) u)))
    ∧ (Admitted specPortPower q p s → fieldAt p 1 1 ≠ 2 → (lpOf u n).dl = .dl0 → Answers (.portPower q p) specPortPower q p s {} (modLp n (fun l => { l with idle := orDefault (fieldAt p 4 4) l.idle, dl1Barred := fieldAt p 1 1 == 1 }) u))
    ∧ (Admitted specPortPower q p s → fieldAt p 1 1 = 2 → (lpOf u n).dl = .dl0 → Answers (.portPower q p) specPortPower q p s {}
        (sendCtrl n { subtype := 12, subject := BitVec.ofNat 8 n } (modLp n (fun l => { l with dlReq := 2 }) (modLp n (fun l => { l with idle := orDefault (fieldAt p 4 4) l.idle }) u))))
    ∧ (Admitted specFreeze q p s → Answers (.portFreeze q p) specFreeze q p s {} (modPort (n / 2) (fun x => { x with freeze := fieldAt p 1 1 == 1 }) u))
    ∧ (∀ d w, Admitted specRouteSet q p s → d = fieldAt p 0 2 → (tget u.sw.holds d).why = some w → w ≠ .route → Answers (.portRouteSet q p) specRouteSet q p s { status := .busy } u)
    ∧ (∀ d, Admitted specRouteSet q p s → d = fieldAt p 0 2 → ((tget u.sw.holds d).why = none ∨ (tget u.sw.holds d).why = some .route) → bitOf (fieldAt p 2 1) 0 = false → Answers (.portRouteSet q p) specRouteSet q p s {} { u with sw := { u.sw with routes := tset u.sw.routes d (fieldAt p 4 4) } })
    ∧ (∀ d, Admitted specRouteSet q p s → d = fieldAt p 0 2 → ((tget u.sw.holds d).why = none ∨ (tget u.sw.holds d).why = some .route) → bitOf (fieldAt p 2 1) 0 = true → rKind (routeEntry u d) = 1 → routeEntry u d ≠ fieldAt p 4 4 →
        Answers (.portRouteSet q p) specRouteSet q p s {} { u with sw := { u.sw with routes := tset u.sw.routes d (fieldAt p 4 4), holds := tset u.sw.holds d { tget u.sw.holds d with why := some .route, until_ := now u + (txOf u (rLp (routeEntry u d))).rtt + 1000, oldLp := rLp (routeEntry u d) } } })
    ∧ (∀ i h v, Admitted specMcastCreate q p s → lowestFree u 9 = some i → (h, v) = takeIndex 9 i u →
        Answers (.portMcastCreate q p) specMcastCreate q p s { related := h, h1 := h } { v with sw := { v.sw with groups := tset v.sw.groups (hIdx h) { members := membersFrom p }, routes := tset v.sw.routes (0xC00 + hIdx h) (groupEntry (hIdx h)) } })
    ∧ (Admitted specMcastUpdate q p s → Answers (.portMcastUpdate q p) specMcastUpdate q p s { h1 := handleAt p 0 } { u with sw := { u.sw with groups := tset u.sw.groups (hIdx (handleAt p 0)) { members := membersFrom p } } })
    ∧ (Admitted specMcastDestroy q p s → Answers (.portMcastDestroy q p) specMcastDestroy q p s { h1 := handleAt p 0 }
        (freeIndex 9 (hIdx (handleAt p 0)) { u with sw := { u.sw with groups := tset u.sw.groups (hIdx (handleAt p 0)) default, routes := tset u.sw.routes (0xC00 + hIdx (handleAt p 0)) 0 } }))
    ∧ (∀ h v, Admitted specPrbs q p s → openSession q.route (.prbs n (fieldAt p 1 1) (fieldAt p 2 1) (bitOf (fieldAt p 3 1) 0) (bitOf (fieldAt p 3 1) 1)) (now u) u = (some h, v) → Answers (.diagPrbs q p) specPrbs q p s { related := h, h1 := h } v)
    ∧ (∀ m k pat g chk out v, Admitted specPrbsStop q p s → (tget u.ten.sessions (hIdx (handleAt p 0))).res = .prbs m k pat g chk →
        (out, v) = (prbsLanes m k).foldl (fun r l => if chk then (r.1 ++ (prbsLane l (laneGbit pat (isDen u m) * (now u - (tget u.ten.sessions (hIdx (handleAt p 0))).until_)) r.2).1, (prbsLane l (laneGbit pat (isDen u m) * (now u - (tget u.ten.sessions (hIdx (handleAt p 0))).until_)) r.2).2) else (r.1 ++ zeros 16, r.2)) ([], u) →
        Answers (.diagPrbsStop q p) specPrbsStop q p s { payload := out, h1 := handleAt p 0 } (endSession (hIdx (handleAt p 0)) v))
    ∧ (∀ h v w, Admitted specEyescan q p s → openSession q.route (.eyescan (fieldAt p 0 2 / 128)) (now u + (scanTime 400000000 u).1) (scanTime 400000000 u).2 = (some h, v) → w = drawFree v →
        Answers (.diagEyescan q p) specEyescan q p s { payload := leBytes (64 * 128 * 4 + (if isPam4 w.2 (lpOfLane w.2 (fieldAt p 0 2)) then 12 else 0)) w.1, h1 := h, waits := [.eyescan h] } w.2)
    ∧ (∀ h v r, Admitted specSurvey q p s → openSession q.route (.eyescan (dieOf n)) (now u + (scanTime 12000000000 u).1) (scanTime 12000000000 u).2 = (some h, v) → nearPoint (lidOf u n) = none → r = (lanesOf v n).foldl (fun r _ => (r.1 ++ pointBytes (foundPoint r.2).1, (foundPoint r.2).2)) ([], v) →
        Answers (.diagSurvey q p) specSurvey q p s { payload := r.1 ++ sBytes 2 (lidOf u n), h1 := h, waits := [.eyescan h] } r.2)
    ∧ (Admitted specSurveyRead q p s → Answers (.diagSurveyRead q p) specSurveyRead q p s { payload := draftTable u } u)

/-- The `traffic` commands that pass their checks (R199, R225, R228, R231, R242, R243, R251, R252, R259, R260, R263, R266, R270, R274, R275, R288). `traffic.queue_map`, `traffic.buffer_set` and `traffic.red_set` write the named port's queue map, its queue's share and cells, and its queue's average and profiles. `traffic.meter_create`, where an index is free, opens a meter with full buckets, `traffic.meter_set` gives one its parameters and fills its buckets, `traffic.meter_destroy` frees it. `traffic.meter_attach` takes the meters of its die off a binding or port, and puts the named one there unless the handle is null. `traffic.shaper_set` acts at once in Service and Drain, refills taken this tick included, then admits what its tokens cover, with Detail 1; elsewhere it keeps the parameters, with Detail 2. `traffic.shaper_clear` empties the shaper but for its decrease and notice instants, and admits what is held. `traffic.gate_write`, after a swap due, writes the named copy, and `traffic.gate_commit`, after a swap due, answers the instant of the swap it commits to, or BUSY, with no effect, where one is committed. It rests on the model's own choices in log entries 77, 101, 102. -/
def Obligations.TrafficCommands : Prop :=
  ∀ (q : Req) (p : Bytes) (s u : State) (n : Nat) (h : Handle), u = counted q s → n = fieldAt p 0 1 → h = handleAt p 0 →
    (Admitted specQueueMap q p s → Answers (.trafficQueueMap q p) specQueueMap q p s {} { u with sw := { u.sw with egress := tset u.sw.egress n { tget u.sw.egress n with qmap := mapFrom p } } })
    ∧ (Admitted specBufferSet q p s → Answers (.trafficBufferSet q p) specBufferSet q p s {} (modQueue (8 * n + fieldAt p 1 1) (fun y => { y with k := sfieldAt p 2 1, minCells := fieldAt p 4 4 }) u))
    ∧ (Admitted specRedSet q p s → Answers (.trafficRedSet q p) specRedSet q p s {} (modQueue (8 * n + fieldAt p 1 1) (fun y => { y with w := fieldAt p 2 1, green := profileAt p 4, yellow := profileAt p 16, red := profileAt p 28 }) u))
    ∧ (∀ i m v, Admitted specMeterCreate q p s → lowestFree u 3 = some i → (m, v) = takeIndex 3 i u →
        Answers (.trafficMeterCreate q p) specMeterCreate q p s { related := m, h1 := m } (modMeter m (fun _ => { die := fieldAt p 21 1, cir := fieldAt p 4 4, pir := fieldAt p 8 4, cbs := fieldAt p 12 4, pbs := fieldAt p 16 4, aware := fieldAt p 20 1 == 1, tc := fieldAt p 12 4 * 2 ^ 24, tp := fieldAt p 16 4 * 2 ^ 24, last := now u }) v))
    ∧ (Admitted specMeterSet q p s → Answers (.trafficMeterSet q p) specMeterSet q p s { h1 := h } (modMeter h (fun m => { m with cir := fieldAt p 4 4, pir := fieldAt p 8 4, cbs := fieldAt p 12 4, pbs := fieldAt p 16 4, aware := fieldAt p 20 1 == 1, tc := fieldAt p 12 4 * 2 ^ 24, tp := fieldAt p 16 4 * 2 ^ 24, last := now u }) u))
    ∧ (Admitted specMeterDestroy q p s → Answers (.trafficMeterDestroy q p) specMeterDestroy q p s { h1 := h } (freeIndex 3 (hIdx h) (modMeter h (fun _ => default) u)))
    ∧ (∀ on die, Admitted specMeterAttach q p s → on = attachOn p → die = (meterOf u h).die → h ≠ 0 →
        Answers (.trafficMeterAttach q p) specMeterAttach q p s { h1 := h, h2 := handleAt p 8 } { u with tm := { u.tm with attached := u.tm.attached.filter (fun a => !(a.1 == on && (die == 0xFF || a.2.1 == die))) ++ [(on, die, h)] } })
    ∧ (∀ on die, Admitted specMeterAttach q p s → on = attachOn p → die = fieldAt p 6 1 → h = 0 →
        Answers (.trafficMeterAttach q p) specMeterAttach q p s { h1 := h, h2 := handleAt p 8 } { u with tm := { u.tm with attached := u.tm.attached.filter (fun a => !(a.1 == on && (die == 0xFF || a.2.1 == die))) } })
    ∧ (Admitted specShaperSet q p s → (u.dev.st = .service ∨ u.dev.st = .drain) → Answers (.trafficShaperSet q p) specShaperSet q p s { detail := 1, h1 := h } (admitAll (hIdx h) (afterRefill (hIdx h) (setShaper (hIdx h) (applyPar u (hIdx h) (shaperPar p) true) u))))
    ∧ (Admitted specShaperSet q p s → u.dev.st ≠ .service → u.dev.st ≠ .drain →
        Answers (.trafficShaperSet q p) specShaperSet q p s { detail := 2, h1 := h } { u with tm := { u.tm with shapers := tset u.tm.shapers (hIdx h) { tget u.tm.shapers (hIdx h) with pendingPar := some (shaperPar p) } } })
    ∧ (Admitted specShaperClear q p s → Answers (.trafficShaperClear q p) specShaperClear q p s { h1 := h } (admitAll (hIdx h) (setShaper (hIdx h) { lastDec := (tget u.tm.shapers (hIdx h)).lastDec, lastNotice := (tget u.tm.shapers (hIdx h)).lastNotice } u)))
    ∧ (Admitted specTgWrite q p s → fieldAt p 4 1 = 0 → Answers (.trafficGateWrite q p) specTgWrite q p s { h1 := h } (modTg (hIdx h) (fun g => { g with copy0 := slotsFrom p }) (gateSwapAt (hIdx h) u)))
    ∧ (Admitted specTgWrite q p s → fieldAt p 4 1 = 1 → Answers (.trafficGateWrite q p) specTgWrite q p s { h1 := h } (modTg (hIdx h) (fun g => { g with copy1 := slotsFrom p }) (gateSwapAt (hIdx h) u)))
    ∧ (∀ v t, Admitted specTgCommit q p s → v = gateSwapAt (hIdx h) u → (tgOf v (hIdx h)).committed = none → t = swapInstant (tgOf v (hIdx h)) (now v) →
        Answers (.trafficGateCommit q p) specTgCommit q p s { payload := leBytes 8 (ftOf t), h1 := h } (modTg (hIdx h) (fun g => { g with committed := some t }) v))
    ∧ (∀ v t, Admitted specTgCommit q p s → v = gateSwapAt (hIdx h) u → (tgOf v (hIdx h)).committed = some t → Answers (.trafficGateCommit q p) specTgCommit q p s { status := .busy, h1 := h } u)

/-- The `bind` commands on tenants, and the `slice` commands, that pass their checks (R438 to R446, R493, R519). A create, where an index is free, makes the object from its fields, and a set changes it, each answering the object as it now stands; a destroy frees the index, a tenant's mailbox buffers with it, a slice's lines flushed from the Drey and dropped. Each of these writes its delta to the journal and waits on it. `bind.tenant_set` answers DENIED, with no other effect, where it would lower a strict tenant. A read answers the object's fields. It rests on the model's own choices in log entries 8, 12, 31, 69. -/
def Obligations.TenantAndSliceCommands : Prop :=
  ∀ (q : Req) (p : Bytes) (s u : State) (h : Handle), u = counted q s → h = handleAt p 0 →
    (∀ i g t v w n, Admitted specTenantCreate q p s → lowestFree u 8 = some i → (g, v) = takeIndex 8 i u → t = tenantFrom default p → w = setTenant (hIdx g) t v → n = jDelta 0x0301 (.tenant (hIdx g) t (objOf w 8 (hIdx g))) w →
        Answers (.bindTenantCreate q p) specTenantCreate q p s { related := g, h1 := g, payload := tenantBytes w g t, waits := [.delta n.1] } n.2)
    ∧ (Admitted specTenantSet q p s → (tenantOf u h).strict = true → fieldAt p 5 1 = 0 → Answers (.bindTenantSet q p) specTenantSet q p s { status := .denied, h1 := h } u)
    ∧ (∀ t w n, Admitted specTenantSet q p s → ((tenantOf u h).strict = false ∨ fieldAt p 5 1 = 1) → t = tenantFrom (tenantOf u h) p → w = setTenant (hIdx h) t u → n = jDelta 0x0302 (.tenant (hIdx h) t (objOf w 8 (hIdx h))) w →
        Answers (.bindTenantSet q p) specTenantSet q p s { h1 := h, payload := tenantBytes w h t, waits := [.delta n.1] } n.2)
    ∧ (∀ w n, Admitted specTenantDestroy q p s → w = freeIndex 8 (hIdx h) { u with ten := { u.ten with tenants := tset u.ten.tenants (hIdx h) default, mbxs := tset u.ten.mbxs (hIdx h) default } } → n = jDelta 0x0303 (.tenant (hIdx h) { tenantOf u h with live := false } (objOf w 8 (hIdx h))) w →
        Answers (.bindTenantDestroy q p) specTenantDestroy q p s { h1 := h, waits := [.delta n.1] } n.2)
    ∧ (Admitted specTenantRead q p s → Answers (.bindTenantRead q p) specTenantRead q p s { payload := tenantBytes u h (tenantOf u h), h1 := h } u)
    ∧ (∀ i g r v w n, Admitted specSliceCreate q p s → lowestFree u 2 = some i → (g, v) = takeIndex 2 i u → r = sliceFrom default p → w = setSlice (hIdx g) r v → n = jDelta 0x0401 (.slice (hIdx g) r (objOf w 2 (hIdx g))) w →
        Answers (.sliceCreate q p) specSliceCreate q p s { related := g, h1 := g, payload := sliceBytes w g r, waits := [.delta n.1] } n.2)
    ∧ (∀ r w n, Admitted specSliceSet q p s → r = sliceFrom (sliceOf u h) p → w = setSlice (hIdx h) r u → n = jDelta 0x0402 (.slice (hIdx h) r (objOf w 2 (hIdx h))) w →
        Answers (.sliceSet q p) specSliceSet q p s { h1 := h, payload := sliceBytes w h r, waits := [.delta n.1] } n.2)
    ∧ (∀ w n, Admitted specSliceDestroy q p s → w = freeIndex 2 (hIdx h) (setSlice (hIdx h) default (flushSlice (sliceOf u h) u)) → n = jDelta 0x0403 (.slice (hIdx h) { sliceOf u h with live := false } (objOf w 2 (hIdx h))) w →
        Answers (.sliceDestroy q p) specSliceDestroy q p s { h1 := h, waits := [.delta n.1] } n.2)
    ∧ (Admitted specSliceRead q p s → Answers (.sliceRead q p) specSliceRead q p s { payload := sliceBytes u h (sliceOf u h), h1 := h } u)

/-- The `bind` commands on bindings that pass their checks (R447 to R461, R493, R495, R520). `bind.create`, where an index is free, opens the binding with a page and an empty ring, and waits on its delta; in mediated mode the fabric manager's own request makes it with its translation entries too, and a tenant's becomes a request that an event tells of, open for 1 s. `bind.destroy` takes the window away at once: it completes at step B1, or, flag clear, once the binding is gone. `bind.read` answers the fields, `bind.mode` sets the mode. `bind.approve` answers BAD_HANDLE where no such request is open, and else makes the binding and lets the tenant's command end with it; `bind.refuse` ends that command with DENIED. `bind.reinstate` clears the binding's faulted mark and that of its translation entries. It rests on the model's own choices in log entries 8, 13, 47. -/
def Obligations.BindingCommands : Prop :=
  ∀ (q : Req) (p : Bytes) (s u : State) (h : Handle), u = counted q s → h = handleAt p 0 →
    (∀ i g b v w n, Admitted specBindCreate q p s → u.ten.mediated = false → lowestFree u 1 = some i → (g, v) = takeIndex 1 i u → b = bindFrom p ((freePage v (fieldAt p 12 1)).getD 0) v.hoard.durable →
        w = { v with ten := { v.ten with bindings := tset v.ten.bindings (hIdx g) b, rings := tset v.ten.rings (hIdx g) default } } → n = jDelta 0x0310 (.binding (hIdx g) b (objOf w 1 (hIdx g))) w →
        Answers (.bindCreate q p) specBindCreate q p s { related := g, h1 := g, payload := bindingBytes g b, waits := [.delta n.1] } n.2)
    ∧ (∀ r, Admitted specBindCreate q p s → u.ten.mediated = true → Route.cls q.route ≠ 2 → r = makeBinding 0x0310 { q := q } p u → r.1.status = .ok → Answers (.bindCreate q p) specBindCreate q p s r.1 r.2)
    ∧ (∀ v, Admitted specBindCreate q p s → u.ten.mediated = true → Route.cls q.route = 2 → v = raise { code := 0x03FF, cls := .notice, block := 226, h1 := handleAt p 4, h2 := handleAt p 8, detail := 1 } u →
        Answers (.bindCreate q p) specBindCreate q p s { h1 := handleAt p 4, waits := [.mediated u.log.nextSeq] } { v with ten := { v.ten with medReqs := v.ten.medReqs ++ [{ ev := u.log.nextSeq, tenant := handleAt p 4, deadline := now v + 1000000000, payload := p }] } })
    ∧ (Admitted specBindDestroy q p s → bitOf (fieldAt p 4 1) 0 = true → Answers (.bindDestroy q p) specBindDestroy q p s { detail := 1, h1 := h } (bindB1 h u))
    ∧ (Admitted specBindDestroy q p s → bitOf (fieldAt p 4 1) 0 = false → Answers (.bindDestroy q p) specBindDestroy q p s { detail := 5, h1 := h, waits := [.bindGone h] } (bindB1 h u))
    ∧ (Admitted specBindRead q p s → Answers (.bindRead q p) specBindRead q p s { payload := bindingBytes h (bindOf u (hIdx h)), h1 := h } u)
    ∧ (Admitted specBindMode q p s → Answers (.bindMode q p) specBindMode q p s {} { u with ten := { u.ten with mediated := fieldAt p 0 1 == 1 } })
    ∧ (Admitted specBindApprove q p s → medReqOf u (fieldAt p 0 8) = none → Answers (.bindApprove q p) specBindApprove q p s { status := .badHandle } u)
    ∧ (∀ m r, Admitted specBindApprove q p s → medReqOf u (fieldAt p 0 8) = some m → firstHandle u [(handleAt m.payload 4, [8], false), (handleAt m.payload 8, [2], false)] = none → (makeBinding 0x0310 { q := q } m.payload u).1.status = .ok → r = makeBinding 0x0310 { q := q } m.payload u →
        Answers (.bindApprove q p) specBindApprove q p s r.1 (modMediated m.ev (fun y => { y with waits := r.1.waits, related := r.1.related, payload := r.1.payload, h1 := r.1.h1 }) { r.2 with ten := { r.2.ten with medReqs := r.2.ten.medReqs.filter (fun y => y.ev != m.ev) } }))
    ∧ (Admitted specBindRefuse q p s → medReqOf u (fieldAt p 0 8) = none → Answers (.bindRefuse q p) specBindRefuse q p s { status := .badHandle } u)
    ∧ (∀ m, Admitted specBindRefuse q p s → medReqOf u (fieldAt p 0 8) = some m →
        Answers (.bindRefuse q p) specBindRefuse q p s { h1 := m.tenant } (completeRunning (fun r => r.waits == [Wait.mediated m.ev]) (fun r => { r with status := .denied }) { u with ten := { u.ten with medReqs := u.ten.medReqs.filter (fun y => y.ev != m.ev) } }))
    ∧ (Admitted specBindReinstate q p s → Answers (.bindReinstate q p) specBindReinstate q p s { h1 := h }
        (modBind (hIdx h) (fun b => { b with faulted := false }) { u with ten := { u.ten with xlat := u.ten.xlat.map (fun e => if e.2.v && e.2.bind == hIdx h then (e.1, { e.2 with f := false }) else e) } }))

/-- The `gate` commands on rule sets and gates that pass their checks (R441, R469 to R485, R520, R523, R757). `gate.set_create`, where an index is free, makes an empty rule set of its owner. `gate.set_destroy` and `gate.commit` are BUSY while a swap of the set or a full gate's generation is in hand, and else start a swap at a swap tick, answer the tick and wait on their delta and on the gates' drain, a commit on what its flags say: bit 0 the swap alone, bit 1 the recall as well. The swap tick is the first multiple of 1,024 ns at least 2 µs away. `gate.rule_write` stages its rules; for a tenant's set it is DENIED where a rule's priority exceeds 127, and runs where every rule names a slice of the set's owner at a priority up to 127. `gate.configure` sets the first-byte flag, with a Notice event where it changes; `gate.default_set` sets the default map; `gate.status` answers a gate's counters or a rule set's rules. It rests on the model's own choices in log entries 9, 12. -/
def Obligations.GateCommands : Prop :=
  ∀ (q : Req) (p : Bytes) (s u : State) (h : Handle) (r : RuleSet), u = counted q s → h = handleAt p 0 → r = ruleSetOf u h →
    (∀ i g v w n, Admitted specSetCreate q p s → lowestFree u 7 = some i → (g, v) = takeIndex 7 i u → w = modRules g (fun _ => { live := true, owner := h }) v → n = jDelta 0x0501 (.ruleSet (hIdx g) { live := true, owner := h } (objOf w 7 (hIdx g))) w →
        Answers (.gateSetCreate q p) specSetCreate q p s { related := g, h1 := g, waits := [.delta n.1] } n.2)
    ∧ (∀ n, Admitted specSetDestroy q p s → r.swapAt = none → genFull u (gatesOfLists u r.committed []) = false →
        n = jDelta 0x0502 (.ruleSet (hIdx h) { r with live := false, committed := [], staged := [] } (objOf (startSwap h [] false true (swapTick u) u) 7 (hIdx h))) (startSwap h [] false true (swapTick u) u) →
        Answers (.gateSetDestroy q p) specSetDestroy q p s { payload := leBytes 8 (swapTick u), h1 := h, waits := [.delta n.1, .gateDrain h] } n.2)
    ∧ (Admitted specSetDestroy q p s → (r.swapAt.isSome = true ∨ genFull u (gatesOfLists u r.committed []) = true) → Answers (.gateSetDestroy q p) specSetDestroy q p s { status := .busy, h1 := h } u)
    ∧ (Admitted specRuleWrite q p s → r.owner = 0 → Answers (.gateRuleWrite q p) specRuleWrite q p s { h1 := h } (modRules h (fun y => { y with staged := ruleList p }) u))
    ∧ (Admitted specRuleWrite q p s → r.owner ≠ 0 → (∀ x ∈ ruleList p, ruPrio x ≤ 127 ∧ ∃ g sl, ruSlice u x = some (g, sl) ∧ sl.owner = r.owner) → Answers (.gateRuleWrite q p) specRuleWrite q p s { h1 := h } (modRules h (fun y => { y with staged := ruleList p }) u))
    ∧ (∀ x, Admitted specRuleWrite q p s → r.owner ≠ 0 → x ∈ ruleList p → 127 < ruPrio x → Answers (.gateRuleWrite q p) specRuleWrite q p s { status := .denied, h1 := h } u)
    ∧ (∀ n v, Admitted specGateCommit q p s → r.swapAt = none → genFull u (gatesOfLists u r.committed r.staged) = false → v = startSwap h r.staged (bitOf (fieldAt p 4 1) 1) false (swapTick u) u →
        n = jDelta 0x0504 (.ruleSet (hIdx h) { r with committed := r.staged, staged := [] } (objOf v 7 (hIdx h))) v →
        Answers (.gateCommit q p) specGateCommit q p s { payload := leBytes 8 (swapTick u), h1 := h, waits := [.delta n.1, if bitOf (fieldAt p 4 1) 0 then .ruleSwap h else .gateDrain h] ++ (if bitOf (fieldAt p 4 1) 1 then [.ruleRecall h] else []) } n.2)
    ∧ (Admitted specGateCommit q p s → (r.swapAt.isSome = true ∨ genFull u (gatesOfLists u r.committed r.staged) = true) → Answers (.gateCommit q p) specGateCommit q p s { status := .busy, h1 := h } u)
    ∧ (now u + 2000 ≤ swapTick u ∧ swapTick u < now u + 2000 + 1024 ∧ swapTick u % 1024 = 0)
    ∧ (∀ g on, Admitted specGateConfigure q p s → g = fieldAt p 0 2 → on = (fieldAt p 2 1 == 1) → (tget u.ten.gates g).firstByte = on → Answers (.gateConfigure q p) specGateConfigure q p s {} (modGate g (fun x => { x with firstByte := on }) u))
    ∧ (∀ g on, Admitted specGateConfigure q p s → g = fieldAt p 0 2 → on = (fieldAt p 2 1 == 1) → (tget u.ten.gates g).firstByte = !on →
        Answers (.gateConfigure q p) specGateConfigure q p s {} (raise { code := 0x0501, cls := .notice, block := 226, detail := g, arg := b2n on } (modGate g (fun x => { x with firstByte := on }) u)))
    ∧ (Admitted specDefaultSet q p s → Answers (.gateDefaultSet q p) specDefaultSet q p s {} { u with ten := { u.ten with defaultMap := (List.range (fieldAt p 0 1)).map (fun k => (fieldAt p (8 + 16 * k) 8, fieldAt p (16 + 16 * k) 8)) } })
    ∧ (Admitted specGateStatus q p s → fieldAt p 0 1 = 0 → Answers (.gateStatus q p) specGateStatus q p s { payload := gateStatusBytes u (fieldAt p 2 2), h1 := handleAt p 4 } u)
    ∧ (Admitted specGateStatus q p s → fieldAt p 0 1 = 1 → Answers (.gateStatus q p) specGateStatus q p s { payload := ruleSetBytes (ruleSetOf u (handleAt p 4)), h1 := handleAt p 4 } u)

/-- Leases (R441, R486 to R488, R513). A `gate.lease_take` that passes its checks, where an index is free, takes a lease over objects that no lease names, with its term or 1 s; over one that a lease names it answers LOCKED with that lease. `gate.lease_commit` and `gate.lease_release` are BUSY during a commit. Else a commit applies the staged commands in turn and answers when all their waits and the lease's are done; where one of them fails it answers that status and changes nothing; and a release frees the handles reserved and the lease. A command that names a lease and passes its checks is staged, with the handle that its creation reserves where an index is free, names the lease anew, and completes. It rests on the model's own choices in log entries 67, 92, 101. -/
def Obligations.LeaseCommands : Prop :=
  ∀ (q : Req) (p : Bytes) (s u : State) (h : Handle), u = counted q s → h = handleAt p 0 →
    (∀ i g v, Admitted specLeaseTake q p s → u.ten.leases.find? (fun e => e.2.live && (leaseObjects p).any (fun o => e.2.objects.contains o)) = none → lowestFree u 10 = some i → (g, v) = takeIndex 10 i u →
        Answers (.gateLeaseTake q p) specLeaseTake q p s { related := g, h1 := g, h2 := (leaseObjects p).headD 0 }
          { v with ten := { v.ten with leases := tset v.ten.leases (hIdx g) { live := true, owner := q.route, objects := leaseObjects p, term := if fieldAt p 0 2 = 0 then 1000000000 else fieldAt p 0 2 * 1000000, named := now v, tenant := (routeTenant v q.route).getD 0 } } })
    ∧ (∀ e, Admitted specLeaseTake q p s → u.ten.leases.find? (fun e => e.2.live && (leaseObjects p).any (fun o => e.2.objects.contains o)) = some e → Answers (.gateLeaseTake q p) specLeaseTake q p s { status := .locked, related := handleOf u 10 e.1 } u)
    ∧ (Admitted specLeaseCommit q p s → (tget u.ten.leases (hIdx h)).committing = true → Answers (.gateLeaseCommit q p) specLeaseCommit q p s { status := .busy, h1 := h } u)
    ∧ (∀ w o v, Admitted specLeaseCommit q p s → (tget u.ten.leases (hIdx h)).committing = false → w = { u with ten := { u.ten with leases := tset u.ten.leases (hIdx h) { tget u.ten.leases (hIdx h) with staged := [], committing := true, named := now u } } } →
        (o, v) = applyStaged (specsBase ++ [commitSpec specsBase]) (tget u.ten.leases (hIdx h)).staged [] w → o.status = .ok → Answers (.gateLeaseCommit q p) specLeaseCommit q p s { o with h1 := h, waits := o.waits ++ [.gateLease h] } v)
    ∧ (∀ w o v, Admitted specLeaseCommit q p s → (tget u.ten.leases (hIdx h)).committing = false → w = { u with ten := { u.ten with leases := tset u.ten.leases (hIdx h) { tget u.ten.leases (hIdx h) with staged := [], committing := true, named := now u } } } →
        (o, v) = applyStaged (specsBase ++ [commitSpec specsBase]) (tget u.ten.leases (hIdx h)).staged [] w → o.status ≠ .ok → o.status ≠ .partialDone → Answers (.gateLeaseCommit q p) specLeaseCommit q p s { o with h1 := h, waits := o.waits ++ [.gateLease h] } u)
    ∧ (Admitted specLeaseRelease q p s → (tget u.ten.leases (hIdx h)).committing = true → Answers (.gateLeaseRelease q p) specLeaseRelease q p s { status := .busy, h1 := h } u)
    ∧ (Admitted specLeaseRelease q p s → (tget u.ten.leases (hIdx h)).committing = false → Answers (.gateLeaseRelease q p) specLeaseRelease q p s { h1 := h } (freeLease h u))
    ∧ (∀ (c : CmdSpec) (v : State), commandsRun s = true → (c.op = 0x0103 → pfailHeld s = false) → checkCmd c q p s = none → q.deadline = 0 → q.lease ≠ 0 → (tget u.ten.leases (hIdx q.lease)).committing = false → c.creates = none →
        v = modTen (fun t => { t with leases := tmod t.leases (hIdx q.lease) (fun l => { l with staged := l.staged ++ [{ req := q, opcode := c.op, payload := p }], named := now u }) }) (nameLease q.lease u) →
        runCmd c q p s = completeCmd { req := q, opcode := c.op, accepted := ftCount v, waits := [], staged := true, h1 := q.lease } v)
    ∧ (∀ (c : CmdSpec) (ty i : Nat) (g : Handle) (v w : State), commandsRun s = true → (c.op = 0x0103 → pfailHeld s = false) → checkCmd c q p s = none → q.deadline = 0 → q.lease ≠ 0 → (tget u.ten.leases (hIdx q.lease)).committing = false → c.creates = some ty →
        lowestFree u ty = some i → (g, v) = takeIndex ty i (nameLease q.lease u) →
        w = modTen (fun t => { t with leases := tmod t.leases (hIdx q.lease) (fun l => { l with staged := l.staged ++ [{ req := q, opcode := c.op, payload := p, reserved := g }], named := now u }) }) v →
        runCmd c q p s = completeCmd { req := q, opcode := c.op, accepted := ftCount w, waits := [], staged := true, related := g, h1 := q.lease, h2 := g } w)

/-- The `coh` and `hoard` commands that pass their checks (R301, R325, R341, R347, R352, R360, R363, R370, R371, R395, R398, R416, R420 to R422, R432, R435, R520). `coh.configure` sets the snoop time-out and, for a port, whether it caches and its threshold, a field of 0 left as it is. `coh.entry_read` answers the directory entry of a line, or zeros. `coh.drey_policy` sets a slice's read fill. `coh.drey_flush` flushes the Drey, answers the lines marked, and completes when they are written. `coh.hbm_scrub` sets the hours, `coh.hbm_status` answers a stack's fields, `coh.region_retire` retires a region. `hoard.configure` changes its parameters, 0 left as it is, the grand master's period at a boundary of the grid, and checks the hold-up. `hoard.status` answers its fields. `hoard.dirty_cap` sets the cap, releases what it allows, and waits on it unless told not to. `hoard.journal_set` is BUSY during a move and else starts one; `hoard.journal_read` answers whole entries. It rests on the model's own choices in log entries 7, 19, 36, 39, 76. -/
def Obligations.CoherenceAndHoardCommands : Prop :=
  ∀ (q : Req) (p : Bytes) (s u : State) (n : Nat), u = counted q s → n = fieldAt p 0 1 →
    (∀ x, Admitted specCohConfigure q p s → fieldAt p 1 1 = 1 → x = (if fieldAt p 8 4 = 0 then u.coh.snoopTimeout else fieldAt p 8 4) →
        Answers (.cohConfigure q p) specCohConfigure q p s {} { u with coh := { u.coh with snoopTimeout := x } })
    ∧ (∀ x, Admitted specCohConfigure q p s → fieldAt p 1 1 = 0 → x = (if fieldAt p 8 4 = 0 then u.coh.snoopTimeout else fieldAt p 8 4) →
        Answers (.cohConfigure q p) specCohConfigure q p s {} { u with coh := { u.coh with snoopTimeout := x, enabled := tset u.coh.enabled n (fieldAt p 2 1 == 1), threshold := if fieldAt p 4 2 = 0 then u.coh.threshold else tset u.coh.threshold n (fieldAt p 4 2) } })
    ∧ (∀ l k, Admitted specCohEntryRead q p s → l = lineOf (fieldAt p 0 8) → dirKey u (homeSlice l) l = some k → Answers (.cohEntryRead q p) specCohEntryRead q p s { payload := leBytes 16 (entryWord (dirAt u (homeSlice l) k)) } u)
    ∧ (∀ l, Admitted specCohEntryRead q p s → l = lineOf (fieldAt p 0 8) → dirKey u (homeSlice l) l = none → Answers (.cohEntryRead q p) specCohEntryRead q p s { payload := zeros 16 } u)
    ∧ (∀ h, Admitted specCohDreyPolicy q p s → h = handleAt p 0 → Answers (.cohDreyPolicy q p) specCohDreyPolicy q p s { h1 := h } { u with ten := { u.ten with slices := tset u.ten.slices (hIdx h) { tget u.ten.slices (hIdx h) with readFill := fieldAt p 4 1 == 1 } } })
    ∧ (Admitted specCohDreyFlush q p s → Answers (.cohDreyFlush q p) specCohDreyFlush q p s { payload := leBytes 8 (flushAll (n == 1) u).1, waits := [.dreyFlush] } (flushAll (n == 1) u).2)
    ∧ (Admitted specCohHbmScrub q p s → Answers (.cohHbmScrub q p) specCohHbmScrub q p s {} { u with scrubHours := fieldAt p 0 2 })
    ∧ (Admitted specCohHbmStatus q p s → Answers (.cohHbmStatus q p) specCohHbmStatus q p s { payload := hbmStatusBytes u n } u)
    ∧ (Admitted specCohRegionRetire q p s → Answers (.cohRegionRetire q p) specCohRegionRetire q p s {} (retireRegion n (fieldAt p 1 1) u))
    ∧ (∀ x y, Admitted specHoardConfigure q p s → x = fieldAt p 0 4 * 1000 → y = { u.dur with tDev := if fieldAt p 4 4 = 0 then u.dur.tDev else fieldAt p 4 4 * 1000, holdup := if fieldAt p 8 4 = 0 then u.dur.holdup else fieldAt p 8 4 } →
        (x = 0 → Answers (.hoardConfigure q p) specHoardConfigure q p s {} (holdCheck { u with dur := y }))
        ∧ (x ≠ 0 → u.ft.gm = false → Answers (.hoardConfigure q p) specHoardConfigure q p s {} (holdCheck { u with dur := y, hoard := { u.hoard with ownPeriod := x } }))
        ∧ (x ≠ 0 → u.ft.gm = true → Answers (.hoardConfigure q p) specHoardConfigure q p s {} (holdCheck { u with dur := y, hoard := { u.hoard with ownPeriod := x, pendingPeriod := some (x, gridAfter u.hoard.base (max u.hoard.period 1) (now u + 999999)) } })))
    ∧ (Admitted specHoardStatus q p s → Answers (.hoardStatus q p) specHoardStatus q p s { payload := hoardStatusBytes u } u)
    ∧ (Admitted specHoardDirtyCap q p s → Answers (.hoardDirtyCap q p) specHoardDirtyCap q p s { waits := if fieldAt p 1 1 = 1 then [] else [.dirtyCap] } ((List.range 4).foldl (fun s k => capRelease k (capUpdate k s)) { u with dur := { u.dur with dirtyCap := n } }))
    ∧ (∀ m, Admitted specHoardJournalSet q p s → u.journal.moving = some m → Answers (.hoardJournalSet q p) specHoardJournalSet q p s { status := .busy } u)
    ∧ (Admitted specHoardJournalSet q p s → u.journal.moving = none →
        Answers (.hoardJournalSet q p) specHoardJournalSet q p s { waits := [.journalSet u.journal.nextSeq] } { u with journal := { u.journal with moving := some (fieldAt p 0 2, fieldAt p 2 2, fieldAt p 8 8, fieldAt p 16 8) } })
    ∧ (Admitted specHoardJournalRead q p s → Answers (.hoardJournalRead q p) specHoardJournalRead q p s { payload := wholeEntries (capacityOf q) ((journalRecs u (fieldAt p 0 8) (fieldAt p 8 4)).map (fun r => jBytes u r ++ leBytes 1 (b2n (!r.bad)) ++ zeros 7)) } u)

/-- The `time`, `power` and `cage` commands that pass their checks (R380 to R384, R435, R520, R524, R617 to R631, R643 to R648, R696 to R717). `time.configure` keeps its settings in the ledger and runs the election; a grand master takes up the external reference, or leaves it, as they say. `time.set` sets the count, at the next second where the reference drives it. `time.status` answers its fields. `power.domain_set` answers at once where the domain stands there; it starts the transition, joins the same one under way, or waits behind another, and completes with it unless told not to wait; a request already waiting is replaced. `power.domain_status` answers one domain's or all domains' words. `power.clkobs` ends the session, or opens or changes it, with an event where its clock is stopped. `cage.set` keeps its parameters; action 1 starts the ramp of a cage whose gate is low, action 2 closes the gate, its port disabled first, and action 3 leaves the cage off, each with its count of attempts at 0. `cage.status` answers one cage's fields or every cage's. It rests on the model's own choices in log entries 20, 23, 55, 136, 137. -/
def Obligations.TimePowerAndCageCommands : Prop :=
  ∀ (q : Req) (p : Bytes) (s u : State) (c : Nat), u = counted q s → c = fieldAt p 0 1 →
    (∀ t, Admitted specTimeConfigure q p s → t = elect { u with io := { u.io with prio := c, extRef := bitOf (fieldAt p 1 1) 0, ppsEn := bitOf (fieldAt p 1 1) 1, entries := (timeEntries p).foldl (fun t e => tset t e.1 e.2) u.io.entries, ppsOut := u.io.ppsOut && bitOf (fieldAt p 1 1) 1 } } →
        (t.ft.gm = true → t.io.extRef = true → ftrefOk t = true → Answers (.timeConfigure q p) specTimeConfigure q p s {} (ledgerTime (selfGm .external t)))
        ∧ (t.ft.gm = true → (t.io.extRef = false ∨ ftrefOk t = false) → t.ft.mode = .external → Answers (.timeConfigure q p) specTimeConfigure q p s {} (ledgerTime (selfGm .free t)))
        ∧ (t.ft.gm = true → (t.io.extRef = false ∨ ftrefOk t = false) → t.ft.mode ≠ .external → Answers (.timeConfigure q p) specTimeConfigure q p s {} (ledgerTime t))
        ∧ (t.ft.gm = false → Answers (.timeConfigure q p) specTimeConfigure q p s {} (ledgerTime t)))
    ∧ (Admitted specTimeSet q p s → u.ft.mode = .external → Answers (.timeSet q p) specTimeSet q p s {} { u with io := { u.io with pendingSet := some (fieldAt p 0 8) } })
    ∧ (Admitted specTimeSet q p s → u.ft.mode ≠ .external → Answers (.timeSet q p) specTimeSet q p s {} (setSeconds (fieldAt p 0 8) u))
    ∧ (Admitted specTimeStatus q p s → Answers (.timeStatus q p) specTimeStatus q p s { payload := timeStatusBytes u } u)
    ∧ (∀ d k w, Admitted specDomainSet q p s → d = fieldAt p 0 2 → k = fieldAt p 2 1 → w = bitOf (fieldAt p 3 1) 0 →
        ((domOf u d).target = none → (domOf u d).st = pdOf k → Answers (.powerDomainSet q p) specDomainSet q p s { payload := leBytes 1 k ++ zeros 7 } u)
        ∧ ((domOf u d).target = none → (domOf u d).st ≠ pdOf k → Answers (.powerDomainSet q p) specDomainSet q p s { payload := leBytes 1 k ++ zeros 7, waits := if w then [] else [.domain d false] } (startTransition d (pdOf k) u))
        ∧ ((domOf u d).target = some (pdOf k) → (domOf u d).queued = none → Answers (.powerDomainSet q p) specDomainSet q p s { payload := leBytes 1 k ++ zeros 7, waits := if w then [] else [.domain d false] } u)
        ∧ (∀ t, (domOf u d).target = some t → t ≠ pdOf k → (domOf u d).queued = none → Answers (.powerDomainSet q p) specDomainSet q p s { payload := leBytes 1 k ++ [1] ++ zeros 6, waits := if w then [] else [.domain d true] } (modDom d (fun y => { y with queued := some (pdOf k), qWave := false }) u))
        ∧ (∀ t z, (domOf u d).target = some t → (domOf u d).queued = some z → Answers (.powerDomainSet q p) specDomainSet q p s { payload := leBytes 1 k ++ [1] ++ zeros 6, waits := if w then [] else [.domain d true] } (modDom d (fun y => { y with queued := some (pdOf k), qWave := false }) (replaceQueued d u))))
    ∧ (Admitted specDomainStatus q p s → fieldAt p 0 2 ≠ 0xFFFF → Answers (.powerDomainStatus q p) specDomainStatus q p s { payload := leBytes 2 (fieldAt p 0 2) ++ leBytes 4 (domStatWord u (fieldAt p 0 2)) ++ leBytes 1 (domOf u (fieldAt p 0 2)).errs ++ [0] } u)
    ∧ (Admitted specDomainStatus q p s → fieldAt p 0 2 = 0xFFFF → Answers (.powerDomainStatus q p) specDomainStatus q p s { payload := (List.range 157).flatMap (fun d => leBytes 2 d ++ leBytes 4 (domStatWord u d) ++ leBytes 1 (domOf u d).errs ++ [0]) } u)
    ∧ (Admitted specClkobs q p s → fieldAt p 6 1 = 0 → Answers (.powerClkobs q p) specClkobs q p s { h1 := handleAt p 0 } (endSession (hIdx (handleAt p 0)) u))
    ∧ (∀ h v w, Admitted specClkobs q p s → fieldAt p 6 1 ≠ 0 → ((handleAt p 0 ≠ 0 ∧ h = handleAt p 0 ∧ v = u) ∨ (handleAt p 0 = 0 ∧ openSession q.route .clkobs 0 u = (some h, v))) →
        w = { v with pwr := { v.pwr with obsClk := fieldAt p 4 1, obsN := fieldAt p 5 1, obsOut := fieldAt p 6 1, obsStopped := false, obsSession := h } } →
        ((clkOf w (fieldAt p 4 1)).running = true → Answers (.powerClkobs q p) specClkobs q p s { related := h, h1 := h } w)
        ∧ ((clkOf w (fieldAt p 4 1)).running = false → Answers (.powerClkobs q p) specClkobs q p s { related := h, h1 := h } (raise { code := 0x0A03, cls := .notice, block := 164, arg := fieldAt p 4 1 } { w with pwr := { w.pwr with obsStopped := true } })))
    ∧ (∀ v, Admitted specCageSet q p s → v = { u with cages := { u.cages with pars := tset u.cages.pars c (cageParFrom p (cageParOf u c)) } } →
        (fieldAt p 1 1 = 0 → Answers (.cageSet q p) specCageSet q p s {} v)
        ∧ (fieldAt p 1 1 = 1 → gateHigh v c = true → Answers (.cageSet q p) specCageSet q p s {} v)
        ∧ (fieldAt p 1 1 = 1 → gateHigh v c = false → Answers (.cageSet q p) specCageSet q p s {} (startRamp c false (modCage c (fun x => { x with attempts := 0 }) v)))
        ∧ (fieldAt p 1 1 = 2 → portEnabled v c = true → Answers (.cageSet q p) specCageSet q p s {} (gateLow c .off (modCage c (fun x => { x with attempts := 0, attempting := false }) (discardMasked (disablePort c v)))))
        ∧ (fieldAt p 1 1 = 2 → portEnabled v c = false → Answers (.cageSet q p) specCageSet q p s {} (gateLow c .off (modCage c (fun x => { x with attempts := 0, attempting := false }) v)))
        ∧ (fieldAt p 1 1 = 3 → Answers (.cageSet q p) specCageSet q p s {} (cageTo c .off (modCage c (fun x => { x with attempts := 0 }) v))))
    ∧ (Admitted specCageStatus q p s → c = 0xFF → Answers (.cageStatus q p) specCageStatus q p s { payload := (List.range 128).flatMap (cageBytes u) } u)
    ∧ (Admitted specCageStatus q p s → c ≠ 0xFF → Answers (.cageStatus q p) specCageStatus q p s { payload := cageBytes u c } u)

/-- The `secure` commands that pass their checks (R49, R515, R520, R554, R558, R562 to R583). `secure.fw_stage` is BUSY during an update or another origin's upload; a chunk out of its place is INVALID_ARG with detail 68 and leaves an unfinished part invalid; a chunk in its place is kept, and a last one makes the part valid, or ends with AUTH_FAIL and the number of the check of R558 that fails. `secure.table_load` does the same for the table's inactive copy: AUTH_FAIL or INVALID_ARG where the table fails, and else the table is measured and the ledger names its copy. `secure.fw_activate` starts a takeover and answers at its end, or is BUSY during one; action 2 raises the security version, never lowers it. `secure.attest` builds evidence and answers its first fragment, a later one of the same nonce within its 10 s, and is BAD_STATE without evidence. `secure.unlock` answers a challenge of 60 s; a good token flushes the Drey and opens the scope at the end, a bad one is AUTH_FAIL, and either ends the challenge; action 3 locks. `secure.owner_key` burns its fuse under a good signature, else AUTH_FAIL. It rests on the model's own choices in log entries 2, 3, 42, 45, 48, 49, 52. -/
def Obligations.SecureCommands : Prop :=
  ∀ (q : Req) (p : Bytes) (s u : State), u = counted q s →
    (∀ k old, Admitted specFwStage q p s → k = partKey (1 - u.sec.activeBank) (fieldAt p 0 1) → old = tget u.sec.parts k →
        ((u.sec.updating = true ∨ ∃ r, old.stager = some r ∧ old.complete = false ∧ sameOrigin r q.route = false) → Answers (.secureFwStage q p) specFwStage q p s { status := .busy } u)
        ∧ (u.sec.updating = false → (∀ r, old.stager = some r → old.complete = true ∨ sameOrigin r q.route = true) →
          ((((bitOf (fieldAt p 1 1) 0 = true ∧ fieldAt p 4 4 ≠ 0) ∨ (bitOf (fieldAt p 1 1) 0 = false ∧ (old.stager = none ∨ old.complete = true ∨ fieldAt p 4 4 ≠ old.bytes.length)) ∨ partRoom (fieldAt p 0 1) < (if bitOf (fieldAt p 1 1) 0 then 0 else old.bytes.length) + (p.drop 12).length) → (old.stager = none ∨ old.complete = true) → Answers (.secureFwStage q p) specFwStage q p s { status := .invalidArg, detail := 68 } u)
          ∧ (((bitOf (fieldAt p 1 1) 0 = true ∧ fieldAt p 4 4 ≠ 0) ∨ (bitOf (fieldAt p 1 1) 0 = false ∧ (old.stager = none ∨ old.complete = true ∨ fieldAt p 4 4 ≠ old.bytes.length)) ∨ partRoom (fieldAt p 0 1) < (if bitOf (fieldAt p 1 1) 0 then 0 else old.bytes.length) + (p.drop 12).length) → old.stager.isSome = true → old.complete = false → Answers (.secureFwStage q p) specFwStage q p s { status := .invalidArg, detail := 68 } { u with sec := { u.sec with parts := tset u.sec.parts k { old with valid := false } } })
          ∧ (∀ b x, ((bitOf (fieldAt p 1 1) 0 = true ∧ fieldAt p 4 4 = 0 ∧ b = p.drop 12) ∨ (bitOf (fieldAt p 1 1) 0 = false ∧ old.stager.isSome = true ∧ old.complete = false ∧ fieldAt p 4 4 = old.bytes.length ∧ b = old.bytes ++ p.drop 12)) → b.length ≤ partRoom (fieldAt p 0 1) → x = { bytes := b, complete := bitOf (fieldAt p 1 1) 1, valid := false, stager := some q.route } →
            (bitOf (fieldAt p 1 1) 1 = false → Answers (.secureFwStage q p) specFwStage q p s {} { u with sec := { u.sec with parts := tset u.sec.parts k x } })
            ∧ (bitOf (fieldAt p 1 1) 1 = true → imageFails u.fuses (fieldAt p 0 1) b = none → Answers (.secureFwStage q p) specFwStage q p s {} { u with sec := { u.sec with parts := tset u.sec.parts k { x with valid := true } } })
            ∧ (∀ d, bitOf (fieldAt p 1 1) 1 = true → imageFails u.fuses (fieldAt p 0 1) b = some d → Answers (.secureFwStage q p) specFwStage q p s { status := .authFail, detail := d } { u with sec := { u.sec with parts := tset u.sec.parts k x } })))))
    ∧ (∀ k old, Admitted specTableLoad q p s → k = 1 - u.ledger.tableCopy → old = tget u.sec.tables k →
        (((bitOf (fieldAt p 1 1) 0 = true ∧ fieldAt p 4 4 ≠ 0) ∨ (bitOf (fieldAt p 1 1) 0 = false ∧ (old.stager = none ∨ old.complete = true ∨ fieldAt p 4 4 ≠ old.bytes.length)) ∨ 524288 < (if bitOf (fieldAt p 1 1) 0 then 0 else old.bytes.length) + (p.drop 12).length) → Answers (.secureTableLoad q p) specTableLoad q p s { status := .invalidArg, detail := 68 } u)
        ∧ (∀ b v w, ((bitOf (fieldAt p 1 1) 0 = true ∧ fieldAt p 4 4 = 0 ∧ b = p.drop 12) ∨ (bitOf (fieldAt p 1 1) 0 = false ∧ old.stager.isSome = true ∧ old.complete = false ∧ fieldAt p 4 4 = old.bytes.length ∧ b = old.bytes ++ p.drop 12)) → b.length ≤ 524288 →
          v = { u with sec := { u.sec with tables := tset u.sec.tables k { bytes := b, complete := bitOf (fieldAt p 1 1) 1, stager := some q.route } } } → w = { v with sec := { v.sec with measTbl := measure b, tableOk := true } } →
          (bitOf (fieldAt p 1 1) 1 = false → Answers (.secureTableLoad q p) specTableLoad q p s {} v)
          ∧ (bitOf (fieldAt p 1 1) 1 = true → tableAuth u.fuses b = false → Answers (.secureTableLoad q p) specTableLoad q p s { status := .authFail } v)
          ∧ (bitOf (fieldAt p 1 1) 1 = true → tableAuth u.fuses b = true → tableForm b = false → Answers (.secureTableLoad q p) specTableLoad q p s { status := .invalidArg, detail := 76 } v)
          ∧ (bitOf (fieldAt p 1 1) 1 = true → tableAuth u.fuses b = true → tableForm b = true → Answers (.secureTableLoad q p) specTableLoad q p s {} (recordSecurity 0x0DFF 4 (fieldAt b 16 4) (ledgerWrite (fun l => { l with tableCopy := k }) w)))))
    ∧ (Admitted specFwActivate q p s → fieldAt p 0 1 = 1 → u.sec.updating = true → Answers (.secureFwActivate q p) specFwActivate q p s { status := .busy } u)
    ∧ (Admitted specFwActivate q p s → fieldAt p 0 1 = 1 → u.sec.updating = false → Answers (.secureFwActivate q p) specFwActivate q p s { waits := [.takeover] } { u with sec := { u.sec with updating := true, takeover := 2, newSeed := none } })
    ∧ (∀ v, Admitted specFwActivate q p s → fieldAt p 0 1 = 2 → v = max u.fuses.rollback ((allImages u).foldl (fun n i => min n (imageSecurity i.2)) 64) →
        u.fuses.rollback ≤ v ∧ Answers (.secureFwActivate q p) specFwActivate q p s { payload := leBytes 1 v ++ zeros 3 } { u with fuses := { u.fuses with rollback := v } })
    ∧ (∀ r, Admitted specAttest q p s → fieldAt p 4 4 = 0 → r = buildEvidence q.route ((p.drop 8).take (fieldAt p 0 1)) u → Answers (.secureAttest q p) specAttest q p s { payload := fragment { q := q } r.1 0 } r.2)
    ∧ (∀ e, Admitted specAttest q p s → fieldAt p 4 4 ≠ 0 → u.sec.evidence.find? (fun e => sameIdentity e.origin q.route && decide (now u ≤ e.until_)) = some e →
        (e.nonce = (p.drop 8).take (fieldAt p 0 1) → fieldAt p 4 4 < e.bytes.length → now u ≠ e.until_ → Answers (.secureAttest q p) specAttest q p s { payload := fragment { q := q } e.bytes (fieldAt p 4 4) } u)
        ∧ (e.nonce = (p.drop 8).take (fieldAt p 0 1) → fieldAt p 4 4 < e.bytes.length → now u = e.until_ → Answers (.secureAttest q p) specAttest q p s { payload := fragment { q := q } e.bytes (fieldAt p 4 4) } (bump .secNear 0 u))
        ∧ (e.nonce = (p.drop 8).take (fieldAt p 0 1) → e.bytes.length ≤ fieldAt p 4 4 → Answers (.secureAttest q p) specAttest q p s { status := .invalidArg, detail := 68 } u)
        ∧ (e.nonce ≠ (p.drop 8).take (fieldAt p 0 1) → Answers (.secureAttest q p) specAttest q p s { status := .badState } u))
    ∧ (Admitted specAttest q p s → fieldAt p 4 4 ≠ 0 → u.sec.evidence.find? (fun e => sameIdentity e.origin q.route && decide (now u ≤ e.until_)) = none → Answers (.secureAttest q p) specAttest q p s { status := .badState } u)
    ∧ (Admitted specUnlock q p s → fieldAt p 0 1 = 1 →
        Answers (.secureUnlock q p) specUnlock q p s { payload := leBytes 32 (drawFree u).1 ++ leBytes 8 (ftOf (now u + 60000000000)) } { u with free := u.free + 1, sec := { u.sec with challenge := some (leBytes 32 (drawFree u).1, now u + 60000000000) } })
    ∧ (Admitted specUnlock q p s → fieldAt p 0 1 = 2 → tokenOk u p = false → Answers (.secureUnlock q p) specUnlock q p s { status := .authFail } { u with sec := { u.sec with challenge := none } })
    ∧ (∀ n e, Admitted specUnlock q p s → fieldAt p 0 1 = 2 → tokenOk u p = true → u.sec.challenge = some (n, e) → now u ≠ e → Answers (.secureUnlock q p) specUnlock q p s { waits := [.openScope (fieldAt p 9 1) (fieldAt p 10 2)] } (flushAll true { u with sec := { u.sec with challenge := none } }).2)
    ∧ (Admitted specUnlock q p s → fieldAt p 0 1 = 3 → u.sec.unlock = none → Answers (.secureUnlock q p) specUnlock q p s {} u)
    ∧ (Admitted specUnlock q p s → fieldAt p 0 1 = 3 → u.sec.unlock.isSome = true → Answers (.secureUnlock q p) specUnlock q p s {} (recordSecurity 0x0DFF 2 0 { u with sec := { u.sec with unlock := none } }))
    ∧ (Admitted specOwnerKey q p s → ownerAuth u p = true →
        (fieldAt p 0 1 = 1 → Answers (.secureOwnerKey q p) specOwnerKey q p s {} { u with fuses := { u.fuses with owners := tset u.fuses.owners (fieldAt p 1 1) (BitVec.ofNat 512 (fieldAt p 12 64)), programmed := u.fuses.programmed ||| 2 ^ fieldAt p 1 1 } })
        ∧ (fieldAt p 0 1 = 2 → Answers (.secureOwnerKey q p) specOwnerKey q p s {} { u with fuses := { u.fuses with revoked := u.fuses.revoked ||| 2 ^ fieldAt p 1 1 } })
        ∧ (fieldAt p 0 1 = 3 → Answers (.secureOwnerKey q p) specOwnerKey q p s {} { u with fuses := { u.fuses with policy := u.fuses.policy ||| BitVec.ofNat 8 (fieldAt p 2 1) } }))
    ∧ (Admitted specOwnerKey q p s → ownerAuth u p = false → Answers (.secureOwnerKey q p) specOwnerKey q p s { status := .authFail } u)

/-- A write of MBX_DOORBELL moves exactly the FREE slots whose bits it sets to POSTED and queues them in rising slot order; it counts every bit of a slot that is not FREE in MBX_IGNORED. A write of MBX_DONE frees exactly the DONE slots whose bits it sets. -/
def Obligations.SlotsMoveBetweenFreePostedAndDone : Prop :=
  (∀ (v : BitVec 32) (s : State), takesDoorbells s = true → ∃ t, exec (.mbxDoorbellWrite v) s = .next (settle t)
    ∧ (∀ k, k < 16 → tget t.mbx.slots k = if v.getLsbD k ∧ tget s.mbx.slots k = .free then .posted else tget s.mbx.slots k)
    ∧ t.cmd.peQueue = s.cmd.peQueue ++ (List.range 16).filter (fun k => v.getLsbD k && tget s.mbx.slots k == .free)
    ∧ t.mbx.ignored = s.mbx.ignored + BitVec.ofNat 32 ((List.range 16).filter (fun k => v.getLsbD k && tget s.mbx.slots k != .free)).length
    ∧ t.ten = s.ten ∧ t.net = s.net ∧ t.sw = s.sw ∧ t.dev = s.dev ∧ t.log = s.log)
  ∧ (∀ (v : BitVec 32) (s : State), peUp s = true → ∃ t, exec (.mbxDoneClear v) s = .next (settle t)
    ∧ (∀ k, tget t.mbx.slots k = if k < 16 ∧ v.getLsbD k ∧ tget s.mbx.slots k = .done then .free else tget s.mbx.slots k)
    ∧ t = { s with mbx := { s.mbx with slots := t.mbx.slots } })

/-- Reads of BAR0 that have an effect, while the PE endpoint is up (R378, R502, R682): MBX_IGNORED returns the count of ignored doorbells and clears it, and the running total of it but for its WRAP bit (the model's choice, log entry 135); FT_NOW_LO latches the count's high half, FT_EPOCH_LO the rest of the epoch registers, and SIC_GRAVE_TIME_LO the time of Grave. Writes of BAR0, BAR2 and the MSI-X masks while the PE endpoint is up (R501, R502, R505, R506, R544): MBX_EVT_CONS takes the index and sends vector 1 when records are still outstanding; an aligned word inside the 32 MiB of BAR2 is stored at its offset, and one beyond them is ignored; a 1 written to HB_STATUS bit 2 or to FT_STATUS bit 9 clears it; MBX_IRQ_EN takes its 16 bits; unmasking a vector clears its mask, and when it was pending sends it and clears its pending bit. Where the masks lie is the model's own choice in log entry 30. -/
def Obligations.EndpointReadsAndWrites : Prop :=
  (∀ s : State, peUp s = true →
    exec .mbxIgnoredRead s = .next (settle (emit (.regRead s.mbx.ignored.toNat) { s with mbx := { s.mbx with ignored := 0 }, ctr := { s.ctr with vals := tset s.ctr.vals (ctrKey .ignDoorbell 0 0) (BitVec.ofNat 41 ((tget s.ctr.vals (ctrKey .ignDoorbell 0 0)).toNat / 2 ^ 40 * 2 ^ 40)) } }))
    ∧ exec .ftNowLoRead s = .next (settle (emit (.regRead (ftCount s % 2 ^ 32)) { s with io := { s.io with nowHi := BitVec.ofNat 32 (ftCount s / 2 ^ 32) } }))
    ∧ exec .ftEpochLoRead s = .next (settle (emit (.regRead (s.hoard.epoch % 2 ^ 32)) { s with io := { s.io with epochHi := BitVec.ofNat 32 (s.hoard.epoch / 2 ^ 32), durLo := BitVec.ofNat 32 s.hoard.durable, durHi := BitVec.ofNat 32 (s.hoard.durable / 2 ^ 32) } }))
    ∧ exec .sicGraveTimeLoRead s = .next (settle (emit (.regRead (s.grave.time.toNat % 2 ^ 32)) { s with grave := { s.grave with latched := s.grave.time } })))
  ∧ (∀ s : State, peUp s = true →
    (∀ v, exec (.mbxEvtConsWrite v) s = .next (settle (if s.mbx.evtProd ≠ v then msix 1 { s with mbx := { s.mbx with evtCons := v } } else { s with mbx := { s.mbx with evtCons := v } })))
    ∧ (∀ off v, off % 4 = 0 → off < 0x2000000 → exec (.registerWrite true off v) s = .next (settle { s with mbx := { s.mbx with bar2 := memWrite s.mbx.bar2 off (leBytes 4 v.toNat) } }))
    ∧ (∀ off v, off % 4 = 0 → 0x2000000 ≤ off → exec (.registerWrite true off v) s = .next (settle s))
    ∧ (∀ v, v.getLsbD 2 = true → exec (.registerWrite false 0x104 v) s = .next (settle { s with hb := { s.hb with stallSeen := false } }))
    ∧ (∀ v, v.getLsbD 9 = true → exec (.registerWrite false 0x808 v) s = .next (settle { s with ft := { s.ft with stepped := false } }))
    ∧ (∀ v, exec (.registerWrite false 0x20C v) s = .next (settle { s with mbx := { s.mbx with irqEn := v.truncate 16 } }))
    ∧ (∀ k : Fin 64, s.mbx.pba.getLsbD k.val = true → exec (.msixUnmask k) s = .next (settle (emit (.msix k.val) { s with mbx := { s.mbx with masked := s.mbx.masked &&& ~~~(1#64 <<< k.val), pba := s.mbx.pba &&& ~~~(1#64 <<< k.val) } })))
    ∧ (∀ k : Fin 64, s.mbx.pba.getLsbD k.val = false → exec (.msixUnmask k) s = .next (settle { s with mbx := { s.mbx with masked := s.mbx.masked &&& ~~~(1#64 <<< k.val) } })))

/-- Resets and losses of the PE endpoint outside Off (R488, R500, R526, R544, R617): PE_PERST_N and a function-level reset put the endpoint's and the mailbox's registers to their reset values but for BAR2, discard the posted commands, and mark the fabric manager's running commands so that their completions are discarded; PE_PERST_N and a lost link also lose the fabric manager as an origin; a level of TRST_N is kept and asks for PD_DBG On or Off. That a function-level reset does not lose the fabric manager is the model's own choice in log entry 96. -/
def Obligations.EndpointResets : Prop :=
  ∀ s : State, s.dev.st ≠ .off →
    exec .functionLevelReset s = .next (settle { s with mbx := { bar2 := s.mbx.bar2 }, cmd := { s.cmd with peQueue := [], running := s.cmd.running.map (fun r => { r with discard := r.discard || isFm r.req.route }) } })
    ∧ exec .pePerstNAssert s = .next (settle (originLost isFm { s with mbx := { bar2 := s.mbx.bar2 }, cmd := { s.cmd with peQueue := [], running := s.cmd.running.map (fun r => { r with discard := r.discard || isFm r.req.route }) } }))
    ∧ exec .peLinkDown s = .next (settle (originLost isFm s))
    ∧ (∀ level, exec (.trstNChange level) s = .next (settle (requestDomain 155 (if level then .on else .off) false { s with pwr := { s.pwr with trstN := level } }).2))

/-- Accesses to a binding's page by its host, through a port that is up while the device takes requests (R462 to R465, R531, R532): a consumer index that leaves at most 128 outstanding is taken; a tenant doorbell of a free mailbox posts its command, and one of a busy mailbox is ignored and counted; clearing MBX_TEN_DONE frees the mailbox; a read of the durable-epoch block is answered with the page's bytes when no earlier posted write of the binding waits, and waits when one does (R410); a message window with a peer sends its datagram through the port's meters and shaper, and one without is counted; a read past the block is answered at once; a write of the binding's interrupt enable is taken. It rests on the model's own choices in log entries 17, 35. A page access on a port that is up, in a running device, that no binding's page takes (R462): a write and a Den host's read are counted, and a CXL host's read answers 0. In a state that takes no requests (R18) a binding's page serves nothing: a posted write there leaves a notice of its loss, and a read is answered with no data. On a port that is not up nothing happens (R180). It rests on the model's own choices in log entry 17. -/
def Obligations.BindingPages : Prop :=
  (∀ (r : PageRef) (s : State) (i : Nat), lpUp s r.lp.val = true → takesRequests s = true → pageBinding s r.lp.val r.pasid.toNat r.page = some i →
    (∀ v, ((tget s.ten.rings i).prod - v).toNat ≤ 128 → exec (.mbxNtcConsWrite r v) s = .next (settle { s with ten := { s.ten with rings := tset s.ten.rings i { tget s.ten.rings i with cons := v } } }))
    ∧ (∀ v, v.getLsbD 0 = true → (tget s.ten.mbxs (mbxIndex s i)).db = false → (tget s.ten.mbxs (mbxIndex s i)).done = false →
        exec (.mbxTenDbWrite r v) s = .next (settle { s with ten := { s.ten with mbxs := tmod s.ten.mbxs (mbxIndex s i) (fun m => { m with db := true, origin := handleOf s 1 i }) }, cmd := { s.cmd with tenQueue := s.cmd.tenQueue ++ [mbxIndex s i] } }))
    ∧ (∀ v, v.getLsbD 0 = true → ((tget s.ten.mbxs (mbxIndex s i)).db || (tget s.ten.mbxs (mbxIndex s i)).done) = true →
        exec (.mbxTenDbWrite r v) s = .next (settle (bumpC .tenIgn (mbxIndex s i) 0 1 {} { s with ten := { s.ten with mbxs := tmod s.ten.mbxs (mbxIndex s i) (fun m => { m with ignored := m.ignored + 1 }) } })))
    ∧ (∀ v, v.getLsbD 0 = true → exec (.mbxTenDoneClear r v) s = .next (settle { s with ten := { s.ten with mbxs := tmod s.ten.mbxs (mbxIndex s i) (fun m => { m with done := false }) } }))
    ∧ (∀ off, (bindOf s i).posted = 0 → exec (.durableEpochBlockRead r off) s = .next (settle (emit (.page (((pageBytes s i).drop off).take (64 - off))) s)))
    ∧ (∀ off, off < 64 → (bindOf s i).posted ≠ 0 → exec (.durableEpochBlockRead r off) s = .next (settle { s with ten := { s.ten with pageReads := s.ten.pageReads ++ [{ idx := i, who := .host, off := off, len := 64 - off }] } }))
    ∧ (∀ data, bitOf (bindOf s i).peer 15 = false → exec (.messageWindowWrite r data) s = .next (settle (bump .disMsg 0 s)))
    ∧ (∀ data f, bitOf (bindOf s i).peer 15 = true →
        f = sealHdr { opcode := 0x01, prio := BitVec.ofNat 3 (tenantOf s (bindOf s i).tenant).prio, chan := 7, cls := clsMG, did := BitVec.ofNat 12 (bindOf s i).peer, sid := BitVec.ofNat 12 (didOf s (bindOf s i).lp), binding := handleOf s 1 i, length := BitVec.ofNat 16 data.length, data := data } →
        exec (.messageWindowWrite r data) s = .next (settle (meterAndShape (bindOf s i).lp f (frameLen f) 0 s)))
    ∧ (∀ off len, 64 ≤ off → exec (.bindingPageAccess r (.read off len)) s = .next (settle (emit (.page (((pageBytes s i).drop off).take (min len (16384 - off)))) s)))
    ∧ (∀ v posted, exec (.bindingPageAccess r (.write 0x8C v posted)) s = .next (settle { s with ten := { s.ten with bindings := tmod s.ten.bindings i (fun b => { b with irq := v.getLsbD 0 }) } })))
  ∧ (∀ (r : PageRef) (s : State),
    (settRuns s = true → lpUp s r.lp.val = true → pageBinding s r.lp.val r.pasid.toNat r.page = none →
      (∀ v, exec (.mbxNtcConsWrite r v) s = .next (settle (bump .pageMiss 0 s)))
      ∧ (∀ v, exec (.mbxTenDbWrite r v) s = .next (settle (bump .pageMiss 0 s)))
      ∧ (∀ data, exec (.messageWindowWrite r data) s = .next (settle (bump .pageMiss 0 s)))
      ∧ (∀ off len, isCxl s r.lp.val = false → exec (.bindingPageAccess r (.read off len)) s = .next (settle (bump .pageMiss 0 s)))
      ∧ (∀ off len, isCxl s r.lp.val = true → exec (.bindingPageAccess r (.read off len)) s = .next (settle (emit (.page (zeros len)) s))))
    ∧ (∀ i, settRuns s = true → lpUp s r.lp.val = true → takesRequests s = false → pageBinding s r.lp.val r.pasid.toNat r.page = some i →
      (∀ v, exec (.mbxNtcConsWrite r v) s = .next (settle (addNotice (handleOf s 1 i) .unavailable 0 (epochNow s) s)))
      ∧ (∀ off len, exec (.bindingPageAccess r (.read off len)) s = .next (settle (emit (.page []) s))))
    ∧ (lpUp s r.lp.val = false → ∀ a, exec (.bindingPageAccess r a) s = .next (settle s)))

/-- A write to MBX_NTC_CONS that would make MBX_NTC_PROD − MBX_NTC_CONS, modulo 2^32, greater than 128 is ignored and counted (R464): the count is all that it leaves. -/
def Obligations.ConsumerIndexOverrunIsIgnored : Prop :=
  ∀ (r : PageRef) (s : State) (i : Nat) (v : BitVec 32), lpUp s r.lp.val = true → takesRequests s = true → pageBinding s r.lp.val r.pasid.toNat r.page = some i →
    128 < ((tget s.ten.rings i).prod - v).toNat → exec (.mbxNtcConsWrite r v) s = .next (settle (bump .ignCons 0 s))

/-- Dispatch while commands run and fewer than 8 do (R496, R497, R507): the first waiting command of the queue whose turn it is leaves its queue and is carried out, and the turn passes to the next queue; a fabric manager's slot becomes RUNNING, and a tenant's mailbox running. With no queue that waits, nothing happens. It rests on the model's own choices in log entry 36. A posted command whose Deadline has passed leaves its queue and completes with TIMEOUT (R510, R544), and before it passes nothing happens; a management message of this vendor is queued while fewer than four of the board management controller's commands are queued or running, and is discarded and counted otherwise (R497). It rests on the model's own choices in log entries 94, 95. -/
def Obligations.DispatchAndPostedCommands : Prop :=
  (∀ s : State, commandsRun s = true → s.cmd.running.length < 8 →
    (nextQueue s = none → exec .commandDispatch s = .next (settle s))
    ∧ (∀ k r, nextQueue s = some 0 → s.cmd.peQueue = k :: r → exec .commandDispatch s = .next (settle (startRequest (.pe (Fin.ofNat 16 k)) (slotRequest s k).1 (slotRequest s k).2
        { s with cmd := { s.cmd with turn := 1, peQueue := r }, mbx := { s.mbx with slots := tset s.mbx.slots k .running } })))
    ∧ (∀ x r, nextQueue s = some 1 → s.i3c.queue = x :: r → exec .commandDispatch s = .next (settle (startRequest (.i3c x.eid x.tag) (i3cRequest x).1 (i3cRequest x).2
        { s with cmd := { s.cmd with turn := 2 }, i3c := { s.i3c with queue := r } })))
    ∧ (∀ k r, nextQueue s = some 2 → s.cmd.tenQueue = k :: r → exec .commandDispatch s = .next (settle (startRequest (.tenant (tget s.ten.mbxs k).origin) (tenRequest (tget s.ten.mbxs k)).1 (tenRequest (tget s.ten.mbxs k)).2
        { s with cmd := { s.cmd with turn := 0, tenQueue := r }, ten := { s.ten with mbxs := tmod s.ten.mbxs k (fun m => { m with run := true }) } }))))
  ∧ (∀ s : State,
    (∀ r h, commandsRun s = true → postedHeader s r = some h → (reqOf r h).deadline ≠ 0 → (reqOf r h).deadline.toNat < ftCount s →
      exec (.commandDeadline r) s = .next (settle (refuseCmd (fieldAt h 0 2) (reqOf r h) .timeout 0 0 (unpost r s))))
    ∧ (∀ r h, postedHeader s r = some h → ftCount s ≤ (reqOf r h).deadline.toNat → exec (.commandDeadline r) s = .next (settle s))
    ∧ (∀ e t body, fwRuns s = true → fieldAt body 0 2 = s.fuses.vendor.toNat → s.i3c.queue.length + (s.cmd.running.filter (fun r => isBmc r.req.route)).length < 4 →
      exec (.mctpRequest e t body) s = .next (settle { s with i3c := { s.i3c with queue := s.i3c.queue ++ [{ eid := e, tag := t, bytes := body.drop 2 }] } }))
    ∧ (∀ e t body, fwRuns s = true → fieldAt body 0 2 = s.fuses.vendor.toNat → 4 ≤ s.i3c.queue.length + (s.cmd.running.filter (fun r => isBmc r.req.route)).length →
      exec (.mctpRequest e t body) s = .next (settle (bump .i3cDisc 0 s))))

/-- What becomes durable: while no move of the journal is under way, an answer for a delta that waits marks every record up to it as held by the journal devices that took it, and a device that did not take it has failed (R425, R430); a move of the journal that both devices took switches to them, and one that either did not take is given up and its command completes with TIMEOUT; a waiting record or seal of the flash summary goes to flash, of the two oldest the one with the earlier stamp (R540). It rests on the model's own choices in log entry 39. The record that ends a drain (R19, R586), in a running device outside Hibernate whose write-backs and flushes are over: D becomes the epoch in force, the next epoch opens at once, the drain step ends, and in the Drain state the drain is done; the Drey and the device's state stay as they are. It rests on the model's own choices in log entry 38. -/
def Obligations.RecordsBecomeDurable : Prop :=
  (∀ s : State,
    (∀ seq prim mirr, s.journal.moving = none → jWaiting s seq = true → exec (.journalDeltaDurable seq prim mirr) s = .next (settle
      (jFailure (!prim && s.journal.primOk) (!mirr && s.journal.mirrOk) { s with journal := { s.journal with recs := s.journal.recs.map (fun r => if r.seq ≤ seq then { r with prim := r.prim || (prim && s.journal.primOk), mirr := r.mirr || (mirr && s.journal.mirrOk) } else r) } })))
    ∧ (∀ seq m, s.journal.moving = some m → s.journal.nextSeq ≤ seq → exec (.journalDeltaDurable seq true true) s = .next (settle (journalSwitch m s)))
    ∧ (∀ seq m mirr, s.journal.moving = some m → s.journal.nextSeq ≤ seq → exec (.journalDeltaDurable seq false mirr) s = .next (settle (completeRunning waitsJournal (fun r => { r with status := .timeout, waits := [] }) { s with journal := { s.journal with moving := none } })))
    ∧ (∀ r, settRuns s = true → s.log.waitRecs.getLast? = some r → s.log.waitSeals = [] → exec .flashSummaryWrite s = .next (settle (bump .flashW 0 { s with log := { s.log with waitRecs := s.log.waitRecs.dropLast, flashRecs := (r :: s.log.flashRecs).take 16384 } })))
    ∧ (∀ r x, settRuns s = true → s.log.waitRecs.getLast? = some r → s.log.waitSeals.getLast? = some x → x.stamp < r.stamp → exec .flashSummaryWrite s = .next (settle (bump .flashW 0 { s with log := { s.log with waitSeals := s.log.waitSeals.dropLast, flashSeals := (x :: s.log.flashSeals).take 2048 } }))))
  ∧ (∀ s : State, drainReady s = true → s.dev.st ≠ .hibernate → fwRuns s = true →
    ∃ t, exec .drainRecordWritten s = .next (settle t) ∧ t.hoard.durable = max s.hoard.durable s.hoard.epoch ∧ t.hoard.epoch = s.hoard.epoch + 1
      ∧ t.hoard.start = now s ∧ t.dev.drainStep = 0 ∧ t.dev.drainDone = (s.dev.st == .drain) ∧ t.dev.st = s.dev.st ∧ t.drey = s.drey)

/-- Expiries: a mediated request that is past its deadline is closed and its command ends with TIMEOUT (R458); a live lease whose holder has been lost or silent for 250 ms is freed, recorded, told and counted, and not before (R488); evidence of one identity that has expired is dropped, and so are a challenge and an unlock at their ends, and not before, the end of an unlock with its record (R577, R579, R582). It rests on the model's own choices in log entries 46, 48. The steps of a hitless takeover in a running device (R571 to R573): a staged image that fails a check of R558 abandons the update with AUTH_FAIL and that check's number, and one that passes goes on with a new alias seed and vector 2; once only its own command runs, management pauses; then the other pair of cores becomes the active one and runs the other bank, where only the takeover's own commands still run; last the new image is the standby pair's too. While another command runs, the third step does nothing. -/
def Obligations.ManagementExpiriesAndTakeover : Prop :=
  (∀ s : State,
    (∀ ev m, medReqOf s ev = some m → m.deadline ≤ now s → exec (.mediatedRequestTimeout ev) s = .next (settle (completeRunning (fun r => r.waits == [Wait.mediated ev]) (fun r => { r with status := .timeout }) { s with ten := { s.ten with medReqs := s.ten.medReqs.filter (fun m => m.ev != ev) } })))
    ∧ (∀ h, (tget s.ten.leases (hIdx h)).live = true → liveHandle s h = true → leaseLost (tget s.ten.leases (hIdx h)) + 250000000 ≤ now s →
      exec (.leaseLapse h) s = .next (settle (bump .leaseLapses 0 (raise { code := 0x0503, cls := .notice, block := 226, h1 := h } (recordLease 0x0503 h (freeLease h s))))))
    ∧ (∀ h, now s < leaseLost (tget s.ten.leases (hIdx h)) + 250000000 → exec (.leaseLapse h) s = .next (settle s))
    ∧ (∀ r, exec (.evidenceExpiry r) s = .next (settle { s with sec := { s.sec with evidence := s.sec.evidence.filter (fun e => !(sameIdentity e.origin r && decide (now s ≥ e.until_))) } }))
    ∧ (∀ c e, s.sec.challenge = some (c, e) → e ≤ now s → exec .challengeExpiry s = .next (settle { s with sec := { s.sec with challenge := none } }))
    ∧ (∀ c e, s.sec.challenge = some (c, e) → now s < e → exec .challengeExpiry s = .next (settle s))
    ∧ (∀ u e, s.sec.unlock = some (u, e) → e ≤ now s → exec .unlockExpiry s = .next (settle (recordSecurity 0x0DFF 3 0 { s with sec := { s.sec with unlock := none } })))
    ∧ (∀ u e, s.sec.unlock = some (u, e) → now s < e → exec .unlockExpiry s = .next (settle s)))
  ∧ (∀ s : State, fwRuns s = true →
    (∀ d, s.sec.takeover = 2 → imageFails s.fuses 2 (partOf s (1 - s.sec.activeBank) 2).bytes = some d → exec .takeoverStepDone s = .next (settle (abandonUpdate .authFail d s)))
    ∧ (s.sec.takeover = 2 → imageFails s.fuses 2 (partOf s (1 - s.sec.activeBank) 2).bytes = none →
        exec .takeoverStepDone s = .next (settle (msix 2 { s with sec := { s.sec with takeover := 3, newSeed := some (aliasFrom s.fuses.secret s.sec.measFs (measure (partOf s (1 - s.sec.activeBank) 2).bytes)) } })))
    ∧ (s.sec.takeover = 3 → s.cmd.running.all waitsTakeover = true → exec .takeoverStepDone s = .next (settle { s with sec := { s.sec with takeover := 4, paused := true, pausedAt := now s } }))
    ∧ (s.sec.takeover = 3 → s.cmd.running.all waitsTakeover = false → exec .takeoverStepDone s = .next (settle s))
    ∧ (s.sec.takeover = 4 → exec .takeoverStepDone s = .next (settle (takeoverU5 s)))
    ∧ ((∀ r ∈ s.cmd.running, r.waits = [.takeover]) → (takeoverU5 s).hb.activePair = 1 - s.hb.activePair ∧ (takeoverU5 s).sec.activeBank = 1 - s.sec.activeBank)
    ∧ (s.sec.takeover = 6 → exec .takeoverStepDone s = .next (settle { s with sec := { s.sec with takeover := 0, updating := false, fwStandby := s.sec.fwActive }, hb := { s.hb with standbyHealthy := true } })))

/-- Resets and power by command and by pin (R17, R20, R22, R584, R586, R726): a warm reset that is due begins a warm start of kind 2 from Test, Recovery, Service or Drain, is ignored and counted in Hibernate, and does nothing before it is due; an Off that is due is entered from Drain; PORST_N low for 10 µs takes the device to Off at once, unless it is in Grave, and a shorter pulse does nothing; the cold start begins from Off while VIN12 is there. It rests on the model's own choices in log entry 40. -/
def Obligations.ResetsAndPower : Prop :=
  ∀ s : State,
    (∀ t, s.start.warmAt = some t → t ≤ now s → (s.dev.st = .test ∨ s.dev.st = .recovery ∨ s.dev.st = .service ∨ s.dev.st = .drain) →
      exec .warmReset s = .next (settle (warmBegin 2 { iface := s.start.byCmd.1, identity := s.start.byCmd.2.1, code := s.start.byCmd.2.2.1, trigger := 5, arg := s.start.byCmd.2.2.2 } s)))
    ∧ (∀ t, s.start.warmAt = some t → t ≤ now s → s.dev.st = .hibernate → exec .warmReset s = .next (settle { s with start := { s.start with warmAt := none }, grave := { s.grave with ignoredResets := s.grave.ignoredResets + 1 } }))
    ∧ (∀ t, s.start.warmAt = some t → now s < t → exec .warmReset s = .next (settle s))
    ∧ (∀ t, s.start.offAt = some t → t ≤ now s → s.dev.st = .drain →
      exec .offEntry s = .next (settle (enterOff { iface := s.start.byCmd.1, identity := s.start.byCmd.2.1, code := s.start.byCmd.2.2.1, trigger := 1, arg := s.start.byCmd.2.2.2 } s)))
    ∧ (∀ n, n < 10000 → exec (.porstNAssert n) s = .next (settle s))
    ∧ (∀ n, 10000 ≤ n → exec (.porstNAssert n) s = .next (settle (offAtOnce { s with pins := { s.pins with porstN := false } })))
    ∧ (∀ n, 10000 ≤ n → s.dev.st ≠ .grave → (offAtOnce { s with pins := { s.pins with porstN := false } }).dev.st = .off)
    ∧ (s.dev.st = .off → s.pins.vin12Low = false →
      exec .coldStart s = .next (settle (beginStart 1 { identity := 163, trigger := 8 } { countAnew { s with pins := { s.pins with porstN := true, vaon := true } } with pwr := { s.pwr with clks := aonClocks s } })))
    ∧ (s.dev.st ≠ .off → exec .coldStart s = .next (settle { s with pins := { s.pins with porstN := true, vaon := true } }))

/-- The steps of a start in Boot (R587 to R605): first every step whose trigger is there begins; then a step that runs, and whose conditions hold, ends with what was found of it, which lets further steps begin, and any other `START_STEP_DONE` does no more. A port wave whose time has come, in its turn of step K10, turns its port domain on and begins each of its 16 ports, and before its time it begins none. It rests on the model's own choices in log entries 78, 79, 80, 81, 82, 83. A quarantined port of a running device whose start is over is tried again when its next attempt is due, at most 15 times (R593): the attempt is counted, the next one falls due 2 s later, and the port begins its bring-up where it is eligible; one that is not eligible fails the attempt at once. After 15 attempts, and before the next is due, nothing happens. It rests on the model's own choices in log entry 87. Recovery mode (R561), in a start of kind 4 in Boot: a doorbell of slot 0 alone offers the image at the start of BAR2 while the first stage is waited for, and one that passes the checks of R558 reads the ledger and ends step K2; a doorbell of slot 1 alone offers the image 2 MiB further on while the runtime is waited for, and one that passes is measured and ends step K5; an image that fails changes nothing. Outside such a start a doorbell changes nothing. It rests on the model's own choices in log entry 85. -/
def Obligations.StartSteps : Prop :=
  (∀ s : State, s.dev.st = .boot →
    (∀ (k : Fin 14) (e : StepEnd), kRuns (kAdvance s) k.val = true → stepReady (kAdvance s) k.val = true → exec (.startStepDone k e) s = .next (settle (kAdvance (stepEnd k.val e (kAdvance s)))))
    ∧ (∀ (k : Fin 14) (e : StepEnd), (kRuns (kAdvance s) k.val = false ∨ stepReady (kAdvance s) k.val = false) → exec (.startStepDone k e) s = .next (settle (kAdvance s)))
    ∧ (∀ d : Fin 8, kRuns (kAdvance s) 10 = true → (kAdvance s).dev.st = .boot → (kAdvance s).start.wave = d.val → (kOf (kAdvance s) 10).began + 25000000 * d.val ≤ now (kAdvance s) →
      exec (.portWave d) s = .next (settle (waveAdvance ((rangeFrom (16 * d.val) 16).foldl (fun s p => wavePort p s) (modStart (fun x => { x with wave := d.val + 1 }) (requestDomain (128 + d.val) .on true (kAdvance s)).2)))))
    ∧ (∀ d : Fin 8, now (kAdvance s) < (kOf (kAdvance s) 10).began + 25000000 * d.val → exec (.portWave d) s = .next (settle (kAdvance s))))
  ∧ (∀ (p : PortId) (s t : State), settRuns s = true → s.dev.st ≠ .hibernate → kDone s 13 = true → (tget s.start.quar p.val).quarantined = true →
    t = stepOpen 0x20 p.val 0 (modStart (fun x => { x with quar := tset x.quar p.val { tget s.start.quar p.val with trying := true, attempts := (tget s.start.quar p.val).attempts + 1, nextAt := now s + 2000000000 }, waveEnd := tset x.waveEnd p.val (now s + 25000000) }) s) →
    ((tget s.start.quar p.val).trying = false → max (tget s.start.quar p.val).nextAt s.start.readyAt ≤ now s → (tget s.start.quar p.val).attempts < 15 → portEligible t p.val = true → exec (.startQuarantineRetry p) s = .next (settle (waveAdvance (portStep2 p.val t))))
    ∧ ((tget s.start.quar p.val).trying = false → max (tget s.start.quar p.val).nextAt s.start.readyAt ≤ now s → (tget s.start.quar p.val).attempts < 15 → portEligible t p.val = false → exec (.startQuarantineRetry p) s = .next (settle (startFailed p.val t)))
    ∧ (15 ≤ (tget s.start.quar p.val).attempts → exec (.startQuarantineRetry p) s = .next (settle s))
    ∧ (now s < (tget s.start.quar p.val).nextAt → exec (.startQuarantineRetry p) s = .next (settle s)))
  ∧ (∀ (v : BitVec 32) (s : State),
    ((s.dev.st ≠ .boot ∨ s.start.kind ≠ 4) → exec (.recoveryModeDoorbell v) s = .next (settle s))
    ∧ (s.dev.st = .boot → s.start.kind = 4 → s.start.recovMode = 1 → v.getLsbD 0 = true → v.getLsbD 1 = false → imageFails s.fuses 1 (bar2Image s 0) = none →
        exec (.recoveryModeDoorbell v) s = .next (settle (kAdvance (k2End (bar2Image s 0) (modStart (fun x => { x with recovMode := 2 }) (readLedger true true (kAdvance s)))))))
    ∧ (∀ d, s.dev.st = .boot → s.start.kind = 4 → s.start.recovMode = 1 → v.getLsbD 0 = true → v.getLsbD 1 = false → imageFails s.fuses 1 (bar2Image s 0) = some d → exec (.recoveryModeDoorbell v) s = .next (settle s))
    ∧ (s.dev.st = .boot → s.start.kind = 4 → s.start.recovMode = 2 → v.getLsbD 0 = false → v.getLsbD 1 = true → kRuns s 5 = true → imageFails s.fuses 2 (bar2Image s 0x200000) = none →
        exec (.recoveryModeDoorbell v) s = .next (settle (kAdvance (kEnd 5 0 { s with sec := { s.sec with measRt := measure (bar2Image s 0x200000) } }))))
    ∧ (∀ d, s.dev.st = .boot → s.start.kind = 4 → s.start.recovMode = 2 → v.getLsbD 0 = false → v.getLsbD 1 = true → kRuns s 5 = true → imageFails s.fuses 2 (bar2Image s 0x200000) = some d → exec (.recoveryModeDoorbell v) s = .next (settle s)))

/-- Discovery rounds while the runtime serves them (R608, R609): a grandmaster whose start is over and that has been one for 1 ms begins its first round under a number above every round it has seen, as its own first entry, and probes its ports; a module that is not grandmaster begins none; at the deadline of a round the ports that have not answered are told of and the round ends at this module, and before it nothing happens. It rests on the model's own choices in log entries 47, 88. Discovery messages (R606, R609). On a port that is no Den fabric port or not up, a message is a routing discard. On one that is, while the runtime serves discovery: a PROBE of no newer round, and one that does not come from the parent, is answered with a REPORT of no child; a new PROBE from the parent ends at once with the module's own entry while the module still boots, and otherwise is passed on to its other probe ports; a REPORT of the round in hand, before its deadline, from the last port awaited adds its entries and ends the round at this module; READY of the round in hand from the prober is kept and passed on to the children; any other READY only shows its round's number. It rests on the model's own choices in log entry 88. -/
def Obligations.Discovery : Prop :=
  (∀ s : State, discRuns s = true →
    (∀ t, s.ft.gm = true → kDone s 13 = true → s.io.gmSince = some t → t + 1000000 ≤ now s → s.disc.round = 0 →
      exec .discoveryRoundStart s = .next (settle (forwardProbes (probePorts s) (modDisc (fun d => { d with round := max s.disc.highest 0 + 1, highest := max s.disc.highest 0 + 1, inRound := true, gmSerial := s.fuses.serial.toNat, roundStart := now s, depth := 0, from_ := none, awaiting := probePorts s, entries := [selfEntry s 0], booting := false, ready := false, endedAt := none, children := [], newModule := false, upPorts := denUp s }) s))))
    ∧ (s.ft.gm = false → exec .discoveryRoundStart s = .next (settle s))
    ∧ (s.disc.inRound = true → s.disc.awaiting ≠ [] → discDeadline s ≤ now s →
      exec .discoveryDeadline s = .next (settle (roundFinish (s.disc.awaiting.foldl (fun s n => raise { code := 0x02FF, cls := .notice, block := n / 2, detail := 2, arg := n } s) { s with disc := { s.disc with awaiting := [] } }))))
    ∧ (now s < discDeadline s → exec .discoveryDeadline s = .next (settle s)))
  ∧ (∀ (lp : LpId) (m : DiscMsg) (s : State), settRuns s = true →
    (discPort s lp.val = false → exec (.probe lp m) s = .next (settle (bump .routeDisc lp.val s)) ∧ exec (.report lp m) s = .next (settle (bump .routeDisc lp.val s)) ∧ exec (.ready lp m) s = .next (settle (bump .routeDisc lp.val s)))
    ∧ (discPort s lp.val = true → discRuns s = true → m.round ≤ s.disc.round → exec (.probe lp m) s = .next (settle (sendDisc lp.val { subtype := 2, depth := s.disc.depth, round := m.round, gmSerial := m.gmSerial, roundStart := m.roundStart } { s with disc := { s.disc with highest := max s.disc.highest m.round } })))
    ∧ (discPort s lp.val = true → discRuns s = true → s.disc.round < m.round → s.ft.parent = some lp → s.ft.mode = .boot → exec (.probe lp m) s = .next (settle (roundFinish
        { s with disc := { s.disc with highest := max s.disc.highest m.round, round := m.round, inRound := true, gmSerial := m.gmSerial, roundStart := m.roundStart, depth := m.depth + 1, from_ := some lp, awaiting := [], entries := [selfEntry s (m.depth + 1)], booting := true, ready := false, endedAt := none, children := [] } })))
    ∧ (∀ u, discPort s lp.val = true → discRuns s = true → s.disc.round < m.round → s.ft.parent = some lp → s.ft.mode ≠ .boot → kDone s 13 = true →
        u = { s with disc := { s.disc with highest := max s.disc.highest m.round } } → exec (.probe lp m) s = .next (settle (forwardProbes ((probePorts u).filter (fun k => k != lp.val))
        { u with disc := { u.disc with round := m.round, inRound := true, gmSerial := m.gmSerial, roundStart := m.roundStart, depth := m.depth + 1, from_ := some lp, awaiting := (probePorts u).filter (fun k => k != lp.val), entries := [selfEntry u (m.depth + 1)], booting := false, ready := false, endedAt := none, children := [] } })))
    ∧ (discPort s lp.val = true → discRuns s = true → s.disc.round < m.round → s.ft.parent ≠ some lp → exec (.probe lp m) s = .next (settle (sendDisc lp.val { subtype := 2, depth := s.disc.depth, round := m.round, gmSerial := m.gmSerial, roundStart := m.roundStart } { s with disc := { s.disc with highest := max s.disc.highest m.round } })))
    ∧ (discPort s lp.val = true → discRuns s = true → s.disc.inRound = true → m.round = s.disc.round → s.disc.awaiting = [lp.val] → now s < discDeadline s → m.child = true → exec (.report lp m) s = .next (settle (roundFinish
        { s with disc := { s.disc with highest := max s.disc.highest m.round, awaiting := [], entries := s.disc.entries ++ m.entries, children := s.disc.children ++ [lp.val], booting := s.disc.booting || m.booting } })))
    ∧ (∀ u, discPort s lp.val = true → discRuns s = true → s.disc.from_ = some lp → m.round = s.disc.round →
        u = { s with disc := { s.disc with highest := max s.disc.highest m.round, inRound := false, ready := true, readyRound := m.round, readyEntries := m.entries } } →
        exec (.ready lp m) s = .next (settle (s.disc.children.foldl (fun s n => sendDisc n { roundMsg s 3 with entries := m.entries } s) u)))
    ∧ (discPort s lp.val = true → discRuns s = true → (s.disc.from_ ≠ some lp ∨ m.round ≠ s.disc.round) → exec (.ready lp m) s = .next (settle { s with disc := { s.disc with highest := max s.disc.highest m.round } })))

/-- Dizal acts on PFAIL_N once it has stayed low for 2 µs; a shorter low pulse is counted and has no other effect (R413). The fall starts the count, and the rise ends it. -/
def Obligations.PfailActsAfterTwoMicroseconds : Prop :=
  ∀ s : State,
    (s.hib.pfailLow = false → exec .pfailNFall s = .next (settle { s with hib := { s.hib with pfailLow := true, lowSince := now s } }))
    ∧ (s.hib.pfailLow = true → exec .pfailNFall s = .next (settle s))
    ∧ exec .pfailNRise s = .next (settle { s with hib := { s.hib with pfailLow := false } })
    ∧ (s.hib.pfailLow = true → now s < s.hib.lowSince + 2000 → exec .pfailNShortPulse s = .next (settle (bump .shortPfail 0 { s with hib := { s.hib with pfailLow := false } })))
    ∧ (s.hib.pfailLow = true → now s < s.hib.lowSince + 2000 → exec .hibernate s = .next (settle s))
    ∧ (s.hib.pfailLow = true → s.hib.lowSince + 2000 ≤ now s → exec .hibernate s = .next (settle (powerFail s)))

/-- A power failure (R413, R414), by PFAIL_N held low for 2 µs or by VIN12's power-fail threshold: from Recovery, Service or Drain of a running device it takes an epoch boundary that is due and begins Hibernate, from Boot or Test it enters Off, with the start's open steps marked abandoned and the state it came from kept for its tick, and in Off, Grave or Hibernate VIN12's threshold has no effect. The steps of Hibernate after the first (R414): the second ends when no flow is left or 20 µs after t0, and not before; the third ends when every write-back has gone, and not before; the fourth takes the targets' answers; after the fifth the device enters Off, with a hibernate record held by the journal devices that took it, or with none when none did. It rests on the model's own choices in log entry 37. The supplies (R17, R20, R656, R728, R729, R732): the fall of VIN12 takes the device to Off at once and starts the second after which its absence clears Grave; a clear of Grave after that second forgets its cause, releases ALERT_N and TRIP_N, and takes a device in Grave to Off; the return of VIN12 begins a cold start where the conditions of one hold; the loss of VAON takes the device to Off; Off at once leaves Grave as it is. It rests on the model's own choices in log entry 40. -/
def Obligations.PowerFailureAndSupplies : Prop :=
  (∀ s : State,
    (s.hib.pfailLow = true → s.hib.lowSince + 2000 ≤ now s → (s.dev.st = .recovery ∨ s.dev.st = .service ∨ s.dev.st = .drain) → fwRuns s = true → exec .hibernate s = .next (settle (hibernateH1 (epochBoundary s))))
    ∧ (s.hib.pfailLow = true → s.hib.lowSince + 2000 ≤ now s → (s.dev.st = .boot ∨ s.dev.st = .test) → exec .hibernate s = .next (settle (modDev (fun d => { d with pfailOff := some (now s, s.dev.st) }) (enterOff { identity := 163, trigger := 2 } (markAbandoned s)))))
    ∧ ((s.dev.st = .recovery ∨ s.dev.st = .service ∨ s.dev.st = .drain) → fwRuns s = true → exec .vin12PowerFail s = .next (settle (hibernateH1 (epochBoundary s))))
    ∧ ((s.dev.st = .off ∨ s.dev.st = .grave ∨ s.dev.st = .hibernate) → exec .vin12PowerFail s = .next (settle s))
    ∧ ((s.dev.st = .boot ∨ s.dev.st = .test) → exec .vin12PowerFail s = .next (settle (modDev (fun d => { d with pfailOff := some (now s, s.dev.st) }) (enterOff { identity := 163, trigger := 2 } (markAbandoned s))))))
  ∧ (∀ s : State, s.dev.st = .hibernate →
    (∀ ts, s.hib.step = 2 → (flowsLeft s = false ∨ s.hib.t0 + 20000 ≤ now s) → exec (.hibernateStepDone ts) s = .next (settle (hibernateH3 s)))
    ∧ (∀ ts, s.hib.step = 2 → flowsLeft s = true → now s < s.hib.t0 + 20000 → exec (.hibernateStepDone ts) s = .next (settle s))
    ∧ (∀ ts, s.hib.step = 3 → writesLeft s = false → exec (.hibernateStepDone ts) s = .next (settle (hibernateH4 s)))
    ∧ (∀ ts, s.hib.step = 3 → writesLeft s = true → exec (.hibernateStepDone ts) s = .next (settle s))
    ∧ (∀ ts, s.hib.step = 4 → exec (.hibernateStepDone ts) s = .next (settle (hibernateH4End (ts.map (fun t => (t.1.val, t.2))) s)))
    ∧ (s.hib.step = 5 → exec (.hibernateRecordCommitted false false) s = .next (settle (enterOff { identity := 224, trigger := 4 } s)))
    ∧ (∀ p m, s.hib.step ≠ 5 → exec (.hibernateRecordCommitted p m) s = .next (settle s))
    ∧ (∀ m, s.hib.step = 5 → s.journal.primOk = true → s.journal.set_ = true → exec (.hibernateRecordCommitted true m) s = .next (settle (enterOff { identity := 224, trigger := 4 }
        (markHeld s.journal.nextSeq true (m && s.journal.mirrOk) (jWrite (.hibernate (bodyNow s s.hib.t0 s.hib.eF (if s.hib.allFlushed then s.hib.eF else s.hib.dAt0) s.hib.allFlushed (!(m && s.journal.mirrOk)) s.hib.outcomes)) s).2)))))
  ∧ (∀ s : State,
    (s.pins.vin12Low = false → exec .vin12Undervoltage s = .next (settle (offAtOnce { s with pins := { s.pins with vin12Low := true, vinLowAt := now s } })))
    ∧ (s.pins.vin12Low = true → exec .vin12Undervoltage s = .next (settle s))
    ∧ (s.pins.vin12Low = true → s.pins.vinLowAt + 1000000000 ≤ now s → s.dev.st ≠ .grave → exec .graveClear s = .next (settle { s with grave := {}, pins := { s.pins with alertN := true }, therm := { s.therm with tripN := true } }))
    ∧ (s.pins.vin12Low = true → s.pins.vinLowAt + 1000000000 ≤ now s → s.dev.st = .grave → exec .graveClear s = .next (settle { powerLost (gatesLow { s with grave := {}, pins := { s.pins with alertN := true }, therm := { s.therm with tripN := true } }) with dev := { st := .off } }))
    ∧ (now s < s.pins.vinLowAt + 1000000000 → exec .graveClear s = .next (settle s))
    ∧ (s.pins.vin12Low = true → exec .vin12Return s = .next (settle (coldBegin { s with pins := { s.pins with vin12Low := false } })))
    ∧ (s.pins.vin12Low = false → exec .vin12Return s = .next (settle s))
    ∧ exec .vaonLoss s = .next (settle (offAtOnce { s with pins := { s.pins with vaon := false } }))
    ∧ (s.dev.st ≠ .grave → (offAtOnce s).dev.st = .off)
    ∧ (s.dev.st = .grave → (offAtOnce s).dev = s.dev))

/-- Debug accesses by a master that may make them (R490, R491): in a page of a locked region, while no verified unlock opens memory, a read sees all ones and a write is ignored, and each is counted and recorded; elsewhere a word of a stack is read or written, and fabric memory is read or written where the gate of its place passes the access, read as nothing and left alone where no gate serves it. A core of the pair not in control that makes an access is halted, so that its pair is no healthy standby. A master that may make none has no effect. It rests on the model's own choices in log entries 2, 45, 98. -/
def Obligations.DebugAccesses : Prop :=
  ∀ (m : DebugMaster) (t : DebugTarget) (s : State),
    (∀ w, debugLives m s = false → exec (.debugAccess m t w) s = .next (settle s))
    ∧ (debugLives .jtag s = true → lockedPage s t = true → bitOf (unlockScope s) 0 = false → exec (.debugAccess .jtag t none) s = .next (settle (emit (.debug (some (BitVec.allOnes 512))) (debugRefuse t s))))
    ∧ (∀ d, debugLives .jtag s = true → lockedPage s t = true → bitOf (unlockScope s) 0 = false → exec (.debugAccess .jtag t (some d)) s = .next (settle (debugRefuse t s)))
    ∧ (∀ n u, debugLives (.core n) s = true → u = { s with hb := { s.hb with standbyHealthy := false } } → lockedPage u t = true → bitOf (unlockScope u) 0 = false →
        exec (.debugAccess (.core n) t none) s = .next (settle (emit (.debug (some (BitVec.allOnes 512))) (debugRefuse t u))))
    ∧ (∀ k a d, debugLives .jtag s = true → t = .hbm k a → (lockedPage s t = false ∨ bitOf (unlockScope s) 0 = true) → exec (.debugAccess .jtag t (some d)) s = .next (settle (hbmWrite k.val a d s)))
    ∧ (∀ k a, debugLives .jtag s = true → t = .hbm k a → (lockedPage s t = false ∨ bitOf (unlockScope s) 0 = true) → exec (.debugAccess .jtag t none) s = .next (settle (emit (.debug (some (hbmRead k.val a s).1)) (hbmRead k.val a s).2)))
    ∧ (∀ a d g v, debugLives .jtag s = true → t = .fabric a → (lockedPage s t = false ∨ bitOf (unlockScope s) 0 = true) → debugGate s a = some g → gateCheck g (memFrame s (a / 64) (some (d, false)) 0 0) s = (.pass, v) →
        exec (.debugAccess .jtag t (some d)) s = .next (settle (fabricWrite a d v)))
    ∧ (∀ a g v, debugLives .jtag s = true → t = .fabric a → (lockedPage s t = false ∨ bitOf (unlockScope s) 0 = true) → debugGate s a = some g → gateCheck g (memFrame s (a / 64) none 0 0) s = (.pass, v) →
        exec (.debugAccess .jtag t none) s = .next (settle (emit (.debug (some (fabricRead a v).1)) (fabricRead a v).2)))
    ∧ (∀ a, debugLives .jtag s = true → t = .fabric a → (lockedPage s t = false ∨ bitOf (unlockScope s) 0 = true) → debugGate s a = none → exec (.debugAccess .jtag t none) s = .next (settle (emit (.debug none) s)))

/-- Block headers of a Den lane whose port is powered, neither disabled nor in DL2 (R41 to R46, R71, R97, R126). On a lane that is not locked a codeword that decodes lengthens the row of valid headers and counts what it corrected, the 64th in a row declares lock, and one that does not decode counts and starts the row again. On a locked lane of a live link in DL0 a codeword that does not decode counts, enters its port's window, and condemns the flits that have a byte in it; where it reaches the window's limit the link falls; and where it makes 16 of the last 64 headers invalid the lane loses its lock, after which it is not locked and hunts from now. A lane that has hunted for 100 µs on a live link asks for a retrain, and not before. Alignment markers that are due on a running transmitter leave, one on every lane in use with its lane's number within the port, and not before. -/
def Obligations.LaneEvents : Prop :=
  ∀ (lane : Fin 1024) (s : State) (n : Nat), n = lpOfLane s lane.val → portOn s n = true → isDen s n = true → (lpOf s n).link ≠ .disabled → (lpOf s n).dl ≠ .dl2 →
    (∀ i k, k ≤ 15 → (tget s.net.lanes lane.val).locked = false → (tget s.net.lanes lane.val).streak + 1 < 64 →
      exec (.laneLock lane [.codeword i (some k)]) s = .next (settle (modLane lane.val (fun x => { x with streak := (tget s.net.lanes lane.val).streak + 1 }) (bumpC .fecSym lane.val 0 k {} (bump .hdrValid lane.val s)))))
    ∧ (∀ i k, k ≤ 15 → (tget s.net.lanes lane.val).locked = false → (tget s.net.lanes lane.val).streak = 63 → (lpOf s n).huntFrom = none →
      exec (.laneLock lane [.codeword i (some k)]) s = .next (settle (modLane lane.val (fun x => { x with locked := true, streak := 0, headers := [], huntSince := none }) (bumpC .fecSym lane.val 0 k {} (bump .hdrValid lane.val s)))))
    ∧ (∀ i, (tget s.net.lanes lane.val).locked = false →
      exec (.laneLockLoss lane [.codeword i none]) s = .next (settle (modLane lane.val (fun x => { x with streak := 0 }) (bump .fecCw lane.val (bump .hdrInvalid lane.val s)))))
    ∧ (∀ i u, (tget s.net.lanes lane.val).locked = true → u = badCodeword n (.codeword i none) (bump .fecCw lane.val (bump .hdrInvalid lane.val s)) → 16 ≤ (((false :: (tget s.net.lanes lane.val).headers).take 64).filter (fun b => !b)).length →
      exec (.laneLockLoss lane [.codeword i none]) s = .next (settle (unlockLane lane.val u)))
    ∧ (∀ i u, (tget s.net.lanes lane.val).locked = true → u = badCodeword n (.codeword i none) (bump .fecCw lane.val (bump .hdrInvalid lane.val s)) → (((false :: (tget s.net.lanes lane.val).headers).take 64).filter (fun b => !b)).length < 16 →
      exec (.codewordUncorrectable lane i) s = .next (settle (modLane lane.val (fun x => { x with headers := (false :: (tget s.net.lanes lane.val).headers).take 64 }) u)))
    ∧ (∀ i u v, linkLive s n = true → v = modRx n (fun r => { r with bad := stillBad r.pos (r.bad ++ [condemnedBy (widthNow s n) i]) }) (bump .uncorrCw n (modWin n (fun w => { w with cw := now s :: slide (now s) (cfgOf s n).window (winOf s n).cw }) u)) →
      u = bump .fecCw lane.val (bump .hdrInvalid lane.val s) →
      badCodeword n (.codeword i none) u = if (cfgOf s n).cwLimit ≤ (slide (now s) (cfgOf s n).window (winOf s n).cw).length + 1 then fall n 0 v else v)
    ∧ (linkLive s n = true → (lpOf s n).dl = .dl0 → (tget (unlockLane lane.val s).net.lanes lane.val).locked = false ∧ (tget (unlockLane lane.val s).net.lanes lane.val).huntSince = some (now s))
    ∧ (∀ t, (tget s.net.lanes lane.val).huntSince = some t → linkLive s n = true → (initOf s n).retrain = 0 → t + 100000 ≤ now s → exec (.laneRelockTimeout lane) s = .next (settle (askRetrain n false s)))
    ∧ (∀ t, (tget s.net.lanes lane.val).huntSince = some t → now s < t + 100000 → exec (.laneRelockTimeout lane) s = .next (settle s))
    ∧ (∀ lp : LpId, isDen s lp.val = true → (txOf s lp.val).on = true → flitsPerMarker (widthNow s lp.val) ≤ (txOf s lp.val).pos → exec (.alignmentMarker lp) s = .next (settle (sendMarkers lp.val s)))
    ∧ (∀ lp : LpId, (txOf s lp.val).pos < flitsPerMarker (widthNow s lp.val) → exec (.alignmentMarker lp) s = .next (settle s))
    ∧ (∀ m, (sendMarkers m s).outbox = ((lanesInUse s m).map (fun k => Out.marker k (k % 8) (tget s.net.lanes k).txInv)).reverse ++ s.outbox ∧ (txOf (sendMarkers m s) m).pos = 0)

/-- Where the logical port is not in training, INIT messages, the time-out of initialisation and a bring-up of lanes have no effect (R110). Initialisation of a Den port in training (R109 to R112, R125). A HELLO of this version and width, not a resume when this end's is none, lengthens the row of HELLOs and names the peer, and the eighth in a row moves from step I1 to I2; one after eight is answered with an ECHO of its time; a HELLO of another version or width is a mismatch. In step I2 an ECHO gives the round trip, told where it is too long for the width, and is answered with DONE, and when the partner's DONE came before it the link comes up. A DONE in step I3 brings the link up, and one in step I2 is remembered with its lane port's number. 10 ms after the start of I1 the initialisation starts again, and the third failure quarantines the port. It rests on the model's own choices in log entry 71. A bring-up of the lanes of a Den port of eight lanes that is powered, at the start of a fresh training, with an accepted board table (R31, R46, R47, R58, R109): when every lane found a marker with its own number, each arrives with the polarity that the table's flag names, and the skew is at most 80 ns, every lane is locked, step I1 begins now, and a HELLO of a fresh link leaves. With more skew nothing comes up. -/
def Obligations.DenInitialisation : Prop :=
  (∀ (lp : LpId) (m : InitMsg) (s : State), (lpOf s lp.val).link ≠ .training →
    exec (.hello lp m) s = .next (settle s) ∧ exec (.echo lp m) s = .next (settle s) ∧ exec (.done lp m) s = .next (settle s) ∧ exec (.initTimeout lp) s = .next (settle s)
      ∧ (∀ marks inv k, exec (.denLinkUp lp marks inv k) s = .next (settle s)))
  ∧ (∀ (lp : LpId) (m : InitMsg) (s : State), (lpOf s lp.val).link = .training →
    ((initOf s lp.val).step ≠ 0 → m.version = 1 → m.width.toNat = widthNow s lp.val → m.resume = false → (initOf s lp.val).resume = false → (initOf s lp.val).hellos < 7 →
      exec (.hello lp m) s = .next (settle (modInit lp.val (fun i => { i with hellos := i.hellos + 1, peer := m }) s)))
    ∧ ((initOf s lp.val).step = 1 → m.version = 1 → m.width.toNat = widthNow s lp.val → m.resume = false → (initOf s lp.val).resume = false → (initOf s lp.val).hellos = 7 →
      exec (.hello lp m) s = .next (settle (modInit lp.val (fun i => { i with hellos := 8, step := 2, peer := m }) s)))
    ∧ (∀ t, 2 ≤ (initOf s lp.val).step → m.version = 1 → m.width.toNat = widthNow s lp.val → m.resume = false → (initOf s lp.val).resume = false → 8 ≤ (initOf s lp.val).hellos →
      t = modInit lp.val (fun i => { i with hellos := i.hellos + 1, peer := m }) s → exec (.hello lp m) s = .next (settle (sendInit lp.val { helloOf t lp.val with subtype := 2, echoed := m.sendStamp, residence := 0 } t)))
    ∧ ((initOf s lp.val).step ≠ 0 → (m.version ≠ 1 ∨ m.width.toNat ≠ widthNow s lp.val) → exec (.hello lp m) s = .next (settle (initMismatch lp.val s)))
    ∧ (∀ r t, r = (ftCount s - m.echoed.toNat - m.residence.toNat) / 65536 → t = modInit lp.val (fun i => { i with step := 3 }) (modTx lp.val (fun t => { t with rtt := r }) s) →
      (initOf s lp.val).step = 2 → (initOf s lp.val).gotDone = false → r ≤ (if widthNow s lp.val = 8 then 9400 else 19300) →
      exec (.echo lp m) s = .next (settle (sendInit lp.val { helloOf t lp.val with subtype := 3 } t)))
    ∧ (∀ r t, r = (ftCount s - m.echoed.toNat - m.residence.toNat) / 65536 →
      t = modInit lp.val (fun i => { i with step := 3 }) (raise { code := 0x0209, cls := .notice, block := lp.val / 2, arg := r } (modTx lp.val (fun t => { t with rtt := r }) s)) →
      (initOf s lp.val).step = 2 → (initOf s lp.val).gotDone = false → (if widthNow s lp.val = 8 then 9400 else 19300) < r →
      exec (.echo lp m) s = .next (settle (sendInit lp.val { helloOf t lp.val with subtype := 3 } t)))
    ∧ (∀ r t, r = (ftCount s - m.echoed.toNat - m.residence.toNat) / 65536 → t = modInit lp.val (fun i => { i with step := 3 }) (modTx lp.val (fun t => { t with rtt := r }) s) →
      (initOf s lp.val).step = 2 → (initOf s lp.val).gotDone = true → r ≤ (if widthNow s lp.val = 8 then 9400 else 19300) →
      exec (.echo lp m) s = .next (settle (linkUp lp.val (sendInit lp.val { helloOf t lp.val with subtype := 3 } t))))
    ∧ ((initOf s lp.val).step = 3 → exec (.done lp m) s = .next (settle (linkUp lp.val (modInit lp.val (fun i => { i with gotDone := true }) s))))
    ∧ ((initOf s lp.val).step = 2 → exec (.done lp m) s = .next (settle (modInit lp.val (fun i => { i with gotDone := true, peer := { i.peer with lp := m.lp } }) s)))
    ∧ ((initOf s lp.val).step ≠ 0 → (initOf s lp.val).began + 10000000 ≤ now s → (initOf s lp.val).attempts < 2 →
      exec (.initTimeout lp) s = .next (settle (modInit lp.val (fun i => { i with step := 0, hellos := 0, gotDone := false, attempts := i.attempts + 1 }) s)))
    ∧ ((initOf s lp.val).step ≠ 0 → (initOf s lp.val).began + 10000000 ≤ now s → 2 ≤ (initOf s lp.val).attempts →
      exec (.initTimeout lp) s = .next (settle (fall lp.val 2 (modInit lp.val (fun i => { i with step := 0, hellos := 0, gotDone := false, attempts := i.attempts + 1 }) s)))))
  ∧ (∀ (lp : LpId) (marks : List (Option Nat)) (inv : BitVec 8) (k : Nat) (s : State),
    (80 < k → exec (.denLinkUp lp marks inv k) s = .next (settle s))
    ∧ (isDen s lp.val = true → (lpOf s lp.val).link = .training → (lpOf s lp.val).idleUntil = none → (lpOf s lp.val).width4 = none → (initOf s lp.val).step = 0 → (initOf s lp.val).retrain = 0 → (initOf s lp.val).want = 0 →
      portOn s lp.val = true → s.sec.tableOk = true → (lanesOf s lp.val).length = 8 → k ≤ 80 → lp.val % 2 = 0 →
      (∀ i, i < 8 → marks.getD i none = some i ∧ inv.getLsbD i = bitOf (laneFlags s ((lanesOf s lp.val).getD i 0)) 1) →
      ∃ t, exec (.denLinkUp lp marks inv k) s = .next (settle (sendInit lp.val (helloOf t lp.val) (startTx lp.val t)))
        ∧ (initOf t lp.val).step = 1 ∧ (initOf t lp.val).began = now s ∧ (initOf t lp.val).resume = false ∧ (∀ l ∈ lanesOf s lp.val, (tget t.net.lanes l).locked = true)))

/-- A Den port that is powered, in DL0 and not in electrical idle sends one flit (R117): while it initialises a HELLO, or in step I3 a DONE; on a live link a retransmission that is asked for, else the first TIME message, else, while fewer than 4,096 flits wait for their acknowledgement, the first CTRL message, else a DATA flit where the link is up and there is anything to carry, else an IDLE; after which a port that agreed on DL1 may enter it. What leaves is the flit's bytes with the port's own ACK and SNAK, byte k on the lane whose number is k modulo the width (R96, R116). A port in electrical idle, in a low-power state or without power sends none. A flit that arrives on the lanes of a powered Den port in DL0, out of electrical idle (R93 to R97, R110, R119 to R121, R126), takes its place since the partner's marker. On a live link: one that a failed codeword condemned is counted as condemned, and only ends a row of HELLOs; one that fails its CRC is counted, enters its port's window, and ends the row; one whose type is reserved is a protocol error; an IDLE tells the highest number its sender has used; a TIME tells it too, and its message is taken; a DATA or CTRL flit goes in its sequence; the ACK and the SNAK of each of these are taken. While the port initialises, the message of an INIT flit is taken. A flit in DL1 starts the port's exit, and one in DL2 is not received. -/
def Obligations.FlitTransmissionAndReception : Prop :=
  (∀ (lp : LpId) (s : State), isDen s lp.val = true →
    (portOn s lp.val = false → exec (.flitTransmit lp) s = .next (settle s))
    ∧ ((lpOf s lp.val).dl ≠ .dl0 → exec (.flitTransmit lp) s = .next (settle s))
    ∧ (∀ t, (lpOf s lp.val).idleUntil = some t → exec (.flitTransmit lp) s = .next (settle s))
    ∧ (portOn s lp.val = true → (lpOf s lp.val).dl = .dl0 → (lpOf s lp.val).idleUntil = none → (lpOf s lp.val).link = .training →
      (((initOf s lp.val).step = 1 ∨ (initOf s lp.val).step = 2) → exec (.flitTransmit lp) s = .next (settle (sendInit lp.val (helloOf s lp.val) s)))
      ∧ ((initOf s lp.val).step = 3 → exec (.flitTransmit lp) s = .next (settle (sendInit lp.val { helloOf s lp.val with subtype := 3 } s))))
    ∧ (portOn s lp.val = true → (lpOf s lp.val).dl = .dl0 → (lpOf s lp.val).idleUntil = none → linkLive s lp.val = true →
      (∀ x, nextRetx (txOf s lp.val) = some x → exec (.flitTransmit lp) s = .next (settle (tryDl1 lp.val (sendFlit lp.val (if x.ctrl then 2 else 1) x.seq true x.payload (modTx lp.val (fun y => { y with retx := y.retx.erase x.seq }) s)))))
      ∧ (∀ m r, nextRetx (txOf s lp.val) = none → (txOf s lp.val).times = m :: r → exec (.flitTransmit lp) s = .next (settle (tryDl1 lp.val (sendFlit lp.val 4 (txOf s lp.val).next false (timeBody { m with sendTime := stamp64 s }) (modTx lp.val (fun y => { y with times := r, retx := [] }) s)))))
      ∧ (∀ m r, nextRetx (txOf s lp.val) = none → (txOf s lp.val).times = [] → (txOf s lp.val).replay.length < 4096 → (txOf s lp.val).ctrls = m :: r → exec (.flitTransmit lp) s = .next (settle (tryDl1 lp.val (ctrlSent lp.val m (sendNew lp.val true (ctrlBody m) {} (modTx lp.val (fun y => { y with ctrls := r }) s))))))
      ∧ (∀ u, nextRetx (txOf s lp.val) = none → (txOf s lp.val).times = [] → (txOf s lp.val).replay.length < 4096 → (txOf s lp.val).ctrls = [] → lpUp s lp.val = true → dataBarred s lp.val = false → sendData lp.val s = some u →
        exec (.flitTransmit lp) s = .next (settle (tryDl1 lp.val u)))
      ∧ (nextRetx (txOf s lp.val) = none → (txOf s lp.val).times = [] → (txOf s lp.val).replay.length < 4096 → (txOf s lp.val).ctrls = [] → (lpUp s lp.val = false ∨ dataBarred s lp.val = true ∨ sendData lp.val s = none) →
        exec (.flitTransmit lp) s = .next (settle (tryDl1 lp.val (sendFlit lp.val 0 (txOf s lp.val).next false [] s))))
      ∧ (nextRetx (txOf s lp.val) = none → (txOf s lp.val).times = [] → 4096 ≤ (txOf s lp.val).replay.length → exec (.flitTransmit lp) s = .next (settle (tryDl1 lp.val (sendFlit lp.val 0 (txOf s lp.val).next false [] s)))))
    ∧ (∀ n ty q rpl p, (sendFlit n ty q rpl p s).outbox.head? = some (.flit n ((lanesInUse s n).map (fun k => (k, stripe (widthNow s n) (k % widthNow s n) (flitBytes ty q (rxOf s n).ack (snakOf (rxOf s n)) rpl p)))))))
  ∧ (∀ (lp : LpId) (d : Bytes) (r : List Bytes) (s u : State) (p : Bytes), isDen s lp.val = true → (lpOf s lp.val).idleUntil = none → portOn s lp.val = true → p = flitFrom s lp.val (d :: r) → u = (countFlit lp.val s).2 →
    ((lpOf s lp.val).dl = .dl2 → exec (.flitReceive lp d r) s = .next (settle s))
    ∧ (linkLive s lp.val = true → (lpOf s lp.val).dl = .dl0 → (lpOf s lp.val).l1 = false →
      ((countFlit lp.val s).1 = true → exec (.flitReceive lp d r) s = .next (settle (badFlit lp.val true (bump .condemned lp.val u))))
      ∧ ((countFlit lp.val s).1 = false → (crc64 (p.take 248)).toNat ≠ fieldAt p 248 8 → exec (.flitReceive lp d r) s = .next (settle (badFlit lp.val false u)))
      ∧ ((countFlit lp.val s).1 = false → (crc64 (p.take 248)).toNat = fieldAt p 248 8 → 5 ≤ bitsOf (fieldAt p 0 8) 48 4 → exec (.flitReceive lp d r) s = .next (settle (protoError lp.val (bump .flitsRecv lp.val u))))
      ∧ ((countFlit lp.val s).1 = false → (crc64 (p.take 248)).toNat = fieldAt p 248 8 → bitsOf (fieldAt p 0 8) 48 4 = 0 →
        exec (.flitReceive lp d r) s = .next (settle (tryDl1 lp.val (takeAck lp.val (bitsOf (fieldAt p 0 8) 16 16) (bitsOf (fieldAt p 0 8) 32 16) (noteSeq lp.val (bitsOf (fieldAt p 0 8) 0 16) (bump .flitsRecv lp.val u))))))
      ∧ ((countFlit lp.val s).1 = false → (crc64 (p.take 248)).toNat = fieldAt p 248 8 → bitsOf (fieldAt p 0 8) 48 4 = 4 →
        exec (.flitReceive lp d r) s = .next (settle (tryDl1 lp.val (takeAck lp.val (bitsOf (fieldAt p 0 8) 16 16) (bitsOf (fieldAt p 0 8) 32 16) (timeIn lp.val (timeFrom ((p.drop 8).take 240)) (noteSeq lp.val (bitsOf (fieldAt p 0 8) 0 16) (bump .flitsRecv lp.val u)))))))
      ∧ (∀ ty, (countFlit lp.val s).1 = false → (crc64 (p.take 248)).toNat = fieldAt p 248 8 → bitsOf (fieldAt p 0 8) 48 4 = ty → (ty = 1 ∨ ty = 2) →
        exec (.flitReceive lp d r) s = .next (settle (tryDl1 lp.val (takeAck lp.val (bitsOf (fieldAt p 0 8) 16 16) (bitsOf (fieldAt p 0 8) 32 16) (sequenced lp.val { seq := bitsOf (fieldAt p 0 8) 0 16, ctrl := decide (ty = 2), payload := (p.drop 8).take 240 } (bump .flitsRecv lp.val u)))))))
    ∧ ((lpOf s lp.val).link = .training → (lpOf s lp.val).dl = .dl0 → (lpOf s lp.val).l1 = false → (countFlit lp.val s).1 = false → (crc64 (p.take 248)).toNat = fieldAt p 248 8 → bitsOf (fieldAt p 0 8) 48 4 = 3 →
      exec (.flitReceive lp d r) s = .next (settle (initIn lp.val (initFrom ((p.drop 8).take 240)) (bump .flitsRecv lp.val u))))
    ∧ ((lpOf s lp.val).dl = .dl1 → (lpOf s lp.val).l1 = false → (lpOf s lp.val).dlExit = none → (lpOf (wakeDl lp.val s) lp.val).dlExit = some (now s + 1000)))

/-- When the oldest unacknowledged flit has not advanced for 1 ms while unacknowledged flits exist, the port declares link down (R123); with none, or before that time, nothing happens. -/
def Obligations.AckStallDeclaresLinkDown : Prop :=
  ∀ (lp : LpId) (s : State),
    (linkLive s lp.val = true → (txOf s lp.val).next ≠ (txOf s lp.val).unacked → (txOf s lp.val).lastAdv + 1000000 ≤ now s → exec (.ackStallTimeout lp) s = .next (settle (fall lp.val 0 s)))
    ∧ ((txOf s lp.val).next = (txOf s lp.val).unacked → exec (.ackStallTimeout lp) s = .next (settle s))
    ∧ (now s < (txOf s lp.val).lastAdv + 1000000 → exec (.ackStallTimeout lp) s = .next (settle s))

/-- Timers of a Den link (R122, R126, R128, R132). On a live link with a flit not acknowledged the replay timer expires an interval of twice the round trip and 1 µs after u advanced or after it last expired: it counts, begins a new interval, and asks for the oldest unacknowledged flit again; with none it does nothing. Electrical idle ends at its time, where a training Den port's transmitter runs again, and not before. Probation ends after its 10 ms, where the port is up and returns to traffic, and not before. A CXL link that is lost falls, and a live Den link falls when its CRC failures or its protocol errors in the window reach their limit. It rests on the model's own choices in log entries 74, 109. Power states of a Den link that is up (R78 to R83, R91). A port in DL0 whose idle time has passed, with nothing to send, asks for DL1, and not before. A request for DL1 is agreed on when this end asked as well, refused where a frame is queued, and else acknowledged where every flit is; an acknowledgement of this end's request agrees on DL1; a refusal ends the request and starts the idle time anew. A port that agreed on DL1, whose flits are all acknowledged both ways, is in DL1 at the end of its next flit. A request for DL2 is acknowledged by a port that serves as no twin, enters DL2 where this end asked as well, and has no effect on a twin; an acknowledgement of this end's request enters DL2. An exit from DL1 with its lanes locked ends at its time in DL0, with a marker before its first flit, and not before. It rests on the model's own choices in log entries 54, 72, 111. -/
def Obligations.LinkTimersAndPowerStates : Prop :=
  (∀ (lp : LpId) (s : State),
    (linkLive s lp.val = true → (txOf s lp.val).next ≠ (txOf s lp.val).unacked → max (txOf s lp.val).lastAdv (txOf s lp.val).lastTo + 2 * (txOf s lp.val).rtt + 1000 < now s →
      exec (.replayTimeout lp) s = .next (settle (bump .replayTo lp.val (modTx lp.val (fun y => { y with lastTo := now s, retx := if y.retx.contains y.unacked then y.retx else y.unacked :: y.retx }) s))))
    ∧ ((txOf s lp.val).next = (txOf s lp.val).unacked → exec (.replayTimeout lp) s = .next (settle s))
    ∧ (∀ t, (lpOf s lp.val).idleUntil = some t → t ≤ now s → isDen s lp.val = true → (lpOf s lp.val).link = .training → portOn s lp.val = true → exec (.electricalIdleEnd lp) s = .next (settle (startTx lp.val (modLp lp.val (fun l => { l with idleUntil := none }) s))))
    ∧ (∀ t, (lpOf s lp.val).idleUntil = some t → t ≤ now s → isDen s lp.val = false → exec (.electricalIdleEnd lp) s = .next (settle (modLp lp.val (fun l => { l with idleUntil := none }) s)))
    ∧ (∀ t, (lpOf s lp.val).idleUntil = some t → now s < t → exec (.electricalIdleEnd lp) s = .next (settle s))
    ∧ (∀ t, (lpOf s lp.val).link = .probation → (lpOf s lp.val).probation = some t → t ≤ now s → exec (.probationEnd lp) s = .next (settle (backToTraffic lp.val (modLp lp.val (fun l => { l with link := .up, probation := none, lastFlit := now s }) s))))
    ∧ (∀ t, (lpOf s lp.val).probation = some t → now s < t → exec (.probationEnd lp) s = .next (settle s))
    ∧ (linkLive s lp.val = true → isCxl s lp.val = true → exec (.linkDown lp) s = .next (settle (fall lp.val 0 s)))
    ∧ (linkLive s lp.val = true → isCxl s lp.val = false → (cfgOf s lp.val).crcLimit ≤ (slide (now s) (cfgOf s lp.val).window (winOf s lp.val).crc).length → exec (.linkDown lp) s = .next (settle (fall lp.val 0 s)))
    ∧ (linkLive s lp.val = true → isCxl s lp.val = false → (cfgOf s lp.val).protoLimit ≤ (slide (now s) (cfgOf s lp.val).window (winOf s lp.val).proto).length → exec (.linkDown lp) s = .next (settle (fall lp.val 0 s))))
  ∧ (∀ (lp : LpId) (m : CtrlMsg) (s : State), isDen s lp.val = true → (lpOf s lp.val).link = .up →
    ((lpOf s lp.val).dl = .dl0 → (lpOf s lp.val).dlReq = 0 → (lpOf s lp.val).dl1Barred = false → linkQuiet s lp.val = true → (lpOf s lp.val).lastFlit + (lpOf s lp.val).idle ≤ now s →
      exec (.dl1IdleTimeout lp) s = .next (settle (sendCtrl lp.val { subtype := 9, subject := BitVec.ofNat 8 lp.val } (modLp lp.val (fun l => { l with dlReq := 1 }) s))))
    ∧ (now s < (lpOf s lp.val).lastFlit + (lpOf s lp.val).idle → exec (.dl1IdleTimeout lp) s = .next (settle s))
    ∧ ((lpOf s lp.val).dl = .dl0 → (lpOf s lp.val).dlReq = 1 → exec (.dl1Req lp m) s = .next (settle (modLp lp.val (fun l => { l with dlReq := 4 }) s)))
    ∧ ((lpOf s lp.val).dl = .dl0 → (lpOf s lp.val).dlReq = 0 → nothingQueued s lp.val = false → exec (.dl1Req lp m) s = .next (settle (sendCtrl lp.val { subtype := 11, subject := BitVec.ofNat 8 lp.val } s)))
    ∧ ((lpOf s lp.val).dl = .dl0 → (lpOf s lp.val).dlReq = 0 → (lpOf s lp.val).dl1Barred = false → nothingQueued s lp.val = true → (txOf s lp.val).next = (txOf s lp.val).unacked → (txOf s lp.val).ctrls = [] →
      exec (.dl1Req lp m) s = .next (settle (sendCtrl lp.val { subtype := 10, subject := BitVec.ofNat 8 lp.val } s)))
    ∧ ((lpOf s lp.val).dl = .dl0 → (lpOf s lp.val).dlReq = 1 → exec (.dl1Ack lp m) s = .next (settle (modLp lp.val (fun l => { l with dlReq := 4 }) s)))
    ∧ ((lpOf s lp.val).dl = .dl0 → (lpOf s lp.val).dlReq = 4 → allAcked s lp.val = true → (txOf s lp.val).ctrls = [] → tryDl1 lp.val s = enterDl lp.val .dl1 s)
    ∧ ((lpOf s lp.val).dlReq = 1 → exec (.dl1Refuse lp m) s = .next (settle (modLp lp.val (fun l => { l with dlReq := 0, lastFlit := now s }) s)))
    ∧ ((lpOf s lp.val).dl ≠ .dl2 → twinOf s lp.val = none → (lpOf s lp.val).dlReq ≠ 2 → exec (.dl2Req lp m) s = .next (settle (sendCtrl lp.val { subtype := 13, subject := BitVec.ofNat 8 lp.val } s)))
    ∧ ((lpOf s lp.val).dl ≠ .dl2 → twinOf s lp.val = none → (lpOf s lp.val).dlReq = 2 → exec (.dl2Req lp m) s = .next (settle (enterDl lp.val .dl2 s)))
    ∧ ((twinOf s lp.val).isSome = true → exec (.dl2Req lp m) s = .next (settle s))
    ∧ ((lpOf s lp.val).dlReq = 2 → exec (.dl2Ack lp m) s = .next (settle (enterDl lp.val .dl2 s)))
    ∧ (∀ t, (lpOf s lp.val).dlExit = some t → now s < t → exec (.dlExitDone lp) s = .next (settle s))
    ∧ (∀ t, (lpOf s lp.val).dlExit = some t → t ≤ now s → (lpOf s lp.val).dl = .dl1 → (lpOf s lp.val).dlReq = 0 → (∀ k ∈ lanesOf s lp.val, (tget s.net.lanes k).locked = true) →
      ∃ u, exec (.dlExitDone lp) s = .next (settle (portPins (lp.val / 2) (startTx lp.val u))) ∧ (lpOf u lp.val).dl = .dl0 ∧ (lpOf u lp.val).dlExit = none ∧ (lpOf u lp.val).lastFlit = now s ∧ (lpOf u lp.val).huntFrom = none))

/-- Twins (R139 to R142, R754, R755). FAILOVER on a live link of no twin pair has no effect; on the live twin of a port that waits for it, it hands the frames that were not delivered over to the twin. A failover that is not answered for 1 ms is abandoned, and not before. FAILBACK on a live link is answered with FAILBACK_DONE of its subject. FAILBACK_DONE on the twin of an up port that asked for its failback starts the return of the port's destinations, one by one. While the twin still carries an unacknowledged frame of the destination in hand nothing happens; once it carries none, the destination's route flips back, its queued frames and requests go to the restored port, the frames held for it follow, and the next destination is taken. It rests on the model's own choices in log entries 73, 74, 110. Retrains and width changes of a live link (R144, R148 to R153). A request that meets no request of this end's own is accepted, a width change with the width asked for kept; one that meets an own request which stands against it changes nothing; one that meets an own request which does not is accepted after this one's withdrawal. An acceptance of this end's request begins it, with what was to be sent and what was received kept; one of no request does nothing. A withdrawal leaves only the record of when this end's request came to stand alone. A retrain that was put off, of a port without a live twin, is asked for once nothing is unacknowledged; a port that put none off has none to ask for. It rests on the model's own choices in log entry 72. -/
def Obligations.TwinsAndRetrains : Prop :=
  (∀ (lp : LpId) (s : State),
    (∀ m, linkLive s lp.val = true → twinOf s lp.val = none → exec (.failover lp m) s = .next (settle s))
    ∧ (∀ m t, linkLive s lp.val = true → twinOf s lp.val = some t → (lpOf s lp.val).link = .up → (failOf s t).step = 4 → exec (.failover lp m) s = .next (settle (replayOnTwin t m.lastDelivered.toNat s)))
    ∧ ((failOf s lp.val).step = 4 → (failOf s lp.val).sentAt + 1000000 ≤ now s → exec (.failoverAbandon lp) s = .next (settle (abandonHeld lp.val s)))
    ∧ (now s < (failOf s lp.val).sentAt + 1000000 → exec (.failoverAbandon lp) s = .next (settle s))
    ∧ (∀ m, linkLive s lp.val = true → exec (.failback lp m) s = .next (settle (sendCtrl lp.val { subtype := 8, subject := m.subject } s)))
    ∧ (∀ m t, twinOf s lp.val = some t → (failOf s t).sentFailback = true → lpUp s t = true → exec (.failbackDone lp m) s = .next (settle (holdNext t (modFail t (fun x => { x with sentFailback := false, returning := true }) s))))
    ∧ (∀ did : BitVec 12, carries s (tget s.sw.holds did.toNat).oldLp did.toNat = true → exec (.failbackDestMove lp did) s = .next (settle s))
    ∧ (∀ (did : BitVec 12) o u v, (failOf s lp.val).returning = true → (tget s.sw.holds did.toNat).why = some .failback → (failOf s lp.val).moved.contains did.toNat = true → (tget s.sw.holds did.toNat).oldLp = o → carries s o did.toNat = false →
      u = takeAll o (fun f => f.did.toNat == did.toNat) { s with sw := { s.sw with routes := s.sw.routes.map (fun e => if e.1 == did.toNat && rLp e.2 == o then (e.1, flipActive e.2) else e) } } →
      v = u.1.foldl (fun s q => enqueue lp.val q s) (modSw (fun w => { w with reqs := w.reqs ++ u.2.1.map (fun x => { x with dst := .lp lp.val }) }) u.2.2) →
      exec (.failbackDestMove lp did) s = .next (settle (holdNext lp.val (releaseHeld did.toNat (modFail lp.val (fun x => { x with moved := x.moved.filter (· != did.toNat) }) v))))))
  ∧ (∀ (lp : LpId) (m : CtrlMsg) (s : State), linkLive s lp.val = true →
    ((initOf s lp.val).retrain = 0 → exec (.retrainReq lp m) s = .next (settle (sendCtrl lp.val { subtype := 2, subject := BitVec.ofNat 8 lp.val } (releaseFrom lp.val (modInit lp.val (fun i => { i with retrain := 0, want := 0, reqAt := none, held := false }) s)))))
    ∧ ((initOf s lp.val).retrain = 0 → exec (.widthReq lp m) s = .next (settle (sendCtrl lp.val { subtype := 4, subject := BitVec.ofNat 8 lp.val } (releaseFrom lp.val (modInit lp.val (fun i => { i with retrain := 0, want := m.width.toNat, reqAt := none, held := false }) s)))))
    ∧ (((initOf s lp.val).retrain = 1 ∨ (initOf s lp.val).retrain = 2) → keepsOwn s lp.val m = true → exec (.retrainReq lp m) s = .next (settle s) ∧ exec (.widthReq lp m) s = .next (settle s))
    ∧ ((initOf s lp.val).retrain = 1 → keepsOwn s lp.val m = false → exec (.retrainReq lp m) s = .next (settle (sendCtrl lp.val { subtype := 2, subject := BitVec.ofNat 8 lp.val }
        (releaseFrom lp.val (modInit lp.val (fun i => { i with retrain := 0, want := 0, reqAt := none, held := false }) (sendCtrl lp.val { subtype := 5, subject := BitVec.ofNat 8 lp.val } s))))))
    ∧ ((initOf s lp.val).retrain = 1 → exec (.retrainAccept lp m) s = .next (settle (beginRetrain lp.val 3 (modInit lp.val (fun i => { i with want := 0 }) s))))
    ∧ ((initOf s lp.val).retrain = 2 → exec (.widthAccept lp m) s = .next (settle (beginRetrain lp.val 4 (modInit lp.val (fun i => { i with want := 0 }) s))))
    ∧ ((initOf s lp.val).retrain = 0 → exec (.retrainAccept lp m) s = .next (settle s) ∧ exec (.widthAccept lp m) s = .next (settle s))
    ∧ (∀ k, (beginRetrain lp.val k s).net.rx = s.net.rx ∧ (txOf (beginRetrain lp.val k s) lp.val).replay = (txOf s lp.val).replay ∧ (txOf (beginRetrain lp.val k s) lp.val).next = (txOf s lp.val).next ∧ (txOf (beginRetrain lp.val k s) lp.val).frames = (txOf s lp.val).frames
        ∧ (lpOf (beginRetrain lp.val k s) lp.val).link = .training ∧ (initOf (beginRetrain lp.val k s) lp.val).resume = true)
    ∧ ((initOf s lp.val).retrain = 1 → exec (.withdraw lp m) s = .next (settle (modInit lp.val (fun i => { i with reqAt := i.reqAt.or (some (now s)) }) s)))
    ∧ ((initOf s lp.val).held = true → (txOf s lp.val).replay = [] → (txOf s lp.val).frames = [] → liveTwin s lp.val = none → exec (.retrainHoldRelease lp) s = .next (settle (askRetrain lp.val (initOf s lp.val).holdFor s)))
    ∧ ((initOf s lp.val).held = false → exec (.retrainHoldRelease lp) s = .next (settle s)))

/-- Fabric time between modules whose device runs (R385, R386, R390, R391, R394). 10 µs after the last one ANNOUNCE_SEND queues its announcement on every time port, and before it does nothing. At a port that exchanges no time ANNOUNCE and DELAY_REQ have no effect. One at a time port is kept with its instant, valid below 15 steps from a sender that does not leave, and starts an election; where it makes that port the parent the module takes the announced epoch data, and where the module is its own grandmaster it does not. The grandmaster's absence counts a loss, and the module follows another that it hears, or goes to HOLDOVER; a grandmaster does nothing. 125 µs after the last one a DELAY_REQ is queued on the parent port under the next exchange number, which then waits. One that arrives is answered with the time it was sent at and the stamp of its arrival. Its answer has no effect where no exchange waits for it. A DELAY_RSP from the parent of the exchange that waits gives the offset and delay of R391, in units of 2^−16 ns, the offset less the port's configured asymmetry, and the module is in INBAND. The first one, or an offset above 20 µs, steps the count by it; any other slews it. It rests on log entry 22, the model's choice. The external reference (R380 to R383, R386, R734). An edge of FTREF_PPS is remembered; on a grandmaster in EXTERNAL it also slews the count to the nearest whole second, or carries out a pending `time.set`. A lost 10 MHz input of such a grandmaster, and a PPS input without an edge for 1.000 002 s, put it in HOLDOVER with a Degraded event; before that time PPS is not lost. Both inputs valid for 2 s return a grandmaster in HOLDOVER with the external reference enabled to EXTERNAL; without it only the input's validity is noted. FTOUT_PPS is high in a second's first 100 µs where it is enabled and the module out of BOOT, else low. A module in BOOT that has heard no other for 30 µs after step K8 becomes grandmaster; a grandmaster stays as it is. -/
def Obligations.TimeBetweenModules : Prop :=
  (∀ s : State, timeRuns s = true →
    (s.ft.lastAnnounce + 10000 ≤ now s → exec .announceSend s = .next (settle (((List.range 256).filter (timePort s)).foldl (fun s n => sendTime n (announceFor s n) s) { s with ft := { s.ft with lastAnnounce := now s } })))
    ∧ (now s < s.ft.lastAnnounce + 10000 → exec .announceSend s = .next (settle s))
    ∧ (∀ (lp : LpId) m, timePort s lp.val = false → exec (.announce lp m) s = .next (settle s) ∧ exec (.delayReq lp m) s = .next (settle s))
    ∧ (∀ (lp : LpId) (m : TimeMsg) t, timePort s lp.val = true → (tget s.ft.heard lp.val).valid = false →
        t = elect { s with ft := { s.ft with heard := tset s.ft.heard lp.val { msg := m, at_ := now s, valid := decide (m.steps < 15) && !m.leaving } } } →
        (t.ft.gm = true → exec (.announce lp m) s = .next (settle (reserveEpochs (updateFabric t))))
        ∧ (t.ft.gm = false → t.ft.parent = some lp → exec (.announce lp m) s = .next (settle (reserveEpochs (updateFabric (takeEpochData m t))))))
    ∧ (s.ft.gm = true → exec .announceTimeout s = .next (settle s) ∧ exec .delayReqSend s = .next (settle s))
    ∧ (∀ p, s.ft.gm = false → s.ft.parent = some p → heardNow s = [] → exec .announceTimeout s = .next (settle (selfGm .holdover (bump .annLoss 0 s))))
    ∧ (∀ p q x, s.ft.gm = false → s.ft.parent = some p → heardNow s = [(q, x)] → better x.msg.gmPrio x.msg.gmSerial s.io.prio s.fuses.serial.toNat = true → (x.msg.gmPrio ≠ s.ft.gmPrio ∨ x.msg.gmSerial ≠ s.ft.gmSerial) →
        exec .announceTimeout s = .next (settle (follow q x.msg (bump .annLoss 0 s))))
    ∧ (∀ p, s.ft.gm = false → s.ft.parent = some p → timePort s p.val = true → s.ft.lastDelayReq + 125000 ≤ now s →
        exec .delayReqSend s = .next (settle (sendTime p.val { subtype := 2, gmPrio := 0, exchange := (s.ft.exchange + 1) % 65536, senderSerial := s.fuses.serial.toNat } { s with ft := { s.ft with exchange := (s.ft.exchange + 1) % 65536, waiting := some ((s.ft.exchange + 1) % 65536, now s), lastDelayReq := now s } })))
    ∧ (∀ (lp : LpId) (m : TimeMsg), timePort s lp.val = true → exec (.delayReq lp m) s = .next (settle (sendTime lp.val { subtype := 3, gmPrio := 0, exchange := m.exchange, senderSerial := s.fuses.serial.toNat, t1 := m.sendTime, t2 := stamp64 s } s)))
    ∧ (∀ (lp : LpId) (m : TimeMsg), s.ft.waiting.map (·.1) ≠ some m.exchange → exec (.delayRsp lp m) s = .next (settle s)))
  ∧ (∀ (lp : LpId) (m : TimeMsg) (s t : State) (x at_ : Nat) (d o : Int), timeRuns s = true → s.ft.gm = false → s.ft.parent = some lp → s.ft.waiting = some (x, at_) → m.exchange = x →
    d = (((stamp64 s : Int) - (m.t1 : Int)) - ((m.sendTime : Int) - (m.t2 : Int))) / 2 →
    o = (((m.t2 : Int) - (m.t1 : Int)) - ((stamp64 s : Int) - (m.sendTime : Int))) / 2 - (tget s.io.entries lp.val).asym * 1024 →
    t = { s with ft := { s.ft with waiting := none, delay := d.toNat, offset := o, acquired := true, mode := .inband } } →
    ((s.ft.acquired = false ∨ 20000 * 65536 < o.natAbs) → exec (.delayRsp lp m) s = .next (settle (countStep o t)))
    ∧ (s.ft.acquired = true → o.natAbs ≤ 20000 * 65536 → exec (.delayRsp lp m) s = .next (settle (slewBy o t))))
  ∧ (∀ s t : State, t = { s with io := { s.io with lastPps := some (now s), ppsOk := true, okSince := s.io.okSince.or (some (now s)) } } →
    (s.ft.gm = false → exec .ftrefPpsEdge s = .next (settle t))
    ∧ (s.ft.gm = true → s.ft.mode = .external → s.io.pendingSet = none → exec .ftrefPpsEdge s = .next (settle (slewBy ((((now s + 500000000) / 1000000000 * 1000000000 * 65536 : Nat) : Int) - (ftCount s : Int)) t)))
    ∧ (∀ sec, s.ft.gm = true → s.ft.mode = .external → s.io.pendingSet = some sec → exec .ftrefPpsEdge s = .next (settle (setSeconds sec { t with io := { t.io with pendingSet := none } })))
    ∧ (s.ft.gm = true → s.ft.mode = .external → exec (.ftrefLoss false) s = .next (settle (raise { code := 0x0901, cls := .degraded, block := 162, detail := 0 }
        { s with io := { s.io with tenMOk := false, okSince := none }, ft := { s.ft with mode := .holdover, traceable := false, slew := 0 } })))
    ∧ (∀ p, s.io.lastPps = some p → p + 1000002000 ≤ now s → s.ft.gm = true → s.ft.mode = .external → exec (.ftrefLoss true) s = .next (settle (raise { code := 0x0901, cls := .degraded, block := 162, detail := 1 }
        { s with io := { s.io with ppsOk := false, okSince := none }, ft := { s.ft with mode := .holdover, traceable := false, slew := 0 } })))
    ∧ (∀ p, s.io.lastPps = some p → now s < p + 1000002000 → exec (.ftrefLoss true) s = .next (settle s))
    ∧ (∀ o, s.io.ppsOk = true → s.io.okSince = some o → o + 2000000000 ≤ now s → s.ft.gm = true → s.io.extRef = true → s.ft.mode = .holdover → exec .ftrefRestored s = .next (settle (selfGm .external { s with io := { s.io with tenMOk := true } })))
    ∧ (s.io.extRef = false → exec .ftrefRestored s = .next (settle { s with io := { s.io with tenMOk := true } }))
    ∧ (exec .ftoutPpsPulse s = .next (settle { s with io := { s.io with ppsOut := s.io.ppsEn && s.ft.mode != .boot && decide (now s % 1000000000 < 100000) } }))
    ∧ (kDone s 8 = true → timeRuns s = true → s.ft.mode = .boot → s.ft.gm = false → heardNow s = [] → (kOf s 8).ended + 30000 ≤ now s → exec .selfGrandmaster s = .next (settle (selfGm (gmMode s) s)))
    ∧ (s.ft.gm = true → exec .selfGrandmaster s = .next (settle s)))

/-- Epochs while the runtime runs, outside Hibernate (R396 to R402, R410, R477). A boundary that is due opens its epoch, with the number of that instant, at the next instant of the grid; a change of period that falls due by then applies first, and its change time is the grid's new base; nothing happens before the boundary. With no flush in progress the end of one does nothing; a flush whose notices are all sent and whose targets have all answered ends. An acknowledged posted write of a live binding is no longer waited for, and its epoch counts for the binding; that of a binding that is gone does nothing. The only open notice is posted once 10 µs have passed since its first event, and stays open before. It rests on the model's own choices in log entry 70. -/
def Obligations.EpochEvents : Prop :=
  ∀ s : State, fwRuns s = true → s.dev.st ≠ .hibernate →
    (s.hoard.pendingPeriod = none → nextBoundary s ≤ now s → exec .epochBoundary s = .next (settle (openEpoch (numberAt s (nextBoundary s)) (nextBoundary s) s)))
    ∧ (∀ p c u, s.hoard.pendingPeriod = some (p, c) → c ≤ nextBoundary s → nextBoundary s ≤ now s → u = { s with hoard := { s.hoard with period := p, base := c, pendingPeriod := none } } →
      exec .epochBoundary s = .next (settle (openEpoch (numberAt u (nextBoundary s)) (nextBoundary s) u)))
    ∧ (now s < nextBoundary s → exec .epochBoundary s = .next (settle s))
    ∧ (s.hoard.flushing = none → ∀ l, exec (.epochFlushDone l) s = .next (settle s))
    ∧ (∀ f, s.hoard.flushing = some f → f.stage = 3 → flushesLeft s f.boundary [] = false → exec (.epochFlushDone []) s = .next (settle (finishFlush f s)))
    ∧ (∀ b x e, liveBind s b = some x → exec (.postedWriteAck b e) s = .next (settle { s with ten := { s.ten with bindings := tmod s.ten.bindings (hIdx b) (fun x => { x with posted := x.posted - 1, highEpoch := max x.highEpoch e }) } }))
    ∧ (∀ b e, liveBind s b = none → exec (.postedWriteAck b e) s = .next (settle s))
    ∧ (∀ n : Notice, s.ten.open_ = [n] → n.first + 10000 ≤ now s → exec (.noticePost n.binding n.why n.ruleSet) s = .next (settle (postNotice n { s with ten := { s.ten with open_ := [] } })))
    ∧ (∀ n : Notice, s.ten.open_ = [n] → now s < n.first + 10000 → exec (.noticePost n.binding n.why n.ruleSet) s = .next (settle { s with ten := { s.ten with open_ := [n] } }))

/-- The number of a boundary is above the number in force (R396, R397): in HOLDOVER it is the next one, on a grandmaster the larger of the next one and the highest floor heard. The next boundary is an instant of the grid after the current epoch's start, and at most one period after it (R396). -/
def Obligations.EpochNumbersRiseOnTheGrid : Prop :=
  (∀ (s : State) (t : Nat), s.hoard.epoch < numberAt s t ∧ (s.ft.mode = .holdover → numberAt s t = s.hoard.epoch + 1)
    ∧ (s.ft.mode ≠ .holdover → s.ft.gm = true → numberAt s t = max (s.hoard.epoch + 1) (floorNow s)))
  ∧ (∀ base p t : Nat, 0 < p → base ≤ t → t < gridAfter base p t ∧ gridAfter base p t ≤ t + p ∧ (gridAfter base p t - base) % p = 0)

/-- The interrupt controller while the Sett runs (R669 to R679). An edge of a source without coalescing makes it pending with the edges held so far and this one, and so does the edge that reaches its coalescing count; an edge below the count, or under a coalescing time, is held, and the first held one starts the time. A level source follows its line. A claim reads the committed source's number with the events merged into it, makes it active on the pair and clears its pending bit; a claim with nothing committed changes nothing. A completion of an edge source ends its activity; that of a level source looks at its line again. A configuration word with LVL and coalescing is refused; any other is taken but for the forward and the reserved bits. An arbitration serves pair 0 and then pair 1. The end of a source's coalescing time makes its held edges pending; before it, and with nothing held, nothing happens. It rests on the model's own choices in log entries 91, 134. -/
def Obligations.InterruptController : Prop :=
  ∀ s : State, settRuns s = true →
    (∀ src : Fin 2048, levelSrc s src.val = false → sicField (tget s.sic.srcs src.val).word 16 8 ≤ 1 → sicField (tget s.sic.srcs src.val).word 24 16 = 0 → exec (.sicSourceEdge src) s = .next (settle (sicPend src.val ((tget s.sic.srcs src.val).held + 1) s)))
    ∧ (∀ src : Fin 2048, levelSrc s src.val = false → 1 < sicField (tget s.sic.srcs src.val).word 16 8 → sicField (tget s.sic.srcs src.val).word 16 8 ≤ (tget s.sic.srcs src.val).held + 1 → exec (.sicSourceEdge src) s = .next (settle (sicPend src.val ((tget s.sic.srcs src.val).held + 1) s)))
    ∧ (∀ src : Fin 2048, levelSrc s src.val = false → (tget s.sic.srcs src.val).held + 1 < sicField (tget s.sic.srcs src.val).word 16 8 → sicField (tget s.sic.srcs src.val).word 24 16 ≠ 0 → (tget s.sic.srcs src.val).held = 0 →
        exec (.sicSourceEdge src) s = .next (settle (modSrc src.val (fun c => { c with held := c.held + 1, firstHeld := now s, due := now s + sicField (tget s.sic.srcs src.val).word 24 16 * 1000 }) s)))
    ∧ (∀ src : Fin 2048, levelSrc s src.val = true → exec (.sicSourceEdge src) s = .next (settle (sicLevel src.val (lineLevel s src.val) s)))
    ∧ (∀ (src : Fin 2048) (p : Fin 2), (sicPairOf s p.val).committed = some src.val → exec (.sicClaim p) s = .next (settle (emit (.regRead (src.val + 65536 * (tget s.sic.srcs src.val).merged)) (modSrc src.val (fun c => { c with active := some p, pend := false, merged := 0 }) (setSicPair p.val none s)))))
    ∧ (∀ p : Fin 2, (sicPairOf s p.val).committed = none → exec (.sicClaim p) s = .next (settle s))
    ∧ (∀ (src : Fin 2048) (p : Fin 2), (tget s.sic.srcs src.val).active = some p → levelSrc s src.val = false → exec (.sicComplete p src) s = .next (settle (modSrc src.val (fun c => { c with active := none }) s)))
    ∧ (∀ (src : Fin 2048) (p : Fin 2), (tget s.sic.srcs src.val).active = some p → levelSrc s src.val = true → exec (.sicComplete p src) s = .next (settle (sicLevel src.val (tget s.sic.srcs src.val).line (modSrc src.val (fun c => { c with active := none }) s))))
    ∧ (∀ (src : Fin 2048) (w : BitVec 64), sicField w 5 1 = 1 → (1 < sicField w 16 8 ∨ sicField w 24 16 ≠ 0) → exec (.sicConfigWrite src w) s = .next (settle s))
    ∧ (∀ (src : Fin 2048) (w : BitVec 64), sicField w 5 1 = 0 → levelSrc (modSrc src.val (fun c => { c with word := (w &&& sicWritable) ||| (c.word &&& 0x3F0000000000) }) s) src.val = false →
        exec (.sicConfigWrite src w) s = .next (settle (modSrc src.val (fun c => { c with word := (w &&& sicWritable) ||| (c.word &&& 0x3F0000000000) }) s)))
    ∧ exec .sicArbitration s = .next (settle (arbitratePair 1 (arbitratePair 0 s)))
    ∧ (∀ (src : Fin 2048), (tget s.sic.srcs src.val).held = 0 → exec (.sicCoalesceTimeout src) s = .next (settle s))
    ∧ (∀ (src : Fin 2048), (tget s.sic.srcs src.val).held ≠ 0 → (tget s.sic.srcs src.val).due ≠ 0 → (tget s.sic.srcs src.val).due ≤ now s →
        exec (.sicCoalesceTimeout src) s = .next (settle (sicPend src.val (tget s.sic.srcs src.val).held s)))
    ∧ (∀ (src : Fin 2048), now s < (tget s.sic.srcs src.val).due → exec (.sicCoalesceTimeout src) s = .next (settle s))

/-- A completion that names a source which is not active on the completing pair is ignored and counted. -/
def Obligations.SpuriousCompletionsAreCounted : Prop :=
  ∀ (p : Fin 2) (src : Fin 2048) (s : State), (tget s.sic.srcs src.val).active ≠ some p →
    exec (.sicComplete p src) s = .next (settle { s with sic := { s.sic with spurious := s.sic.spurious + 1 } })

/-- Arbitration delivers to a pair that is awake and has no claim open the pending source of the highest PRIO above its running priority, and among equals the lowest number (R673). A change of one source keeps the table of sources in its canonical form. -/
def Obligations.ArbitrationPicksTheHighestPriority : Prop :=
  (∀ (s : State) (p src : Nat), tabWf s.sic.srcs = true → sicSelect s p = some src →
    (tget s.sic.srcs src).pend = true ∧ (tget s.sic.srcs src).active = none ∧ runningPrio s p < sicField (tget s.sic.srcs src).word 0 4 + 1
      ∧ (∀ n, (tget s.sic.srcs n).pend = true → (tget s.sic.srcs n).active = none → sicField (tget s.sic.srcs n).word 4 1 = 1 → s.sic.pair0.committed ≠ some n → s.sic.pair1.committed ≠ some n → sicRoute s (tget s.sic.srcs n).word = p → runningPrio s p < sicField (tget s.sic.srcs n).word 0 4 + 1 →
        sicField (tget s.sic.srcs n).word 0 4 < sicField (tget s.sic.srcs src).word 0 4 ∨ (sicField (tget s.sic.srcs n).word 0 4 = sicField (tget s.sic.srcs src).word 0 4 ∧ src ≤ n)))
  ∧ (∀ (src : Nat) (g : SicSrc → SicSrc) (s : State), tabWf s.sic.srcs = true → tabWf (modSrc src g s).sic.srcs = true)

/-- The heartbeat and its watchdog while the Sett runs (R662 to R668). A kick that is not on the very tick of its time-out is noted, and one within 500 µs of a stall without a handover ends the stall. HBEAT rises at each whole millisecond, where HB_COUNT advances, and falls half a millisecond later; while the heartbeat is stopped it does neither. When 1 ms has passed without a kick, control goes to a healthy standby pair, whose former partner has 240 ms to reload, and with no healthy standby pair the stall begins; before that time nothing happens. HBEAT stops when the stall's wait of 500 µs has passed; the watchdog's warm start follows 20 ms after it stopped, and not before. A lockstep error of the standby pair, with no update in hand, fences it with a Degraded event and gives it 240 ms to reload; one of the pair in control is `lockActive`. The end of a powered standby pair's reload makes it healthy, with the active bank's version. It rests on the model's own choices in log entries 86, 90. -/
def Obligations.HeartbeatAndWatchdog : Prop :=
  ∀ s : State, settRuns s = true →
    (s.hb.running = true → s.hb.stopAt = none → s.hb.stallAt = none → now s ≠ s.hb.lastKick + 1000000 → exec .heartbeatKick s = .next (settle { s with hb := { s.hb with lastKick := now s } }))
    ∧ (∀ a, s.hb.running = true → s.hb.stopAt = none → s.hb.stallAt = some a → s.hb.handover = false → now s < a + 500000 → exec .heartbeatKick s = .next (settle { s with hb := { s.hb with lastKick := now s, stallAt := none, handover := false, lockstep := false } }))
    ∧ (s.hb.running = true → s.hb.level = false → now s % 1000000 = 0 → exec .hbeatPeriod s = .next (settle { s with hb := { s.hb with level := true, count := s.hb.count + 1 } }))
    ∧ (s.hb.running = true → s.hb.level = true → now s % 1000000 = 500000 → exec .hbeatPeriod s = .next (settle { s with hb := { s.hb with level := false } }))
    ∧ (s.hb.running = false → exec .hbeatPeriod s = .next (settle s))
    ∧ (s.hb.running = true → s.hb.stopAt = none → s.hb.stallAt = none → s.sec.paused = false → s.sec.updating = false → s.sec.takeover = 0 → s.hb.lastKick + 1000000 ≤ now s → s.hb.standbyHealthy = true →
        exec .firmwareStall s = .next (settle { s with hb := { s.hb with activePair := 1 - s.hb.activePair, standbyHealthy := false, stallSeen := true, stallAt := some (now s), handover := true, lockstep := false, reloadAt := some (now s + 240000000) } }))
    ∧ (s.hb.running = true → s.hb.stopAt = none → s.hb.stallAt = none → s.sec.paused = false → s.hb.lastKick + 1000000 ≤ now s → s.hb.standbyHealthy = false →
        exec .firmwareStall s = .next (settle { s with hb := { s.hb with stallSeen := true, stallAt := some (now s), handover := false, lockstep := false } }))
    ∧ (s.sec.paused = false → now s < s.hb.lastKick + 1000000 → exec .firmwareStall s = .next (settle s))
    ∧ (∀ a, s.hb.stallAt = some a → s.hb.stopAt = none → s.hb.handover = false → a + 500000 ≤ now s → exec .hbeatStop s = .next (settle { s with hb := { s.hb with running := false, level := false, stopAt := some (now s) } }))
    ∧ (∀ a, s.hb.stopAt = some a → now s < a + 20000000 → exec .watchdogWarmStart s = .next (settle s))
    ∧ (∀ a, s.hb.stopAt = some a → a + 20000000 ≤ now s → exec .watchdogWarmStart s = .next (settle (watchdogStart s)))
    ∧ (∀ p : Fin 2, kDone s 8 = true → p ≠ s.hb.activePair → s.sec.updating = false → s.sec.takeover = 0 → exec (.lockstepError p) s = .next (settle (raise { code := 0x0103, cls := .degraded, block := pairBlock p.val } { s with hb := { s.hb with standbyHealthy := false, reloadAt := some (now s + 240000000) } })))
    ∧ (∀ p : Fin 2, kDone s 8 = true → p = s.hb.activePair → exec (.lockstepError p) s = .next (settle (lockActive s)))
    ∧ (∀ t, s.hb.reloadAt = some t → pairPowered s (1 - s.hb.activePair.val) = true → exec .standbyReloadDone s = .next (settle { s with hb := { s.hb with standbyHealthy := true, reloadAt := none }, sec := { s.sec with fwStandby := s.sec.fwActive } }))

/-- Power domains (R618, R625 to R631, R636, R639). A domain with no transition hears no ready signal. In a transition each ready signal starts the next step: S1 to S2, where a domain with a PLL of its own begins its clock's switch; S2 to S3, with the clock running, unless the clock was lost; S3 to S4; S4 ends it in On, or in Sleep where Sleep was asked; the exit from Sleep and Deep ends in On, the entry into them in their state; on the way down each step follows the one above it, and the last ends in Off with what a domain loses there. A transition of a domain that is no port ends with its state, its counter and its mask, where nothing waits for it. A request that waits in the Off dwell starts 100 µs after Off. With no transition, or within twice the bound of step S2, there is no time-out; after that a domain of the core dies, with no request queued, is Off with its error bit, and its commands end with TIMEOUT. Cores, clocks and sensors while the Sett runs (R622 to R634, R636 to R644, R743 to R745). A pair that is not On asks for nothing. A pair's WFI with no interrupt for it lets it go to Sleep, and in run mode changes only its mode. A clock that does not run, and feeds no domain in step S2, is not lost; one that runs, outside the domains with a watchdog, counts its loss and has the outcome of its class; in those it goes through the watchdog's reset, which leaves it running in bypass. A switch that is not in progress does not hang; one that has hung for 2,560 ns goes through the watchdog's reset and runs from the primary source. An observed clock that stops is one event; with no output nothing happens. A Grave cause with none before it is kept for the end of the step. A reading above 110 °C is an event when none stands, and a second reading above 120 °C in a row asserts THERMTRIP_N and is a Grave cause. It rests on the model's own choices in log entries 47, 55. -/
def Obligations.DomainsCoresClocksAndSensors : Prop :=
  (∀ (d : Fin 157) (s : State),
    ((domOf s d.val).target = none → exec (.domainReady d) s = .next (settle (waveAdvance s)))
    ∧ ((domOf s d.val).target = some .deep → (domOf s d.val).step = 1 → exec (.domainReady d) s = .next (settle (waveAdvance (endTransition d.val .deep (modDom d.val (fun y => { y with ready := 1 }) s)))))
    ∧ (∀ t, (domOf s d.val).target = some t → t ≠ .deep → (domOf s d.val).step = 1 → exec (.domainReady d) s = .next (settle (waveAdvance (nextStep d.val 2 1
        (if ownsPll d.val = true ∧ hasMux (domClock d.val) = true ∧ (clkOf s (domClock d.val)).primary = false then modClk (domClock d.val) (fun y => { y with switching := true }) s else s)))))
    ∧ (∀ t, (domOf s d.val).target = some t → (domOf s d.val).step = 2 → (domOf s d.val).lostClk = false → exec (.domainReady d) s = .next (settle (waveAdvance (nextStep d.val 3 3
        (if ownsPll d.val = true ∨ (clkOf s (domClock d.val)).running = false then clkUp (domClock d.val) s else s)))))
    ∧ (∀ t, (domOf s d.val).target = some t → (domOf s d.val).step = 3 → exec (.domainReady d) s = .next (settle (waveAdvance (nextStep d.val 4 7 s))))
    ∧ (∀ t, (domOf s d.val).target = some t → (domOf s d.val).step = 4 → exec (.domainReady d) s = .next (settle (waveAdvance (endTransition d.val (if t = .sleep then .sleep else .on)
        (modDom d.val (fun y => { y with ready := 15 }) (if ownsPll d.val = true then clkUp (domClock d.val) s else s))))))
    ∧ (∀ t, (domOf s d.val).target = some t → (domOf s d.val).step = 5 → exec (.domainReady d) s = .next (settle (waveAdvance (endTransition d.val .on (modDom d.val (fun y => { y with ready := 15 }) s)))))
    ∧ (∀ t, (domOf s d.val).target = some t → (domOf s d.val).step = 6 → exec (.domainReady d) s = .next (settle (waveAdvance (endTransition d.val t (modDom d.val (fun y => { y with ready := if t = .deep then 1 else 15 }) s)))))
    ∧ (∀ t, (domOf s d.val).target = some t → (domOf s d.val).step = 14 → exec (.domainReady d) s = .next (settle (waveAdvance (nextStep d.val 13 7 s))))
    ∧ (∀ t, (domOf s d.val).target = some t → (domOf s d.val).step = 13 → exec (.domainReady d) s = .next (settle (waveAdvance (nextStep d.val 12 3 s))))
    ∧ (∀ t, (domOf s d.val).target = some t → (domOf s d.val).step = 12 → exec (.domainReady d) s = .next (settle (waveAdvance (nextStep d.val 11 1 s))))
    ∧ (∀ t, (domOf s d.val).target = some t → (domOf s d.val).step = 11 → exec (.domainReady d) s = .next (settle (waveAdvance (endTransition d.val .off (offEffects d.val (clkDown d.val (modDom d.val (fun y => { y with st := .off }) (modDom d.val (fun y => { y with ready := 0, offAt := some (now s) }) s))))))))
    ∧ (∀ st, (domOf s d.val).queued = none → s.cmd.running = [] → 128 ≤ d.val → endTransition d.val st s = bump .domTrans d.val (modDom d.val (fun x => { x with st := st, target := none, step := 0, queued := none, qWave := false, masked := st != .on, dwell := false }) s))
    ∧ ((domOf s d.val).target.isSome = true → (domOf s d.val).dwell = true → (domOf s d.val).offAt.getD 0 + 100000 ≤ now s → exec (.domainDwellEnd d) s = .next (settle (nextStep d.val 1 0 (modDom d.val (fun y => { y with dwell := false }) s))))
    ∧ ((domOf s d.val).dwell = false → exec (.domainDwellEnd d) s = .next (settle s))
    ∧ ((domOf s d.val).target = none → exec (.domainReadyTimeout d) s = .next (settle (waveAdvance s)))
    ∧ ((domOf s d.val).step = 2 → now s < (domOf s d.val).stepAt + 2 * (domBounds d.val).getD 1 0 → exec (.domainReadyTimeout d) s = .next (settle (waveAdvance s)))
    ∧ (∀ u, 136 ≤ d.val → (domOf s d.val).target.isSome = true → (domOf s d.val).step = 2 → (domOf s d.val).stepAt + 2 * (domBounds d.val).getD 1 0 ≤ now s →
        u = endDomainCmds d.val false .timeout 0 (timeoutEvent d.val (bump .domTimeout d.val (clkDown d.val (modDom d.val (fun y => { y with st := .off, target := none, step := 0, ready := 0, masked := true, errs := y.errs ||| 1, offAt := some (now s), dwell := false, lostClk := false }) s)))) →
        (domOf u d.val).queued = none → exec (.domainReadyTimeout d) s = .next (settle (waveAdvance u))))
  ∧ (∀ s : State, settRuns s = true →
    (∀ p : Fin 2, (domOf s (148 + 2 * p.val)).st ≠ .on → ∀ m, exec (.coreWfi p m) s = .next (settle s))
    ∧ ((domOf s 148).st = .on → pairPending { s with pwr := { s.pwr with mode0 := 0 } } 0 = false → exec (.coreWfi 0 0) s = .next (settle { s with pwr := { s.pwr with mode0 := 0 } }))
    ∧ ((domOf s 150).st = .on → pairPending { s with pwr := { s.pwr with mode1 := 1 } } 1 = false → exec (.coreWfi 1 1) s = .next (settle (bump .sleepE 1 (pairTo 1 .sleep { s with pwr := { s.pwr with mode1 := 1 } }))))
    ∧ (∀ c : Fin 25, (clkOf s c.val).running = false → (∀ d, (domOf s d).step ≠ 2) → exec (.clockLoss c) s = .next (settle s))
    ∧ (∀ c : Fin 25, (clkOf s c.val).running = true → (∀ d, (domOf s d).step ≠ 2) → ¬ (4 ≤ c.val ∧ c.val < 7) → ¬ (9 ≤ c.val ∧ c.val < 17) →
        exec (.clockLoss c) s = .next (settle (clockOutcome c.val (bump .clkLoss c.val (modClk c.val (fun x => { x with running := false, loss := true }) s)))))
    ∧ (∀ c : Fin 25, (clkOf s c.val).running = true → (∀ d, (domOf s d).step ≠ 2) → ((4 ≤ c.val ∧ c.val < 7) ∨ (9 ≤ c.val ∧ c.val < 17)) →
        exec (.clockLoss c) s = .next (settle (clockOutcome c.val (modClk c.val (fun x => { x with running := true, primary := false, switching := false }) (watchdogReset c.val (bump .clkLoss c.val (modClk c.val (fun x => { x with running := false, loss := true }) s)))))))
    ∧ (∀ c : Fin 25, (clkOf s c.val).switching = false → exec (.clockSwitchHung c) s = .next (settle s))
    ∧ (∀ (c : Fin 25) d, (clkOf s c.val).switching = true → d ∈ fedBy c.val → (domOf s d).step = 2 → (domOf s d).stepAt + 2560 ≤ now s →
        exec (.clockSwitchHung c) s = .next (settle (clockOutcome c.val (modClk c.val (fun x => { x with running := true, primary := true, switching := false }) (watchdogReset c.val (bump .clkHung c.val (modClk c.val (fun x => { x with hung := true }) s)))))))
    ∧ (s.pwr.obsOut ≠ 0 → s.pwr.obsStopped = false → exec .observedClockStop s = .next (settle (raise { code := 0x0A03, cls := .notice, block := 164, arg := s.pwr.obsClk } { s with pwr := { s.pwr with obsStopped := true } })))
    ∧ (s.pwr.obsOut = 0 → exec .observedClockStop s = .next (settle s))
    ∧ (∀ c b, s.dev.graveReq = none → exec (.graveFault c b) s = .next (settle { s with dev := { s.dev with graveReq := some (c.toNat, b.toNat) } }))
    ∧ (∀ js ls hs, s.therm.hotRaised = false → s.therm.over120 = false → cageHeld s = false → (js ++ hs).any (fun t => decide (t > 1100)) = true → (js ++ hs).any (fun t => decide (t > 1200)) = false →
        exec (.thermalSample js ls hs) s = .next (settle (lidDrift (raise { code := 0x01FF, cls := .degraded, block := 192, detail := 1 }
          { s with therm := { s.therm with junctions := js, lids := ls, hbms := hs, hotRaised := if (js ++ hs).all (fun t => decide (t < 1050)) then false else true, over120 := false }, pwr := { s.pwr with hbmRefresh := (List.range 4).foldl (fun t k => tset t k (decide (hs.getD k 0 > 850))) s.pwr.hbmRefresh } }))))
    ∧ (∀ (js ls hs : List Int) (u : State), s.therm.hotRaised = true → s.therm.over120 = true → cageHeld s = false → (js ++ hs).any (fun t => decide (t > 1200)) = true → (js ++ hs).any (fun t => decide (t > 1100)) = true →
        u = lidDrift { s with therm := { s.therm with junctions := js, lids := ls, hbms := hs, hotRaised := if (js ++ hs).all (fun t => decide (t < 1050)) then false else true, over120 := true }, pwr := { s.pwr with hbmRefresh := (List.range 4).foldl (fun t k => tset t k (decide (hs.getD k 0 > 850))) s.pwr.hbmRefresh } } →
        exec (.thermalSample js ls hs) s = .next (settle (graveCause 0x0106 192 { u with therm := { u.therm with tripN := false } }))))

/-- Cage power while the SNS clock runs (R699 to R710). In Off a sample is not taken. Otherwise it is kept: a cage in RAMP at 3.0 V or more is ON; one in ON at its limit or above goes to LIMIT and starts its fault timer; one in LIMIT below its limit goes back to ON; a damaged cage stays so. A fault timer that ends trips a cage in LIMIT with cause 1 and one in RAMP with cause 2, and with none running nothing happens. A current at 2.5 times the limit with the gate high trips the cage at once, and below it nothing happens. A ramp that misses its bound trips the cage, and so does a retry that has not asserted power-good 50 ms after its start. A tripped cage starts its next attempt 5 s after its last trip while its module is present, is off without the module unless the port ignores the contact, and waits before that. It rests on the model's own choice in log entry 137. Contacts of a port: in a powered device whose debounced presence is up to date, a new level of PRSNT_N starts its 10 ms debounce, and the same level does not start it again (R85); INT_N low raises line 4 of the port's block while the port is powered, and its rise lowers it (R694). -/
def Obligations.CagesAndPortContacts : Prop :=
  (∀ (c : PortId) (s : State), cageHeld s = false →
    (∀ a v, s.dev.st = .off → exec (.cageSample c a v) s = .next (settle (waveAdvance (step2End c.val s))))
    ∧ (∀ a v, s.dev.st ≠ .off → s.pins.vaon = true → (portOf s c.val).present = presentNow s c.val → (cageOf s c.val).st = .damaged → 2900 ≤ v →
        exec (.cageSample c a v) s = .next (settle (waveAdvance (step2End c.val (modCage c.val (fun x => { x with mA := a % 65536, mV := v % 65536 }) s)))))
    ∧ (∀ a v, s.dev.st ≠ .off → s.pins.vaon = true → (portOf s c.val).present = presentNow s c.val → (cageOf s c.val).st = .ramp → (cageOf s c.val).timer = none → 3000 ≤ v → a < (cageParOf s c.val).limit →
        exec (.cageSample c a v) s = .next (settle (waveAdvance (step2End c.val (cageTo c.val .on (modCage c.val (fun x => { x with timer := none, ilim := false, pgFrom := some (now s) }) (modCage c.val (fun x => { x with mA := a % 65536, mV := v % 65536 }) s)))))))
    ∧ (∀ a v, s.dev.st ≠ .off → s.pins.vaon = true → (portOf s c.val).present = presentNow s c.val → (cageOf s c.val).st = .on → 2900 ≤ v → (cageParOf s c.val).limit ≤ a →
        exec (.cageSample c a v) s = .next (settle (waveAdvance (step2End c.val (bump .cgLimit c.val (cageTo c.val .limit (modCage c.val (fun x => { x with timer := some (now s), limitAt := now s, pgFrom := none }) (modCage c.val (fun x => { x with mA := a % 65536, mV := v % 65536 }) s))))))))
    ∧ (∀ a v u, s.dev.st ≠ .off → s.pins.vaon = true → (portOf s c.val).present = presentNow s c.val → (cageOf s c.val).st = .limit → (cageOf s c.val).timer = none → 2900 ≤ v → a < (cageParOf s c.val).limit → u = endLimit c.val (modCage c.val (fun x => { x with mA := a % 65536, mV := v % 65536 }) s) →
        exec (.cageSample c a v) s = .next (settle (waveAdvance (step2End c.val (cageTo c.val .on (modCage c.val (fun x => { x with timer := none, pgFrom := if (cageOf s c.val).pg then none else some (now s) }) u))))))
    ∧ (∀ t, (cageOf s c.val).timer = some t → t + faultTime s c.val ≤ now s → (cageOf s c.val).st = .limit → exec (.cageFaultTimer c) s = .next (settle (tripCage c.val 1 0x0F01 .degraded s)))
    ∧ (∀ t, (cageOf s c.val).timer = some t → t + faultTime s c.val ≤ now s → (cageOf s c.val).st = .ramp → exec (.cageFaultTimer c) s = .next (settle (tripCage c.val 2 0x0F03 .degraded s)))
    ∧ ((cageOf s c.val).timer = none → exec (.cageFaultTimer c) s = .next (settle s))
    ∧ (∀ a, gateHigh s c.val = true → 5 * (cageParOf s c.val).limit ≤ 2 * a → exec (.cageHardTrip c a) s = .next (settle (tripCage c.val 4 0x0F02 .degraded (modCage c.val (fun x => { x with mA := a % 65536 }) s))))
    ∧ (∀ a, 2 * a < 5 * (cageParOf s c.val).limit → exec (.cageHardTrip c a) s = .next (settle s))
    ∧ ((cageOf s c.val).st = .ramp → (cageOf s c.val).a0 + 66000000 / (cageParOf s c.val).dvdt + 1000000 ≤ now s → exec (.cageRampTimeout c) s = .next (settle (tripCage c.val 3 0x0F03 .degraded s)))
    ∧ ((cageOf s c.val).attempting = true → (cageOf s c.val).pg = false → gateHigh s c.val = true → (cageOf s c.val).attemptAt + 50000000 ≤ now s → exec (.cageAttemptWindow c) s = .next (settle (tripCage c.val 5 0x0F04 .notice s)))
    ∧ ((cageOf s c.val).attempting = false → exec (.cageAttemptWindow c) s = .next (settle s))
    ∧ ((cageOf s c.val).st = .tripped → (cageOf s c.val).lastTrip + 5000000000 ≤ now s → presentNow s c.val = true → exec (.cageRetry c) s = .next (settle (startRamp c.val true (bump .cgRetries c.val (modCage c.val (fun x => { x with attempts := x.attempts + 1 }) s)))))
    ∧ ((cageOf s c.val).st = .tripped → (cageOf s c.val).lastTrip + 5000000000 ≤ now s → presentNow s c.val = false → (cfgOf s (2 * c.val)).ignorePresent = false → exec (.cageRetry c) s = .next (settle (gateLow c.val .off s)))
    ∧ (now s < (cageOf s c.val).lastTrip + 5000000000 → exec (.cageRetry c) s = .next (settle s)))
  ∧ (∀ (p : PortId) (s : State),
    (∀ level, s.dev.st ≠ .off → s.pins.vaon = true → (portOf s p.val).present = presentNow s p.val → (portOf s p.val).prsntHigh = !level →
      exec (.prsntNChange p level) s = .next (settle (modPort p.val (fun x => { x with prsntHigh := level, prsntSince := now s }) s)))
    ∧ (∀ level, s.dev.st ≠ .off → s.pins.vaon = true → (portOf s p.val).present = presentNow s p.val → (portOf s p.val).prsntHigh = level → exec (.prsntNChange p level) s = .next (settle s))
    ∧ (∀ level, exec (.intNLevel p level) s = .next (settle (sicLevel (8 * p.val + 4) (!level && portOn s (2 * p.val)) (modPort p.val (fun x => { x with intLow := !level }) s)))))

/-- CXL links and the contacts they use (R40, R76, R88 to R90, R175, R591). CLKREQ_N is noted and does nothing more on a Den port, on a split port's second half, and on a CXL port that is not in L1 with L1.1 enabled; there a low level begins the exit, and a high one enters L1.1. A request for L1 does nothing on a port that is no live CXL port; a device-facing port with nothing to send accepts it and enters L1, and the exit is the port's own. A lane-margining session of a live CXL link takes the die's engine, when no one holds it, and says that it is ready; the stop ends the session of the port; a step of the session under test reports an error count that the spec leaves open, as a free value. A CXL port of a start that is not up 250 ms after its wave fails its start, and not before. It rests on the model's own choices in log entries 62, 128. The in-band address of the management bus and the relocation of an HBM region while the device runs (R365, R527). A dynamic address is kept. A relocation's first step retires the target's lines, its second leads to the third, and at the end of the third the region, recovered first where it holds the directory, is mapped to its target and counted; the end of the fourth ends it, with no other waiting. With none in progress nothing happens. A bandwidth window that ends is kept as the last window, whole, and the next one starts at its end (R688); before its end nothing changes. -/
def Obligations.CxlLinkPowerRelocationAndWindows : Prop :=
  (∀ s : State,
    (∀ (p : PortId) l, (isCxl s (2 * p.val) = false ∨ (lpOf s (2 * p.val)).l1 = false ∨ (lpOf s (2 * p.val)).l11En = false) → exec (.clkreqNChange p l) s = .next (settle (modPort p.val (fun x => { x with clkreqLow := !l }) s)))
    ∧ (∀ p : PortId, isCxl s (2 * p.val) = true → (lpOf s (2 * p.val)).l1 = true → (lpOf s (2 * p.val)).l11En = true →
        exec (.clkreqNChange p false) s = .next (settle (wakeDl (2 * p.val) (modPort p.val (fun x => { x with clkreqLow := true }) s)))
        ∧ exec (.clkreqNChange p true) s = .next (settle (modPort p.val (fun x => { x with clkreqOut := false }) (modLp (2 * p.val) (fun l => { l with l11 := true }) (modPort p.val (fun x => { x with clkreqLow := false }) s)))))
    ∧ (∀ (lp : LpId) e, isCxl s lp.val = false → exec (.aspmL1Request lp e) s = .next (settle s) ∧ ∀ k, exec (.laneMargining lp (.start k)) s = .next (settle s))
    ∧ (∀ lp : LpId, isCxl s lp.val = true → lpUp s lp.val = true → isHost s lp.val = false → (lpOf s lp.val).l1 = false → cxlQuiet s lp.val = true → exec (.aspmL1Request lp true) s = .next (settle (enterL1 lp.val s)))
    ∧ (∀ lp : LpId, isCxl s lp.val = true → lpUp s lp.val = true → isHost s lp.val = false → cxlQuiet s lp.val = false → exec (.aspmL1Request lp true) s = .next (settle s))
    ∧ (∀ n, (lpOf (enterL1 n s) n).l1 = true)
    ∧ (∀ lp : LpId, isCxl s lp.val = true → lpUp s lp.val = true → exec (.aspmL1Request lp false) s = .next (settle (wakeDl lp.val s)))
    ∧ (∀ (lp : LpId) (k : Fin 8), isCxl s lp.val = true → linkLive s lp.val = true → k.val < (lanesOf s lp.val).length → engineHolder s (dieOf lp.val) = none →
        exec (.laneMargining lp (.start k)) s = .next (settle (openSession (.firmware (BitVec.ofNat 8 (lp.val / 2))) (.margin (dieOf lp.val) lp.val (4 * lp.val + k.val)) 0 (emit (.margin lp.val (4 * lp.val + k.val) true) s)).2))
    ∧ (∀ (lp : LpId) (k : Fin 8) h, isCxl s lp.val = true → linkLive s lp.val = true → k.val < (lanesOf s lp.val).length → engineHolder s (dieOf lp.val) = some h →
        exec (.laneMargining lp (.start k)) s = .next (settle (emit (.margin lp.val (4 * lp.val + k.val) false) s)))
    ∧ (∀ (lp : LpId) k x d l, s.ten.sessions = [(k, x)] → x.live = true → x.res = .margin d lp.val l →
        exec (.laneMargining lp .stop) s = .next (settle (endSession k s)) ∧ ∀ v g m, exec (.laneMargining lp (.step v g m)) s = .next (settle (emit (.marginErrors lp.val l (drawFree s).1) (drawFree s).2)))
    ∧ (∀ lp : LpId, s.ten.sessions = [] → exec (.laneMargining lp .stop) s = .next (settle s))
    ∧ (∀ p : PortId, startingPorts s = [p.val] → isCxl s (2 * p.val) = true → lpExists s (2 * p.val) = true → linkLive s (2 * p.val) = false → tget s.start.waveEnd p.val + 250000000 ≤ now s → exec (.cxlStartLinkUpTimeout p) s = .next (settle (startFailed p.val s)))
    ∧ (∀ p : PortId, now s < tget s.start.waveEnd p.val + 250000000 → exec (.cxlStartLinkUpTimeout p) s = .next (settle s)))
  ∧ (∀ s : State, settRuns s = true →
    (∀ a, exec (.dynamicAddressAssignment a) s = .next (settle { s with i3c := { s.i3c with dynAddr := some a } }))
    ∧ (∀ (k : Fin 4) r t, (dreyOf s k.val).moving = some (r, t, 1) → exec (.relocationStepDone k) s = .next (settle (modDrey k.val (fun d => { d with moving := some (r, t, 2) }) (retireDrey k.val t s))))
    ∧ (∀ (k : Fin 4) r t, (dreyOf s k.val).moving = some (r, t, 2) → exec (.relocationStepDone k) s = .next (settle (modDrey k.val (fun d => { d with moving := some (r, t, 3) }) s)))
    ∧ (∀ (k : Fin 4) r t u, (dreyOf s k.val).moving = some (r, t, 3) → u = (if r < 32 then recoverRegion k.val r s else s) → exec (.relocationStepDone k) s = .next (settle (wakeStack k.val (fun u => u.phase == .waitRegion) (bump .regionsRetired k.val
        (modDrey k.val (fun d => { d with moving := some (r, t, 4), regions := tset (tset d.regions r { st := 3, mapped := t + 1 }) t { st := 4, mapped := 0 } }) u)))))
    ∧ (∀ (k : Fin 4) r t, (dreyOf s k.val).moving = some (r, t, 4) → (dreyOf s k.val).moveQueue = [] → exec (.relocationStepDone k) s = .next (settle (modDrey k.val (fun d => { d with moving := none }) s)))
    ∧ (∀ (k : Fin 4), (dreyOf s k.val).moving = none → exec (.relocationStepDone k) s = .next (settle s)))
  ∧ (∀ (lp : LpId) (s : State), settRuns s = true → (tget s.ctr.mons lp.val).window ≠ 0 →
    (((tget s.ctr.mons lp.val).start / (tget s.ctr.mons lp.val).window + 1) * (tget s.ctr.mons lp.val).window ≤ now s →
      exec (.bandwidthWindowEnd lp) s = .next (settle { s with ctr := { s.ctr with mons := tmod s.ctr.mons lp.val (bwClose (((tget s.ctr.mons lp.val).start / (tget s.ctr.mons lp.val).window + 1) * (tget s.ctr.mons lp.val).window) false) } }))
    ∧ (now s < ((tget s.ctr.mons lp.val).start / (tget s.ctr.mons lp.val).window + 1) * (tget s.ctr.mons lp.val).window → exec (.bandwidthWindowEnd lp) s = .next (settle s)))

/-- Requests as they arrive (R107, R163, R165, R186, R189, R191, R192, R204). On a link that is not live nothing happens. A known frame's next bytes are added to it. A Den frame beyond the credits it has open is a protocol error, and one within them takes its cells and is classified. A frame on a CXL port that finds no credits is a violation of class C1 as taking credits says, and one that finds them is classified: at a device-facing port it is a violation of class C5, an opcode that no table lists is one of class C2, on a fabric port it goes its way, and on a host-facing port a posted one goes on as the host's request. What classification does with a Den frame (R186, R189, R191 to R193, R451, R462). A bad header check discards it and is told; an opcode that is not listed, a host's THROTTLE and a device's request are errors and discard it. A host's access to a page goes to the page, and another request of it to its windows. A fabric port's frame with no hops left is discarded and told; one with hops left, of a colour that is not reserved and no THROTTLE of this device, goes on with one hop less to the meter. -/
def Obligations.RequestsAtIngress : Prop :=
  (∀ (lp : LpId) (f : Frame) (a : Nat) (s : State),
    (linkLive s lp.val = false → exec (.requestClassify lp f a) s = .next (settle s))
    ∧ (∀ o, linkLive s lp.val = true → earlyOf s lp.val f = some o → exec (.requestClassify lp f a) s = .next (settle (takeMore lp.val f a o s)))
    ∧ (linkLive s lp.val = true → earlyOf s lp.val f = none → isCxl s lp.val = false → withinCredits s lp.val f = false → exec (.requestClassify lp f a) s = .next (settle (protoError lp.val s)))
    ∧ (∀ o t, linkLive s lp.val = true → earlyOf s lp.val f = none → isCxl s lp.val = false → isCxl t lp.val = false → withinCredits s lp.val f = true → enterFrame lp.val f a s = (o, t) → exec (.requestClassify lp f a) s = .next (settle (classifyDen lp.val f a o t)))
    ∧ (∀ t, linkLive s lp.val = true → earlyOf s lp.val f = none → isCxl s lp.val = true → takeCredits lp.val (.pbr f) s = (none, t) → exec (.requestClassify lp f a) s = .next (settle t))
    ∧ (∀ o t u, linkLive s lp.val = true → earlyOf s lp.val f = none → isCxl s lp.val = true → takeCredits lp.val (.pbr f) s = (some o, t) → u = noteEarly lp.val f a o t → isCxl u lp.val = true →
        exec (.requestClassify lp f a) s = .next (settle (classifyCxl lp.val f a o u)))
    ∧ (∀ o, (isDevice s lp.val = true → classifyCxl lp.val f a o s = copyGone o (violation lp.val 5 s))
      ∧ (isDevice s lp.val = false → opcodeListed f.cls f.opcode.toNat = false → classifyCxl lp.val f a o s = copyGone o (violation lp.val 2 s))
      ∧ (isDevice s lp.val = false → isHost s lp.val = false → isFabric s lp.val = true → opcodeListed f.cls f.opcode.toNat = true → classifyCxl lp.val f a o s = fabricRequest lp.val f a o s)
      ∧ (isDevice s lp.val = false → isFabric s lp.val = false → opcodeListed f.cls f.opcode.toNat = true → f.cls ≠ clsIO → isPosted f = true →
          classifyCxl lp.val f a o s = hostRequest lp.val 0 { f with chan := BitVec.ofNat 3 (chanOf f.cls f.opcode.toNat) } a o s)))
  ∧ (∀ (lp : Nat) (f : Frame) (a o : Nat) (s : State),
    (hchkOk f = false → classifyDen lp f a o s = dropFrame o (hchkFailure lp (lp / 2) f s))
    ∧ (hchkOk f = true → opcodeListed f.cls f.opcode.toNat = false → classifyDen lp f a o s = dropFrame o (protoError lp s))
    ∧ (hchkOk f = true → opcodeListed f.cls f.opcode.toNat = true → isHost s lp = true → f.cls = clsIO → f.opcode = 0xF0 → classifyDen lp f a o s = dropFrame o (protoError lp s))
    ∧ (hchkOk f = true → opcodeListed f.cls f.opcode.toNat = true → isHost s lp = true → isPageAccess s lp f = true → (f.cls ≠ clsIO ∨ f.opcode ≠ 0xF0) → classifyDen lp f a o s = denPage lp (framePasid f) f o s)
    ∧ (hchkOk f = true → opcodeListed f.cls f.opcode.toNat = true → isHost s lp = true → isPageAccess s lp f = false → (f.cls ≠ clsIO ∨ f.opcode ≠ 0xF0) → classifyDen lp f a o s = hostRequest lp (framePasid f) f a o s)
    ∧ (hchkOk f = true → opcodeListed f.cls f.opcode.toNat = true → isHost s lp = false → isFabric s lp = true → f.hops = 0 → classifyDen lp f a o s = dropFrame o (raise { code := 0x020F, cls := .notice, block := lp / 2, arg := f.did.toNat } (bump .routeDisc lp s)))
    ∧ (hchkOk f = true → opcodeListed f.cls f.opcode.toNat = true → isHost s lp = false → isFabric s lp = true → f.hops ≠ 0 → f.colour ≠ 3 → takesRequests s = true → throttleHere s { f with hops := f.hops - 1 } = false →
        classifyDen lp f a o s = meterAndShape lp { f with hops := f.hops - 1 } a o s)
    ∧ (hchkOk f = true → opcodeListed f.cls f.opcode.toNat = true → isHost s lp = false → isFabric s lp = false → classifyDen lp f a o s = dropFrame o (agentViolation lp s)))

/-- Where translation is not mediated, a host's request that is not posted and that its windows resolve leaves for the target of the slice with the binding, the fabric address and the tenant's priority of the window it hit, its own source and no mark, colour or privilege of the host's, under a fresh header check (R185, R191, R450, R459); one that no window takes is a window miss (R452); in Drain it is answered that its target is unavailable (R18). Responses as they arrive (R107, R131, R186, R189, R191). On a link that is not live, and on a CXL port that is no fabric port, nothing happens. A Den frame beyond the credits is a protocol error, and a bad header check discards it and is told. A data completion with status OK that comes on a target's link and answers no outstanding request is discarded and counted, and one that answers a request before its time-out's tick ends it and is delivered to who asked; one on a host's link is discarded and counted; one on a fabric link goes on with one hop less. Response time-outs of device-facing ports (R131, R171, R172, R182). Elsewhere, and where no request with the tag is late, nothing happens. On a Den port a late request is counted, told once per window and ended with TIMEOUT for its asker, and at the threshold the port falls as well. On a CXL port it is a violation of class C7; a slice's fill gets a poisoned line of a free value, a requester's read is answered with poison of a free value, and a write of a slice ends as unavailable. -/
def Obligations.TranslationAndResponses : Prop :=
  (∀ (lp pasid : Nat) (f g : Frame) (a o i fa : Nat) (s : State), s.ten.mediated = false → isNotice g = false → isPosted g = false →
    g = { f with sid := BitVec.ofNat 12 (didOf s lp), priv := false, colour := 0, hops := 15, copy := false, marked := false, rsv := 0, chan := if isCxl s lp then f.chan else BitVec.ofNat 3 (chanOf f.cls f.opcode.toNat) } →
    (takesRequests s = true → resolve s lp pasid (fAddr g) (reachOf g) = .hit i fa →
      hostRequest lp pasid f a o s = meterAndShape lp (sealHdr { g with binding := handleOf s 1 i, addr := BitVec.ofNat 64 fa, did := BitVec.ofNat 12 (sliceOf s (bindOf s i).slice).target, prio := BitVec.ofNat 3 (tenantOf s (bindOf s i).tenant).prio }) a o s)
    ∧ (takesRequests s = true → resolve s lp pasid (fAddr g) (reachOf g) = .miss → hostRequest lp pasid f a o s = windowMiss lp pasid g o s)
    ∧ (takesRequests s = false → resolve s lp pasid (fAddr g) (reachOf g) = .hit i fa →
      hostRequest lp pasid f a o s = copyGone o (targetGone { g with binding := handleOf s 1 i } stUnavail s)))
  ∧ (∀ (lp : LpId) (f : Frame) (s t : State) (k : Nat), enterFrame lp.val f (frameLen f) s = (k, t) → earlyOf s lp.val f = none →
    (linkLive s lp.val = false → exec (.responseIngress lp f) s = .next (settle s))
    ∧ (isCxl s lp.val = true → isFabric s lp.val = false → exec (.responseIngress lp f) s = .next (settle s))
    ∧ (linkLive s lp.val = true → isCxl s lp.val = false → withinCredits s lp.val f = false → exec (.responseIngress lp f) s = .next (settle (protoError lp.val s)))
    ∧ (linkLive s lp.val = true → isCxl s lp.val = false → isCxl t lp.val = false → withinCredits s lp.val f = true →
      (hchkOk f = false → exec (.responseIngress lp f) s = .next (settle (copyGone k (hchkFailure lp.val (lp.val / 2) f t))))
      ∧ (hchkOk f = true → f.cls = clsBM → f.opcode = 0x81 → f.status = stOK →
        (isFabric t lp.val = false → isHost t lp.val = false → outOf t lp.val f = none → exec (.responseIngress lp f) s = .next (settle (copyGone k (bump .respDisc lp.val t))))
        ∧ (∀ o, isFabric t lp.val = false → isHost t lp.val = false → outOf t lp.val f = some o → now t ≠ o.at_ + (cfgOf t lp.val).respTimeout →
            exec (.responseIngress lp f) s = .next (settle (deliverTo lp.val o.asker f (frameLen f) k (modOut lp.val (fun l => l.erase o) t))))
        ∧ (isFabric t lp.val = false → isHost t lp.val = true → exec (.responseIngress lp f) s = .next (settle (copyGone k (bump .respDisc lp.val t))))
        ∧ (isFabric t lp.val = true → f.hops ≠ 0 → f.colour ≠ 3 → exec (.responseIngress lp f) s = .next (settle (routeResponse (.port lp.val) { f with hops := f.hops - 1 } (frameLen f) k t))))))
  ∧ (∀ (lp : LpId) (tag : BitVec 16) (s t : State),
    ((isDen s lp.val = false ∨ isDevice s lp.val = false) → exec (.denResponseTimeout lp tag) s = .next (settle s))
    ∧ ((tget s.net.denOut lp.val).find? (fun o => o.tag == tag.toNat && decide (now s > o.at_ + (cfgOf s lp.val).respTimeout)) = none → exec (.denResponseTimeout lp tag) s = .next (settle s))
    ∧ (∀ o l i k e, isDen s lp.val = true → isDevice s lp.val = true → (tget s.net.denOut lp.val).find? (fun o => o.tag == tag.toNat && decide (now s > o.at_ + (cfgOf s lp.val).respTimeout)) = some o → o.asker = .slice i k →
        t = bump .denRespTo lp.val (modOut lp.val (fun l => l.erase o) s) → l = now t :: slide (now t) (cfgOf s lp.val).window (tget (winOf t lp.val).viol 7) →
        e = windowEvent lp.val 7 { code := 0x0210, cls := .degraded, block := lp.val / 2, arg := lp.val } (modWin lp.val (fun w => { w with viol := tset w.viol 7 l }) t) →
        exec (.denResponseTimeout lp tag) s = .next (settle (endAsker lp.val (.slice i k) stTimeout (if (cfgOf s lp.val).thresholds.getD 6 4 ≤ l.length then fall lp.val 2 e else e))))
    ∧ ((isCxl s lp.val = false ∨ isDevice s lp.val = false) → exec (.cxlMemTimeout lp tag) s = .next (settle s))
    ∧ ((cxlOf s lp.val).out.find? (fun o => o.tag == tag.toNat && decide (now s > o.at_ + (cfgOf s lp.val).respTimeout)) = none → exec (.cxlMemTimeout lp tag) s = .next (settle s))
    ∧ (∀ o, isCxl s lp.val = true → isDevice s lp.val = true → (cxlOf s lp.val).out.find? (fun o => o.tag == tag.toNat && decide (now s > o.at_ + (cfgOf s lp.val).respTimeout)) = some o →
        t = violation lp.val 7 (modCxl lp.val (fun c => { c with out := c.out.erase o }) s) →
        (∀ i k, o.asker = .slice i k → exec (.cxlMemTimeout lp tag) s = .next (settle (memoryReturn i k (.memory (freeLine t).1 true) (freeLine t).2)))
        ∧ (∀ i k, o.asker = .sliceWrite i k → exec (.cxlMemTimeout lp tag) s = .next (settle (endAsker lp.val (.sliceWrite i k) stUnavail t)))
        ∧ (∀ q u, o.asker = .frame q → o.io = false → o.read = true → u = modCxl lp.val (fun c => { c with out := c.out.filter (fun x => match x.asker with | .frame g => !(g.tag == q.tag && g.sid == q.sid) | _ => true) }) t →
            exec (.cxlMemTimeout lp tag) s = .next (settle (complete { q with data := [] } stPoison (leBytes q.length.toNat (drawFree u).1) (epochNow (drawFree u).2) (drawFree u).2)))))

/-- Messages and training of CXL ports (R40, R61, R158, R159, R163, R166 to R168, R171, R176, R182). A message on a port that is not an up CXL port has no effect. On one that is, out of L1: a link error counts in its window; an acknowledgement and a request for a replay act on the messages kept for it; a message whose flit is in order, with none held, is acknowledged and taken; one that comes again is acknowledged and no more; one ahead of its turn is asked for again. A message beyond its credits is a violation of class C1 as taking credits says; viral isolates the port as `viralIn`; a reserved message is class C2; credits that come back are added and let waiting messages leave. A training without the board table, a powered port or a training port does nothing; one that ends below 32 GT/s, or with an RCD partner, is out of service with a Degraded event and the rate it reached; any other comes up at its width, rate and flit mode. It rests on the model's own choices in log entries 2, 50, 63, 105. -/
def Obligations.CxlMessages : Prop :=
  ∀ (lp : LpId) (s u : State),
    (∀ m, (isCxl s lp.val = false ∨ lpUp s lp.val = false) → exec (.cxlMessageIngress lp m) s = .next (settle s))
    ∧ (isCxl s lp.val = true → lpUp s lp.val = true → (lpOf s lp.val).l1 = false → (lpOf s lp.val).dl = .dl0 → u = modLp lp.val (fun l => { l with lastFlit := now s }) s →
      (∀ q e, exec (.cxlMessageIngress lp ⟨q, .linkError e⟩) s = .next (settle (linkError lp.val e u)))
      ∧ (∀ q k, exec (.cxlMessageIngress lp ⟨q, .ack k⟩) s = .next (settle (cxlAck lp.val k u)))
      ∧ (∀ q k b, exec (.cxlMessageIngress lp ⟨q, .nak k b⟩) s = .next (settle (cxlNak lp.val k b u)))
      ∧ (∀ q m, (∀ e, m ≠ .linkError e) → (∀ k, m ≠ .ack k) → (∀ k b, m ≠ .nak k b) →
        (q = flitAfter (cxlOf s lp.val).mode (cxlOf s lp.val).rxSeq → (cxlOf s lp.val).held = [] → exec (.cxlMessageIngress lp ⟨q, m⟩) s = .next (settle (cxlAccept lp.val m u)))
        ∧ ((cxlOf s lp.val).mode = .flit68 → q ≠ flitAfter .flit68 (cxlOf s lp.val).rxSeq → 128 ≤ (q + 256 - flitAfter .flit68 (cxlOf s lp.val).rxSeq) % 256 → exec (.cxlMessageIngress lp ⟨q, m⟩) s = .next (settle (emit (.cxl lp.val (.ack (cxlOf s lp.val).rxSeq)) u)))
        ∧ ((cxlOf s lp.val).mode = .flit68 → q ≠ flitAfter .flit68 (cxlOf s lp.val).rxSeq → (q + 256 - flitAfter .flit68 (cxlOf s lp.val).rxSeq) % 256 < 128 →
            exec (.cxlMessageIngress lp ⟨q, m⟩) s = .next (settle (emit (.cxl lp.val (.nak (flitAfter .flit68 (cxlOf s lp.val).rxSeq) false)) u)))))
    ∧ (∀ n m t, (∀ f, m ≠ .pbr f) → takeCredits n m (bwCount n true (cxlBytes m) s) = (none, t) → cxlMessage n m s = t)
    ∧ (∀ n, cxlMessage n .viral s = viralIn n (bwCount n true (cxlBytes .viral) s) ∧ cxlMessage n .reserved s = violation n 2 (bwCount n true (cxlBytes .reserved) s)
      ∧ ∀ c k, cxlMessage n (.creditReturn c k) s = cxlCredit n c k (bwCount n true (cxlBytes (.creditReturn c k)) s))
    ∧ (∀ rate x, (isCxl s lp.val = false ∨ (lpOf s lp.val).link ≠ .training ∨ portOn s lp.val = false ∨ s.sec.tableOk = false) → exec (.cxlLinkTrained lp rate x) s = .next (settle s))
    ∧ (∀ rate x, isCxl s lp.val = true → (lpOf s lp.val).link = .training → (lpOf s lp.val).idleUntil = none → portOn s lp.val = true → s.sec.tableOk = true → u = equalise lp.val rate x (cxlLanes lp.val rate x (takeNext lp.val s)) →
      ((rateGts rate < 32 ∨ x.rcd = true) → exec (.cxlLinkTrained lp rate x) s = .next (settle (modLp lp.val (fun l => { l with link := .outOfService, rate := rateCode rate }) (raise { code := 0x0202, cls := .degraded, block := lp.val / 2, arg := rateGts rate } (bump .rateShort lp.val u)))))
      ∧ (32 ≤ rateGts rate → x.rcd = false → exec (.cxlLinkTrained lp rate x) s = .next (settle (agentBack lp.val (startUp lp.val (advertise lp.val
          (modCxl lp.val (fun _ => { mode := flitMode rate x, selNak := x.selNak, txSeq := if flitMode rate x = .flit68 then 0 else 1, rxSeq := if flitMode rate x = .flit68 then 255 else 0, lds := min x.lds 16 })
            (modLp lp.val (fun l => { l with link := .up, rate := rateCode rate, width4 := if (cfgOf s lp.val).width = 8 ∧ x.lanes ≤ 4 then some 0 else none, sinceUpDown := false, wentDown := false, l1 := false, l11 := false, huntFrom := none, lastFlit := now u }) u))))))))

/-- The crossbar (R215 to R219, R291). An arbiter with no transfer in hand and no request that may be granted does nothing at a port, and at a slice only notes a full tracker. The request that its arbitration picks is noted and carried across. A transfer to a port of a class that no request revokes, and whose frame is not whole, keeps the arbiter. It rests on the model's own choices in log entries 61, 66, 127. The request that an arbitration picks is one of its arbiter's, may be granted, and no other that it could pick has a more urgent level (R216). -/
def Obligations.CrossbarGrants : Prop :=
  (∀ (a : ArbId) (s : State),
    ((tget s.sw.arbs (arbKey a)).cur = none → chooseGrant s (arbKey a) = none → (∀ i, a ≠ .slice i) → exec (.crossbarGrant a) s = .next (settle s))
    ∧ (∀ i, a = .slice i → (tget s.sw.arbs (arbKey a)).cur = none → chooseGrant s (arbKey a) = none → exec (.crossbarGrant a) s = .next (settle (noteFull i.val s)))
    ∧ (∀ x, (tget s.sw.arbs (arbKey a)).cur = none → chooseGrant s (arbKey a) = some x → exec (.crossbarGrant a) s = .next (settle (carryGrant (arbKey a) x s)))
    ∧ (∀ x n, (tget s.sw.arbs (arbKey a)).cur = some x → s.sw.reqs = [x] → x.dst = .lp n → x.f.cls ≠ clsBM → x.arrived < frameLen x.f → exec (.crossbarGrant a) s = .next (settle s)))
  ∧ (∀ (s : State) (key : Nat) (x : XReq), chooseGrant s key = some x →
    x ∈ s.sw.reqs ∧ arbOf x = key ∧ mayGrant s x = true
      ∧ (∀ y ∈ s.sw.reqs, arbOf y = key → mayGrant s y = true → offers (s.sw.reqs.filter (fun x => arbOf x == key && mayGrant s x)) y = true → xLevel x ≤ xLevel y))

/-- Egress (R202, R256, R273, R277). A port that is down, asleep or in L1 serves nothing. Elsewhere the shapers' due refill comes first, and frames that a short window defers are counted; with no eligible queue that is all; otherwise the queue that is chosen has its shaper charged, and the frame at the head of a channel of it leaves the queue and goes to the link. Q7 is chosen ahead of the others. It rests on the model's own choices in log entry 61. The deficit round robin serves only a queue of Q0 to Q6 that has a frame to send, and one whose deficit covers that frame (R202). -/
def Obligations.EgressService : Prop :=
  (∀ (lp : LpId) (s t : State), t = countDeferred lp.val (shaperRefill s) →
    ((lpUp s lp.val = false ∨ (lpOf s lp.val).dl ≠ .dl0 ∨ (lpOf s lp.val).l1 = true) → exec (.egressDequeue lp) s = .next (settle s))
    ∧ (lpUp s lp.val = true → (lpOf s lp.val).dl = .dl0 → (lpOf s lp.val).l1 = false → (∀ q, q < 8 → eligible t lp.val q = false) → exec (.egressDequeue lp) s = .next (settle t))
    ∧ (∀ q v h, lpUp s lp.val = true → (lpOf s lp.val).dl = .dl0 → (lpOf s lp.val).l1 = false → chooseQueue lp.val t = (some q, v) → headFree v lp.val q = some h → gateSays v lp.val q (frameLen h.f) = .go →
        exec (.egressDequeue lp) s = .next (settle (handOver lp.val h (popQueue lp.val q h (chargeQueue lp.val q (frameLen h.f) v)))))
    ∧ (eligible t lp.val 7 = true → chooseQueue lp.val t = (some 7, t)))
  ∧ (∀ (n fuel : Nat) (s t : State) (q : Nat), (egressOf s n).next ≤ 6 → dwrr n fuel s = (some q, t) →
    q ≤ 6 ∧ ∃ h, headFree t n q = some h ∧ frameLen h.f ≤ (queueAt t n q).deficit)

/-- Holds and merges (R198, R213, R220, R221, R237). A merge that is gone, or whose time has not passed, does not expire; one whose time has passed ends, and answers its request with the worst of the statuses so far and TIMEOUT. A port that is not frozen fails nothing; the only request that waited for a frozen port beyond its limit, with no transfer in progress, is lost as not yet handed to the link and counted. A destination that no route change holds is not released; one whose hold is over is, and one whose hold is not over is not while its old link has frames of it. Shapers and time gates (R235, R251 to R285). The shapers' refill acts only on multiples of 128 ns, once on each, and not while suspended; where nothing waits it fills the only configured shaper. A THROTTLE for a binding that is not this module's is counted; one for a live binding marks it and is a notice, which lowers the effective rate of a shaper that responds and was not lowered before, down to its floor. An effective rate below the rate recovers by a 32nd of it when its interval has passed without a notice. An open window ends at its boundary and not before. A committed gate list is taken at its instant and not before: the other copy becomes active. It rests on the model's own choices in log entry 64. Rule sets and the destruction of bindings (R455, R481 to R484). A rule set with no commit in hand swaps nothing, and one with a commit nothing before its instant; then the staged list is the committed one, and every gate that either list touches notes the instant. Where no gate has a request of the old rules in flight, a commit that waits for them is drained. A binding that is gone, or still has something in flight or unacknowledged, goes no further; once quiet, in step 4 it ends as `bindB5` where its slice is not persistent, and where the slice is this module's and persistent only after its writes are durable. -/
def Obligations.HoldsShapersAndRuleSwaps : Prop :=
  (∀ s : State,
    (∀ id, s.sw.merges.find? (fun m => m.id == id) = none → exec (.mergeTimeout id) s = .next (settle s))
    ∧ (∀ id m, s.sw.merges.find? (fun m => m.id == id) = some m → now s ≤ m.deadline → exec (.mergeTimeout id) s = .next (settle s))
    ∧ (∀ id m, s.sw.merges.find? (fun m => m.id == id) = some m → m.deadline < now s → exec (.mergeTimeout id) s = .next (settle (answer m.req (BitVec.ofNat 4 ((mergeOrder.find? (fun x => (6 :: m.statuses).contains x)).getD 6)) [] m.epoch
        { s with sw := { s.sw with merges := s.sw.merges.filter (fun x => x.id != id) } })))
    ∧ (∀ p : PortId, (portOf s p.val).freeze = false → exec (.freezeHoldExpiry p) s = .next (settle s))
    ∧ (∀ (p : PortId) x n, (portOf s p.val).freeze = true → s.sw.arbs = [] → s.sw.reqs = [x] → x.dst = .lp n → n / 2 = p.val → x.since + (cfgOf s n).freezeLimit < now s → exec (.freezeHoldExpiry p) s = .next (settle (copyGone x.orig (loseFrame n x.src x.f stUnavail (bump .freezeExp n { s with sw := { s.sw with reqs := [] } })))))
    ∧ (∀ did : BitVec 12, (tget s.sw.holds did.toNat).why ≠ some .route → exec (.routeHoldRelease did) s = .next (settle s))
    ∧ (∀ did : BitVec 12, (tget s.sw.holds did.toNat).why = some .route → ((tget s.sw.holds did.toNat).until_ ≤ now s ∨ didQuiet s (tget s.sw.holds did.toNat).oldLp did.toNat = true) → exec (.routeHoldRelease did) s = .next (settle (releaseHeld did.toNat s)))
    ∧ (∀ did : BitVec 12, now s < (tget s.sw.holds did.toNat).until_ → didQuiet s (tget s.sw.holds did.toNat).oldLp did.toNat = false → exec (.routeHoldRelease did) s = .next (settle s)))
  ∧ (∀ s : State,
    (now s % 128 ≠ 0 → exec .shaperRefill s = .next (settle s))
    ∧ (s.tm.suspended = true → exec .shaperRefill s = .next (settle s))
    ∧ (s.tm.refilled = now s + 1 → exec .shaperRefill s = .next (settle s))
    ∧ (now s % 128 = 0 → s.tm.refilled ≠ now s + 1 → s.tm.suspended = false → s.sw.queues = [] → s.tm.held = [] → s.tm.shapers = [] → exec .shaperRefill s = .next (settle { s with tm := { s.tm with refilled := now s + 1 } }))
    ∧ (∀ k x, now s % 128 = 0 → s.tm.refilled ≠ now s + 1 → s.tm.suspended = false → s.sw.queues = [] → s.tm.held = [] → s.tm.shapers = [(k, x)] → x.configured = true →
        exec .shaperRefill s = .next (settle { s with tm := { s.tm with refilled := now s + 1, shapers := tset s.tm.shapers k (refillShaper { s with tm := { s.tm with refilled := now s + 1 } } k) } }))
    ∧ (∀ f, liveBind s (handleAt f.data 0) = none → exec (.throttle f) s = .next (settle (bump .shForeign (hIdx (handleAt f.data 0)) s)))
    ∧ (∀ f x, liveBind s (handleAt f.data 0) = some x → exec (.throttle f) s = .next (settle (throttleNotice (handleAt f.data 0) true (markBinding (handleAt f.data 0) (fieldAt f.data 5 1) s))))
    ∧ (∀ b x y w, liveBind s b = some x → y = shaperOf s (hIdx b) → y.par.throttle = true → y.lastDec = none →
        throttleNotice b w s = bump .shDec (hIdx b) (setShaper (hIdx b) { y with re := max (y.re - y.re / 2 ^ y.par.d) (y.par.rate * 2 ^ 24 / 2 ^ y.par.f), lastDec := some (now s), lastNotice := now s } s))
    ∧ (∀ b, liveBind s b = none → exec (.throttleRecovery b) s = .next (settle s))
    ∧ (∀ b x y, liveBind s b = some x → y = shaperOf s (hIdx b) → y.re < y.par.rate * 2 ^ 24 → y.lastNotice + y.par.recov < now s →
        exec (.throttleRecovery b) s = .next (settle (setShaper (hIdx b) { y with re := min (y.par.rate * 2 ^ 24) (y.re + y.par.rate * 2 ^ 24 / 32), lastNotice := y.lastNotice + y.par.recov } s)))
    ∧ (∀ b, now s ≤ (shaperOf s (hIdx b)).lastNotice + (shaperOf s (hIdx b)).par.recov → exec (.throttleRecovery b) s = .next (settle s))
    ∧ (∀ (lp : LpId) u, (tgOf s lp.val).openUntil = some u → u ≤ now s → exec (.timeGateSlot lp) s = .next (settle (modTg lp.val (fun g => { g with openUntil := none }) s)))
    ∧ (∀ (lp : LpId) u, (tgOf s lp.val).openUntil = some u → now s < u → exec (.timeGateSlot lp) s = .next (settle s))
    ∧ (∀ (lp : LpId) t, (tgOf s lp.val).committed = some t → now s < t → exec (.gateSwap lp) s = .next (settle s))
    ∧ (∀ (lp : LpId) t, (tgOf s lp.val).committed = some t → t ≤ now s → exec (.gateSwap lp) s = .next (settle (bump .tgSwaps lp.val (modTg lp.val (fun g => { g with active := !g.active, live := true, committed := none }) s)))))
  ∧ (∀ (h : Handle) (s t : State),
    ((ruleSetOf s h).swapAt = none → exec (.ruleSwap h) s = .next (settle s))
    ∧ (∀ k, (ruleSetOf s h).swapAt = some k → now s < k → exec (.ruleSwap h) s = .next (settle s))
    ∧ (∀ k, (ruleSetOf s h).swapAt = some k → k ≤ now s → (ruleSetOf s h).withRecall = false →
        t = modRules h (fun r => { r with committed := r.next, next := [], swapAt := none, lastSwap := k }) s →
        (ruleSetOf t h).committed = (ruleSetOf s h).next ∧ exec (.ruleSwap h) s = .next (settle ((gatesOfLists s (ruleSetOf s h).committed (ruleSetOf s h).next).foldl (fun s g => modGate g (fun x => { x with lastSwap := k }) s) t)))
    ∧ ((ruleSetOf s h).awaitDrain = false → exec (.gateCommitDrained h) s = .next (settle s))
    ∧ ((ruleSetOf s h).awaitDrain = true → (ruleSetOf s h).swapAt = none → s.ten.gates = [] → exec (.gateCommitDrained h) s = .next (settle (modRules h (fun r => { r with awaitDrain := false }) s)))
    ∧ (liveHandle s h = false → exec (.bindDestroyProgress h) s = .next (settle s))
    ∧ ((bindOf s (hIdx h)).step = 2 → (bindQuiet s h = false ∨ (bindOf s (hIdx h)).posted ≠ 0) → exec (.bindDestroyProgress h) s = .next (settle s))
    ∧ (liveHandle s h = true → (bindOf s (hIdx h)).step = 4 → (sliceOf s (bindOf s (hIdx h)).slice).persistent = false → exec (.bindDestroyProgress h) s = .next (settle (bindB5 h s)))
    ∧ (liveHandle s h = true → (bindOf s (hIdx h)).step = 4 → ownsSlice s (bindOf s (hIdx h)).slice = true → max (bindOf s (hIdx h)).lastEpoch (bindOf s (hIdx h)).highEpoch ≤ s.hoard.durable → exec (.bindDestroyProgress h) s = .next (settle (bindB5 h s)))
    ∧ ((bindOf s (hIdx h)).step = 4 → (sliceOf s (bindOf s (hIdx h)).slice).persistent = true → ownsSlice s (bindOf s (hIdx h)).slice = true → s.hoard.durable < max (bindOf s (hIdx h)).lastEpoch (bindOf s (hIdx h)).highEpoch → exec (.bindDestroyProgress h) s = .next (settle s)))

/-- Requests at a Brock slice (R186, R291, R293, R300, R308, R316, R467). One with a bad header check is a failure of its port and is dropped; a malformed one is a protocol error and completes with UNSUPPORTED; one in Hibernate, or of an agent being lost, completes with UNAVAILABLE; a non-atomic one outside the coherent slices with UNSUPPORTED; one that the access gate of a home slice refuses is counted and completes with ACCESS_FAULT. One that the gate passes takes a free tracker and its flow starts, or waits in order behind a flow on its line; with no tracker free it waits at the crossbar. -/
def Obligations.BrockRequests : Prop :=
  ∀ (i : SliceId) (lp : LpId) (f : Frame) (s u : State) (l : Nat), u = bumpC .lookups i.val 0 1 (ctxOf s f) s → l = lineOf (fAddr f) →
    (hchkOk f = false → exec (.brockRequest i lp f) s = .next (settle (pump i.val (hchkFailure lp.val (138 + i.val) f u))))
    ∧ (hchkOk f = true → cmWellFormed f = false → exec (.brockRequest i lp f) s = .next (settle (pump i.val (sendCmp i.val lp.val f stUnsup (protoError lp.val (bump .cohViolS i.val u))))))
    ∧ (hchkOk f = true → cmWellFormed f = true → (u.dev.st = .hibernate ∨ (slOf u i.val).lost.getLsbD lp.val = true) → exec (.brockRequest i lp f) s = .next (settle (pump i.val (sendCmp i.val lp.val f stUnavail u))))
    ∧ (hchkOk f = true → cmWellFormed f = true → u.dev.st ≠ .hibernate → (slOf u i.val).lost.getLsbD lp.val = false → coherentLine u l = false → isAtomic f = false → exec (.brockRequest i lp f) s = .next (settle (pump i.val (sendCmp i.val lp.val f stUnsup u))))
    ∧ (∀ v k, hchkOk f = true → cmWellFormed f = true → u.dev.st ≠ .hibernate → (slOf u i.val).lost.getLsbD lp.val = false → coherentLine u l = true → remoteLp u l = none → gateCheck i.val f u = (.pass, v) → freeTrk v i.val = some k → busyTrk v i.val l = none →
        exec (.brockRequest i lp f) s = .next (settle (pump i.val (pump i.val (makeReady i.val k (noteFull i.val (modTrk i.val k (fun _ => { used := true, line := l, lp := lp.val, f := f, phase := .run, bulk := false, since := now v }) v)))))))
    ∧ (∀ v, hchkOk f = true → cmWellFormed f = true → u.dev.st ≠ .hibernate → (slOf u i.val).lost.getLsbD lp.val = false → coherentLine u l = true → remoteLp u l = none → gateCheck i.val f u = (.pass, v) → freeTrk v i.val = none → remoteLp v l = none →
        exec (.brockRequest i lp f) s = .next (settle (pump i.val (noteFull i.val (raiseX (.port lp.val) (.slice i.val) f (frameLen f) 0 v)))))
    ∧ (∀ v rs, hchkOk f = true → cmWellFormed f = true → u.dev.st ≠ .hibernate → (slOf u i.val).lost.getLsbD lp.val = false → coherentLine u l = true → remoteLp u l = none → gateCheck i.val f u = (.refuse rs, v) → isWrite f = false →
        exec (.brockRequest i lp f) s = .next (settle (pump i.val (sendCmp i.val lp.val f stFault (bumpC .refusals (hIdx f.binding) 0 1 (ctxOf v f) v)))))
    ∧ (∀ v k b, hchkOk f = true → cmWellFormed f = true → u.dev.st ≠ .hibernate → (slOf u i.val).lost.getLsbD lp.val = false → coherentLine u l = true → remoteLp u l = none → gateCheck i.val f u = (.pass, v) → freeTrk v i.val = some k → busyTrk v i.val l = some b →
        exec (.brockRequest i lp f) s = .next (settle (pump i.val (bump .conflicts i.val (modSl i.val (fun x => { x with conflicts := x.conflicts ++ [(l, k)] }) (noteFull i.val (modTrk i.val k (fun _ => { used := true, line := l, lp := lp.val, f := f, phase := .conflict, bulk := false, since := now v }) v)))))))

/-- Notices of an agent that is not being lost, well formed (R311 to R315). The recorded owner's clean eviction removes it and completes with OK, and so does the eviction of a sharer recorded exactly; an eviction of a line that the directory does not record is stale, counted and completed with OK. A write-back of a line that is not recorded is a violation of the agent and completes with UNSUPPORTED; the recorded owner's write-back is taken, removes it and completes with OK where the Drey can take it now. Snoop answers and their time-outs (R309, R318, R319, R325). An answer that no snoop of the flow awaits from that port is a protocol error of a Den port and a violation of class C3 of a CXL port; one that is awaited, before its deadline, is applied. A snoop that is due past its deadline counts and is answered as lost; one that is not past it, or not due, is left alone. -/
def Obligations.BrockNoticesAndSnoopAnswers : Prop :=
  (∀ (i : SliceId) (lp : LpId) (f : Frame) (s u : State) (l : Nat), u = bumpC .lookups i.val 0 1 (ctxOf s f) s → l = lineOf (fAddr f) → hchkOk f = true → cmWellFormed f = true → (slOf u i.val).lost.getLsbD lp.val = false →
    (∀ k, f.opcode = 0x11 → dirKey u i.val l = some k → recordsOwner u i.val k lp.val = true → exec (.evictE i lp f) s = .next (settle (pump i.val (sendCmp i.val lp.val f stOK (removeAgent i.val k lp.val (markNoticed i.val lp.val l u))))))
    ∧ (f.opcode = 0x11 → dirKey u i.val l = none → exec (.evictE i lp f) s = .next (settle (pump i.val (sendCmp i.val lp.val f stOK (bump .stale i.val u)))))
    ∧ (∀ k, f.opcode = 0x12 → dirKey u i.val l = some k → (dirAt u i.val k).coarse = false → recordsAgent (dirAt u i.val k) lp.val = true → recordsOwner u i.val k lp.val = false →
        exec (.evictS i lp f) s = .next (settle (pump i.val (sendCmp i.val lp.val f stOK (removeAgent i.val k lp.val (markNoticed i.val lp.val l u))))))
    ∧ (f.opcode = 0x12 → dirKey u i.val l = none → exec (.evictS i lp f) s = .next (settle (pump i.val (sendCmp i.val lp.val f stOK (bump .stale i.val u)))))
    ∧ (f.opcode = 0x10 → dirKey u i.val l = none → exec (.wbM i lp f) s = .next (settle (pump i.val (sendCmp i.val lp.val f stUnsup (agentViolation lp.val (bump .cohViolS i.val u))))))
    ∧ (∀ k v, f.opcode = 0x10 → dirKey u i.val l = some k → recordsOwner u i.val k lp.val = true → takeDirty l (lineFrom f.data) (f.status == stPoison) u = (false, v) →
        exec (.wbM i lp f) s = .next (settle (pump i.val (sendCmp i.val lp.val f stOK (removeAgent i.val k lp.val (markNoticed i.val lp.val l v)))))))
  ∧ (∀ (i : SliceId) (lp : LpId) (s u : State),
    (∀ f : Frame, u = bumpC .lookups i.val 0 1 (ctxOf s f) s → hchkOk f = true → cmWellFormed f = true → f.tag.toNat < 0x800 → dueOf u i.val f.tag.toNat lp.val = none → exec (.snoopAnswer i lp f) s = .next (settle (pump i.val (if isCxl u lp.val = true then violation lp.val 3 u else protoError lp.val u))))
    ∧ (∀ (f : Frame) d, u = bumpC .lookups i.val 0 1 (ctxOf s f) s → hchkOk f = true → cmWellFormed f = true → f.tag.toNat < 0x800 → dueOf u i.val f.tag.toNat lp.val = some d → now u < d.deadline →
        exec (.snoopAnswer i lp f) s = .next (settle (pump i.val (pump i.val (applyAnswer i.val f.tag.toNat lp.val f.opcode.toNat f.data (f.status == stPoison) u)))))
    ∧ (∀ (k : Fin 2048) d, dueOf s i.val k.val lp.val = some d → d.deadline < now s → exec (.snoopTimeout i lp k) s = .next (settle (pump i.val (pump i.val (applyAnswer i.val k.val lp.val 0x96 [] false (countTimeout i.val lp.val s))))))
    ∧ (∀ (k : Fin 2048) d, dueOf s i.val k.val lp.val = some d → now s ≤ d.deadline → exec (.snoopTimeout i lp k) s = .next (settle (pump i.val s)))
    ∧ (∀ (k : Fin 2048), dueOf s i.val k.val lp.val = none → exec (.snoopTimeout i lp k) s = .next (settle (pump i.val s))))

/-- Data and completions for the flows of a slice (R309, R316, R331, R355). An unused tracker takes no data; data of a memory read advance the flow of a share that asked for them. The completion of a write of a line that the slice does not hold changes nothing; that of the only line held, with no write-back and no flow waiting, releases it. The end of a lost agent's sweep that is not under way changes nothing; that of the only one, over an empty directory, wakes the flows that wait for a way and lets the agent back. A set that no flow waits for fills nothing, and one that does enters the set cache and makes its flow ready. The Drey's housekeeping (R341, R347, R349, R350, R361, R362). At 3/4 of its dirty quota a controller starts to clean and below 1/2 it stops; at its quota it begins to hold flows, and below 15/16 of it it ends that, counts the time and wakes them. The cleaner of a controller that cleans writes back in the cleaning order, and another does nothing. A patrol scrub that finds nothing only begins a new count of row errors when its period is over; each wrong word that it finds is counted, one that corrects on its row, below the row's limit of 16. It rests on the model's own choices in log entries 7, 29. -/
def Obligations.SliceDataAndDrey : Prop :=
  (∀ (i : SliceId) (s : State),
    (∀ (k : Fin 2048) r, (trkOf s i.val k.val).used = false → exec (.memoryDataReturn i k r) s = .next (settle (pump i.val s)))
    ∧ (∀ (k : Fin 2048) d p, (trkOf s i.val k.val).used = true → (trkOf s i.val k.val).asked = 3 → (trkOf s i.val k.val).fwd = false → (trkOf s i.val k.val).bulk = true →
        exec (.memoryDataReturn i k (.memory d p)) s = .next (settle (pump i.val (pump i.val (advance i.val k.val (modTrk i.val k.val (fun t => { t with data := some d, poison := p, asked := 0 }) s))))))
    ∧ (∀ l : BitVec 46, (slOf s i.val).memHold = [] → exec (.memoryWriteComplete i l) s = .next (settle (pump i.val s)))
    ∧ (∀ l : BitVec 46, (slOf s i.val).memHold = [l.toNat] → (slOf s i.val).wbWait = [] → (slOf s i.val).trks = [] →
        exec (.memoryWriteComplete i l) s = .next (settle (pump i.val (pump i.val (modSl i.val (fun x => { x with wbWait := [] }) (modSl i.val (fun x => { x with memHold := [] }) s))))))
    ∧ (∀ lp : LpId, (slOf s i.val).sweeps = [] → exec (.lostAgentSweepDone i lp) s = .next (settle (pump i.val s)))
    ∧ (∀ lp : LpId, (slOf s i.val).sweeps = [lp.val] → (slOf s i.val).dir = [] →
        exec (.lostAgentSweepDone i lp) s = .next (settle (pump i.val (agentBack lp.val (pump i.val (wake i.val (fun u => u.phase == .waitWay) (modSl i.val (fun x => { x with sweeps := [] }) s)))))))
    ∧ (∀ (v : BitVec 23) ok, (slOf s i.val).misses = [] → exec (.setCacheFill i v ok) s = .next (settle (pump i.val s)))
    ∧ (∀ (v : BitVec 23) k, (slOf s i.val).misses = [(v.toNat, [k])] → (slOf s i.val).trks = [] →
        exec (.setCacheFill i v true) s = .next (settle (pump i.val (pump i.val (makeReady i.val k (cacheSet i.val v.toNat (modSl i.val (fun x => { x with misses := [] }) s))))))))
  ∧ (∀ (k : Fin 4) (s : State), memoryRuns s = true →
    (quota s * 3 ≤ dirtyCount s k.val * 4 → dirtyCount s k.val < quota s → (dreyOf s k.val).capHold = false → exec (.dirtyCapHold k) s = .next (settle (modDrey k.val (fun d => { d with cleaning := true }) s)))
    ∧ (dirtyCount s k.val * 2 < quota s → (dreyOf s k.val).capHold = false → exec (.dirtyCapHold k) s = .next (settle (modDrey k.val (fun d => { d with cleaning := false }) s)) ∧ exec (.dreyCleaner k) s = .next (settle (modDrey k.val (fun d => { d with cleaning := false }) s)))
    ∧ (quota s ≤ dirtyCount s k.val → 0 < quota s → (dreyOf s k.val).capHold = false → exec (.dirtyCapHold k) s = .next (settle (modDrey k.val (fun d => { d with capHold := true, capSince := now s }) (modDrey k.val (fun d => { d with cleaning := true }) s))))
    ∧ (quota s ≤ dirtyCount s k.val * 2 → dirtyCount s k.val * 4 < quota s * 3 → (dreyOf s k.val).capHold = true → exec (.dirtyCapHold k) s = .next (settle (wakeStack k.val (fun t => t.phase == .waitCap) (bumpC .capTime k.val 0 (now s - (dreyOf s k.val).capSince) {} (modDrey k.val (fun d => { d with capHold := false }) s)))))
    ∧ (∀ u, u = capUpdate k.val s → (dreyOf u k.val).cleaning = true → exec (.dreyCleaner k) s = .next (settle (capRelease k.val (capUpdate k.val (cleanWays k.val (cleanOrder (dreyOf u k.val)) u)))))
    ∧ (now s < (dreyOf s k.val).periodStart + s.scrubHours * 3600000000000 → exec (.patrolScrub k []) s = .next (settle s))
    ∧ ((dreyOf s k.val).periodStart + s.scrubHours * 3600000000000 ≤ now s → exec (.patrolScrub k []) s = .next (settle (modDrey k.val (fun d => { d with rowErrs := [], periodStart := now s }) s)))
    ∧ (∀ e, now s < (dreyOf s k.val).periodStart + s.scrubHours * 3600000000000 → exec (.patrolScrub k [e]) s = .next (settle (wordError k.val e s)))
    ∧ (∀ (e : WordError) r, corrects e.symbols = true → r = (e.pc * 256 + e.bank) * 2 ^ 32 + e.row → tget (dreyOf s k.val).rowErrs r + 1 < 16 →
        wordError k.val e s = modDrey k.val (fun d => { d with rowErrs := tmod d.rowErrs r (· + 1) }) (bump .corrected k.val s)))
end

