-- ==== Sys2Proof/Laws/Command.lean ====
section
/-! SUPPORT. What a Ubind command does: an admitted one carries out its effect, a refused one only completes. -/

namespace Sys2Proof.Machine

/-- An admitted command is carried out in the counted state, and its answer starts or completes it. -/
theorem runCmd_admitted (c : CmdSpec) (q : Req) (p : Bytes) (s : State) (h : Admitted c q p s) :
    runCmd c q p s = launch (runningOf c q p s (executeCmd c { q := q } p (counted q s)).1) (executeCmd c { q := q } p (counted q s)).2 := by
  obtain ⟨h1, h2, h3, h4, h5⟩ := h
  have h6 : (c.op == 0x0103 && pfailHeld s) = false := by
    by_cases h : c.op = 0x0103
    · simp [h5 h]
    · simp [h]
  simp [runCmd, h1, h2, h3, h4, h6, counted, runningOf]

/-- A command whose execution answers `o` in the state `t` answers so. -/
theorem answers_of_execute {i : Instr} {c : CmdSpec} {q : Req} {p : Bytes} {s t : State} {o : CmdOut}
    (hx : exec i s = finishStep (runCmd c q p s)) (ha : Admitted c q p s) (hr : executeCmd c { q := q } p (counted q s) = (o, t)) :
    Answers i c q p s o t := by
  rw [Answers, hx, runCmd_admitted c q p s ha, hr]; rfl

/-- A command that runs to OK leaves the state of its run. -/
theorem executeCmd_ok {c : CmdSpec} {x : CmdCtx} {p : Bytes} {s t : State} {o : CmdOut} (hr : c.run x p s = (o, t)) (ho : o.status = .ok) :
    executeCmd c x p s = (o, t) := by
  simp [executeCmd, hr, ho]

/-- A command that runs to a status which leaves an effect leaves the state of its run (R515). -/
theorem executeCmd_kept {c : CmdSpec} {x : CmdCtx} {p : Bytes} {s t : State} {o : CmdOut} (hr : c.run x p s = (o, t)) (ho : c.keeps o.status = true) :
    executeCmd c x p s = (o, t) := by
  simp [executeCmd, hr, ho]

/-- A command that runs to any other status leaves no effect (R514). -/
theorem executeCmd_none {c : CmdSpec} {x : CmdCtx} {p : Bytes} {s t : State} {o : CmdOut} (hr : c.run x p s = (o, t))
    (h1 : (o.status == .ok) = false) (h2 : (o.status == .partialDone) = false) (h3 : c.keeps o.status = false) : executeCmd c x p s = (o, s) := by
  simp [executeCmd, hr, h1, h2, h3]

/-- A command that fails a check of R513 completes with the check's status, and is counted against its origin's rate or, when that check failed, as refused. -/
theorem runCmd_refused (c : CmdSpec) (q : Req) (p : Bytes) (s : State) (st : Status) (d : Nat) (h : Handle) (h1 : commandsRun s = true)
    (h3 : (c.op == 0x0103 && pfailHeld s) = false) (h2 : checkCmd c q p s = some (st, d, h)) :
    runCmd c q p s = refuseCmd c.op q st d h (if st = .busy then bump .rateRef (Route.cls q.route) s else countRate q.route s) := by
  simp [runCmd, h1, h2, h3]

/-- Where commands do not run, none has any effect. -/
theorem runCmd_stopped (c : CmdSpec) (q : Req) (p : Bytes) (s : State) (h : commandsRun s = false) : runCmd c q p s = s := by
  simp [runCmd, h]

/-- While commands run the device is not in Hibernate. -/
theorem notInHibernate_runs (op : Nat) (may : Bool) (q : Req) (go : State → State) (s : State) (h : commandsRun s = true) : notInHibernate op may q go s = go s := by
  have : (s.dev.st == DevState.hibernate) = false := by
    simp only [commandsRun, Bool.and_eq_true, bne] at h
    obtain ⟨⟨⟨⟨-, h⟩, -⟩, -⟩, -⟩ := h
    simpa using h
  simp [notInHibernate, this]

end Sys2Proof.Machine
end

