-- ==== Sys2Proof/Laws/Table.lean ====
section
/-! SUPPORT. Sparse tables and cell memories: read after write, and the canonical form. -/

namespace Sys2Proof.Machine

theorem tget_filter_ne {α : Type} [Inhabited α] (t : Tab α) (k j : Nat) (h : j ≠ k) :
    tget (t.filter (fun e => decide (e.1 ≠ k))) j = tget t j := by
  induction t with
  | nil => rfl
  | cons e r ih =>
    obtain ⟨k', v'⟩ := e
    by_cases hk : k' = k
    · subst hk; simpa [tget, Ne.symm h] using ih
    · simp only [ne_eq, List.filter_cons, hk, not_false_eq_true, decide_true, if_true, tget]
      split
      · rfl
      · exact ih

theorem tget_filter_self {α : Type} [Inhabited α] (t : Tab α) (k : Nat) :
    tget (t.filter (fun e => decide (e.1 ≠ k))) k = default := by
  induction t with
  | nil => rfl
  | cons e r ih =>
    obtain ⟨k', v'⟩ := e
    by_cases hk : k' = k
    · subst hk; simpa [List.filter_cons] using ih
    · simpa [List.filter_cons, hk, tget] using ih

/-- A table reads what was last written to a key. -/
@[simp] theorem tget_tset_self {α : Type} [Inhabited α] [DecidableEq α] (t : Tab α) (k : Nat) (v : α) :
    tget (tset t k v) k = v := by
  induction t with
  | nil => by_cases h : v = default <;> simp [tset, tget, h]
  | cons e r ih =>
    obtain ⟨k', v'⟩ := e
    unfold tset
    split
    · rename_i h
      split
      · rename_i hd; subst hd
        have : k' ≠ k := by omega
        simpa [tget, this] using tget_filter_self r k
      · simp [tget]
    · split
      · split
        · rename_i hd; subst hd; exact tget_filter_self r k
        · simp [tget]
      · rename_i h1 h2
        have : k' ≠ k := fun e => h2 e.symm
        simpa [tget, this] using ih

/-- A write to one key leaves every other key alone. -/
theorem tget_tset_ne {α : Type} [Inhabited α] [DecidableEq α] (t : Tab α) (k j : Nat) (v : α) (h : j ≠ k) :
    tget (tset t k v) j = tget t j := by
  induction t with
  | nil => by_cases hv : v = default <;> simp [tset, tget, hv, Ne.symm h]
  | cons e r ih =>
    obtain ⟨k', v'⟩ := e
    unfold tset
    split
    · split
      · simp only [tget]; split
        · rfl
        · exact tget_filter_ne r k j h
      · simp [tget, Ne.symm h]
    · split
      · rename_i hk; subst hk
        split
        · rw [tget_filter_ne r _ j h]; simp [tget, Ne.symm h]
        · simp [tget, Ne.symm h]
      · simp only [tget]; split
        · rfl
        · exact ih

theorem tget_tset {α : Type} [Inhabited α] [DecidableEq α] (t : Tab α) (k j : Nat) (v : α) :
    tget (tset t k v) j = if j = k then v else tget t j := by
  split
  · rename_i h; subst h; simp
  · rename_i h; exact tget_tset_ne t k j v h

@[simp] theorem tget_tmod_self {α : Type} [Inhabited α] [DecidableEq α] (t : Tab α) (k : Nat) (f : α → α) :
    tget (tmod t k f) k = f (tget t k) := by simp [tmod]

theorem tget_tmod_ne {α : Type} [Inhabited α] [DecidableEq α] (t : Tab α) (k j : Nat) (f : α → α) (h : j ≠ k) :
    tget (tmod t k f) j = tget t j := by simp [tmod, tget_tset_ne, h]

theorem keysRise_none_of_some {α : Type} (b : Nat) (t : List (Nat × α)) (h : keysRise (some b) t = true) : keysRise none t = true := by
  cases t with
  | nil => rfl
  | cons e r => obtain ⟨k, v⟩ := e; simp [keysRise] at h ⊢; exact h.2

/-- A list whose keys rise above a bound also rises above a smaller one. -/
theorem keysRise_le {α : Type} (b c : Nat) (t : List (Nat × α)) (hbc : c ≤ b) (h : keysRise (some b) t = true) : keysRise (some c) t = true := by
  cases t with
  | nil => rfl
  | cons e r => obtain ⟨k, v⟩ := e; simp [keysRise] at h ⊢; exact ⟨by omega, h.2⟩

/-- Above a bound no key is that bound. -/
theorem keysRise_filter {α : Type} (b k : Nat) (t : List (Nat × α)) (hk : k ≤ b) (h : keysRise (some b) t = true) :
    t.filter (fun e => decide (e.1 ≠ k)) = t := by
  induction t generalizing b with
  | nil => rfl
  | cons e r ih =>
    obtain ⟨k', v⟩ := e
    simp [keysRise] at h
    have hne : k' ≠ k := by omega
    rw [List.filter_cons]
    simp only [ne_eq, hne, not_false_eq_true, decide_true, if_true]
    rw [ih k' (by omega) h.2]

theorem memGet_filter_ne (m : List Host.Cell) (a j : Nat) (h : j ≠ a) : memGet (m.filter (fun e => decide (e.1 ≠ a))) j = memGet m j := by
  induction m with
  | nil => rfl
  | cons e r ih =>
    obtain ⟨a', b'⟩ := e
    by_cases ha : a' = a
    · subst ha; simpa [memGet, Ne.symm h] using ih
    · simp only [ne_eq, List.filter_cons, ha, not_false_eq_true, decide_true, if_true, memGet]
      split
      · rfl
      · exact ih

theorem memGet_filter_self (m : List Host.Cell) (a : Nat) : memGet (m.filter (fun e => decide (e.1 ≠ a))) a = 0 := by
  induction m with
  | nil => rfl
  | cons e r ih =>
    obtain ⟨a', b'⟩ := e
    by_cases ha : a' = a
    · subst ha; simpa [List.filter_cons] using ih
    · simpa [List.filter_cons, ha, memGet] using ih

/-- A byte reads what was last written to it. -/
@[simp] theorem memGet_memPut_self (m : List Host.Cell) (a : Nat) (b : Byte) : memGet (memPut m a b) a = b := by
  induction m with
  | nil => unfold memPut; split <;> simp_all [memGet]
  | cons e r ih =>
    obtain ⟨a', b'⟩ := e
    unfold memPut
    split
    · split
      · rename_i hd; subst hd
        have : a' ≠ a := by omega
        simpa [memGet, this] using memGet_filter_self r a
      · simp [memGet]
    · split
      · split
        · rename_i hd; subst hd; exact memGet_filter_self r a
        · simp [memGet]
      · rename_i h1 h2
        have : a' ≠ a := fun e => h2 e.symm
        simpa [memGet, this] using ih

/-- A write of one byte leaves every other byte alone. -/
theorem memGet_memPut_ne (m : List Host.Cell) (a j : Nat) (b : Byte) (h : j ≠ a) : memGet (memPut m a b) j = memGet m j := by
  induction m with
  | nil => unfold memPut; split <;> simp [memGet, Ne.symm h]
  | cons e r ih =>
    obtain ⟨a', b'⟩ := e
    unfold memPut
    split
    · split
      · simp only [memGet]; split
        · rfl
        · exact memGet_filter_ne r a j h
      · simp [memGet, Ne.symm h]
    · split
      · rename_i hk; subst hk
        split
        · rw [memGet_filter_ne r _ j h]; simp [memGet, Ne.symm h]
        · simp [memGet, Ne.symm h]
      · simp only [memGet]; split
        · rfl
        · exact ih

/-- The filter that a write of 0 uses leaves a rising list rising. -/
theorem keysRise_memPut (m : List Host.Cell) (a : Nat) (b : Byte) (c : Option Nat) (h : keysRise c m = true) (hc : ∀ x, c = some x → x < a) :
    keysRise c (memPut m a b) = true := by
  induction m generalizing c with
  | nil =>
    unfold memPut; split
    · cases c <;> rfl
    · cases c with
      | none => rfl
      | some x => simp [keysRise, hc x rfl]
  | cons e r ih =>
    obtain ⟨a', b'⟩ := e
    have hr : keysRise (some a') r = true := by cases c <;> simp [keysRise] at h <;> first | exact h | exact h.2
    unfold memPut
    split
    · rename_i hlt
      split
      · rw [keysRise_filter a' a r (by omega) hr]; exact h
      · cases c with
        | none => simp [keysRise, hlt, hr]
        | some x => simp [keysRise, hc x rfl, hlt, hr]
    · split
      · rename_i hk; subst hk
        split
        · rw [keysRise_filter a a r (by omega) hr]
          cases c with
          | none => exact keysRise_none_of_some a r hr
          | some x => exact keysRise_le a x r (by have := hc x rfl; omega) hr
        · cases c with
          | none => simp [keysRise, hr]
          | some x => simp [keysRise, hr, hc x rfl]
      · have := ih (some a') hr (by intro x hx; cases hx; omega)
        cases c with
        | none => simpa [keysRise] using this
        | some x => simp [keysRise] at h ⊢; exact ⟨h.1, this⟩

theorem all_memPut (m : List Host.Cell) (a : Nat) (b : Byte) (h : m.all (fun e => decide (e.2 ≠ 0)) = true) :
    (memPut m a b).all (fun e => decide (e.2 ≠ 0)) = true := by
  induction m with
  | nil => unfold memPut; split <;> simp_all
  | cons e r ih =>
    obtain ⟨a', b'⟩ := e
    simp only [List.all_cons, Bool.and_eq_true] at h
    unfold memPut
    split
    · split
      · simp only [List.all_cons, Bool.and_eq_true]
        refine ⟨h.1, ?_⟩
        rw [List.all_filter]; apply List.all_eq_true.2; intro x hx
        have := List.all_eq_true.1 h.2 x hx; simp_all
      · rename_i hb; simp only [List.all_cons, Bool.and_eq_true]; exact ⟨by simpa using hb, h.1, h.2⟩
    · split
      · split
        · rw [List.all_filter]; apply List.all_eq_true.2; intro x hx
          have := List.all_eq_true.1 h.2 x hx; simp_all
        · rename_i hb; simp only [List.all_cons, Bool.and_eq_true]; exact ⟨by simpa using hb, h.2⟩
      · simp only [List.all_cons, Bool.and_eq_true]; exact ⟨h.1, ih h.2⟩

/-- Writing one byte keeps a memory's canonical form. -/
theorem memPut_wf (m : List Host.Cell) (a : Nat) (b : Byte) (h : Memory.wf m = true) : Memory.wf (memPut m a b) = true := by
  simp only [Memory.wf, Bool.and_eq_true] at h ⊢
  exact ⟨keysRise_memPut m a b none h.1 (by intro x hx; cases hx), all_memPut m a b h.2⟩

/-- Writing a run of bytes keeps a memory's canonical form. -/
theorem memWrite_wf (m : List Host.Cell) (a : Nat) (p : Bytes) (h : Memory.wf m = true) : Memory.wf (memWrite m a p) = true := by
  induction p generalizing m a with
  | nil => exact h
  | cons b r ih => exact ih _ _ (memPut_wf m a b h)

end Sys2Proof.Machine
end

