-- ==== Sys2Proof/Laws/State.lean ====
section
/-! SUPPORT. What each record update leaves alone, and what it writes, so that no proof unfolds one. -/

namespace Sys2Proof.Machine

/-- `modNet` leaves the rest of the state alone. -/
@[simp] theorem modNet_frame (g : NetSt → NetSt) (s : State) :
    (modNet g s).pending = s.pending ∧ (modNet g s).dev = s.dev ∧ (modNet g s).ft = s.ft ∧ (modNet g s).io = s.io ∧ (modNet g s).hoard = s.hoard ∧ (modNet g s).dur = s.dur
    ∧ (modNet g s).hib = s.hib ∧ (modNet g s).journal = s.journal ∧ (modNet g s).log = s.log ∧ (modNet g s).errs = s.errs ∧ (modNet g s).sic = s.sic ∧ (modNet g s).ctr = s.ctr
    ∧ (modNet g s).hb = s.hb ∧ (modNet g s).grave = s.grave ∧ (modNet g s).mbx = s.mbx ∧ (modNet g s).i3c = s.i3c ∧ (modNet g s).cmd = s.cmd ∧ (modNet g s).sec = s.sec
    ∧ (modNet g s).fuses = s.fuses ∧ (modNet g s).ledger = s.ledger ∧ (modNet g s).start = s.start ∧ (modNet g s).disc = s.disc ∧ (modNet g s).sw = s.sw ∧ (modNet g s).tm = s.tm
    ∧ (modNet g s).slices = s.slices ∧ (modNet g s).coh = s.coh ∧ (modNet g s).drey = s.drey ∧ (modNet g s).scrubHours = s.scrubHours ∧ (modNet g s).ten = s.ten ∧ (modNet g s).pwr = s.pwr
    ∧ (modNet g s).cages = s.cages ∧ (modNet g s).therm = s.therm ∧ (modNet g s).pins = s.pins ∧ (modNet g s).free = s.free ∧ (modNet g s).outbox = s.outbox ∧ now (modNet g s) = now s
    ∧ ftCount (modNet g s) = ftCount s ∧ (∀ m, egressOf (modNet g s) m = egressOf s m) ∧ (∀ m, bindOf (modNet g s) m = bindOf s m) ∧ (∀ m, tgOf (modNet g s) m = tgOf s m) ∧ (∀ m, slOf (modNet g s) m = slOf s m) ∧ (∀ m, dreyOf (modNet g s) m = dreyOf s m)
    ∧ (∀ m, cageOf (modNet g s) m = cageOf s m) ∧ (∀ m, domOf (modNet g s) m = domOf s m) ∧ (∀ m, clkOf (modNet g s) m = clkOf s m) ∧ (∀ m, kOf (modNet g s) m = kOf s m) ∧ (∀ m, routeEntry (modNet g s) m = routeEntry s m) :=
  ⟨rfl, rfl, rfl, rfl, rfl, rfl, rfl, rfl, rfl, rfl, rfl, rfl, rfl, rfl, rfl, rfl, rfl, rfl, rfl, rfl, rfl, rfl, rfl, rfl, rfl, rfl, rfl, rfl, rfl, rfl, rfl, rfl, rfl, rfl, rfl, rfl, rfl, fun _ => rfl, fun _ => rfl, fun _ => rfl, fun _ => rfl, fun _ => rfl, fun _ => rfl, fun _ => rfl, fun _ => rfl, fun _ => rfl, fun _ => rfl⟩
@[simp] theorem modNet_net (g : NetSt → NetSt) (s : State) : (modNet g s).net = g s.net := rfl

/-- `modSw` leaves the rest of the state alone. -/
@[simp] theorem modSw_frame (g : SwSt → SwSt) (s : State) :
    (modSw g s).pending = s.pending ∧ (modSw g s).dev = s.dev ∧ (modSw g s).ft = s.ft ∧ (modSw g s).io = s.io ∧ (modSw g s).hoard = s.hoard ∧ (modSw g s).dur = s.dur
    ∧ (modSw g s).hib = s.hib ∧ (modSw g s).journal = s.journal ∧ (modSw g s).log = s.log ∧ (modSw g s).errs = s.errs ∧ (modSw g s).sic = s.sic ∧ (modSw g s).ctr = s.ctr
    ∧ (modSw g s).hb = s.hb ∧ (modSw g s).grave = s.grave ∧ (modSw g s).mbx = s.mbx ∧ (modSw g s).i3c = s.i3c ∧ (modSw g s).cmd = s.cmd ∧ (modSw g s).sec = s.sec
    ∧ (modSw g s).fuses = s.fuses ∧ (modSw g s).ledger = s.ledger ∧ (modSw g s).start = s.start ∧ (modSw g s).disc = s.disc ∧ (modSw g s).net = s.net ∧ (modSw g s).tm = s.tm
    ∧ (modSw g s).slices = s.slices ∧ (modSw g s).coh = s.coh ∧ (modSw g s).drey = s.drey ∧ (modSw g s).scrubHours = s.scrubHours ∧ (modSw g s).ten = s.ten ∧ (modSw g s).pwr = s.pwr
    ∧ (modSw g s).cages = s.cages ∧ (modSw g s).therm = s.therm ∧ (modSw g s).pins = s.pins ∧ (modSw g s).free = s.free ∧ (modSw g s).outbox = s.outbox ∧ now (modSw g s) = now s
    ∧ ftCount (modSw g s) = ftCount s ∧ (∀ m, lpOf (modSw g s) m = lpOf s m) ∧ (∀ m, cfgOf (modSw g s) m = cfgOf s m) ∧ (∀ m, portOf (modSw g s) m = portOf s m) ∧ (∀ m, txOf (modSw g s) m = txOf s m) ∧ (∀ m, rxOf (modSw g s) m = rxOf s m)
    ∧ (∀ m, initOf (modSw g s) m = initOf s m) ∧ (∀ m, failOf (modSw g s) m = failOf s m) ∧ (∀ m, cxlOf (modSw g s) m = cxlOf s m) ∧ (∀ m, winOf (modSw g s) m = winOf s m) ∧ (∀ m, bindOf (modSw g s) m = bindOf s m) ∧ (∀ m, tgOf (modSw g s) m = tgOf s m)
    ∧ (∀ m, slOf (modSw g s) m = slOf s m) ∧ (∀ m, dreyOf (modSw g s) m = dreyOf s m) ∧ (∀ m, cageOf (modSw g s) m = cageOf s m) ∧ (∀ m, domOf (modSw g s) m = domOf s m) ∧ (∀ m, clkOf (modSw g s) m = clkOf s m) ∧ (∀ m, kOf (modSw g s) m = kOf s m)
    ∧ (∀ m, linkLive (modSw g s) m = linkLive s m) ∧ (∀ m, lpUp (modSw g s) m = lpUp s m) ∧ (∀ m, isDen (modSw g s) m = isDen s m) ∧ (∀ m, isCxl (modSw g s) m = isCxl s m) ∧ (∀ m, isHost (modSw g s) m = isHost s m) :=
  ⟨rfl, rfl, rfl, rfl, rfl, rfl, rfl, rfl, rfl, rfl, rfl, rfl, rfl, rfl, rfl, rfl, rfl, rfl, rfl, rfl, rfl, rfl, rfl, rfl, rfl, rfl, rfl, rfl, rfl, rfl, rfl, rfl, rfl, rfl, rfl, rfl, rfl, fun _ => rfl, fun _ => rfl, fun _ => rfl, fun _ => rfl, fun _ => rfl, fun _ => rfl, fun _ => rfl, fun _ => rfl, fun _ => rfl, fun _ => rfl, fun _ => rfl, fun _ => rfl, fun _ => rfl, fun _ => rfl, fun _ => rfl, fun _ => rfl, fun _ => rfl, fun _ => rfl, fun _ => rfl, fun _ => rfl, fun _ => rfl, fun _ => rfl⟩
@[simp] theorem modSw_sw (g : SwSt → SwSt) (s : State) : (modSw g s).sw = g s.sw := rfl

/-- `modTen` leaves the rest of the state alone. -/
@[simp] theorem modTen_frame (g : TenSt → TenSt) (s : State) :
    (modTen g s).pending = s.pending ∧ (modTen g s).dev = s.dev ∧ (modTen g s).ft = s.ft ∧ (modTen g s).io = s.io ∧ (modTen g s).hoard = s.hoard ∧ (modTen g s).dur = s.dur
    ∧ (modTen g s).hib = s.hib ∧ (modTen g s).journal = s.journal ∧ (modTen g s).log = s.log ∧ (modTen g s).errs = s.errs ∧ (modTen g s).sic = s.sic ∧ (modTen g s).ctr = s.ctr
    ∧ (modTen g s).hb = s.hb ∧ (modTen g s).grave = s.grave ∧ (modTen g s).mbx = s.mbx ∧ (modTen g s).i3c = s.i3c ∧ (modTen g s).cmd = s.cmd ∧ (modTen g s).sec = s.sec
    ∧ (modTen g s).fuses = s.fuses ∧ (modTen g s).ledger = s.ledger ∧ (modTen g s).start = s.start ∧ (modTen g s).disc = s.disc ∧ (modTen g s).net = s.net ∧ (modTen g s).sw = s.sw
    ∧ (modTen g s).tm = s.tm ∧ (modTen g s).slices = s.slices ∧ (modTen g s).coh = s.coh ∧ (modTen g s).drey = s.drey ∧ (modTen g s).scrubHours = s.scrubHours ∧ (modTen g s).pwr = s.pwr
    ∧ (modTen g s).cages = s.cages ∧ (modTen g s).therm = s.therm ∧ (modTen g s).pins = s.pins ∧ (modTen g s).free = s.free ∧ (modTen g s).outbox = s.outbox ∧ now (modTen g s) = now s
    ∧ ftCount (modTen g s) = ftCount s ∧ (∀ m, lpOf (modTen g s) m = lpOf s m) ∧ (∀ m, cfgOf (modTen g s) m = cfgOf s m) ∧ (∀ m, portOf (modTen g s) m = portOf s m) ∧ (∀ m, txOf (modTen g s) m = txOf s m) ∧ (∀ m, rxOf (modTen g s) m = rxOf s m)
    ∧ (∀ m, initOf (modTen g s) m = initOf s m) ∧ (∀ m, failOf (modTen g s) m = failOf s m) ∧ (∀ m, cxlOf (modTen g s) m = cxlOf s m) ∧ (∀ m, winOf (modTen g s) m = winOf s m) ∧ (∀ m, egressOf (modTen g s) m = egressOf s m) ∧ (∀ m, tgOf (modTen g s) m = tgOf s m)
    ∧ (∀ m, slOf (modTen g s) m = slOf s m) ∧ (∀ m, dreyOf (modTen g s) m = dreyOf s m) ∧ (∀ m, cageOf (modTen g s) m = cageOf s m) ∧ (∀ m, domOf (modTen g s) m = domOf s m) ∧ (∀ m, clkOf (modTen g s) m = clkOf s m) ∧ (∀ m, kOf (modTen g s) m = kOf s m)
    ∧ (∀ m, linkLive (modTen g s) m = linkLive s m) ∧ (∀ m, lpUp (modTen g s) m = lpUp s m) ∧ (∀ m, isDen (modTen g s) m = isDen s m) ∧ (∀ m, isCxl (modTen g s) m = isCxl s m) ∧ (∀ m, isHost (modTen g s) m = isHost s m) ∧ (∀ m, routeEntry (modTen g s) m = routeEntry s m) :=
  ⟨rfl, rfl, rfl, rfl, rfl, rfl, rfl, rfl, rfl, rfl, rfl, rfl, rfl, rfl, rfl, rfl, rfl, rfl, rfl, rfl, rfl, rfl, rfl, rfl, rfl, rfl, rfl, rfl, rfl, rfl, rfl, rfl, rfl, rfl, rfl, rfl, rfl, fun _ => rfl, fun _ => rfl, fun _ => rfl, fun _ => rfl, fun _ => rfl, fun _ => rfl, fun _ => rfl, fun _ => rfl, fun _ => rfl, fun _ => rfl, fun _ => rfl, fun _ => rfl, fun _ => rfl, fun _ => rfl, fun _ => rfl, fun _ => rfl, fun _ => rfl, fun _ => rfl, fun _ => rfl, fun _ => rfl, fun _ => rfl, fun _ => rfl, fun _ => rfl⟩
@[simp] theorem modTen_ten (g : TenSt → TenSt) (s : State) : (modTen g s).ten = g s.ten := rfl

/-- `modTm` leaves the rest of the state alone. -/
@[simp] theorem modTm_frame (g : TmSt → TmSt) (s : State) :
    (modTm g s).pending = s.pending ∧ (modTm g s).dev = s.dev ∧ (modTm g s).ft = s.ft ∧ (modTm g s).io = s.io ∧ (modTm g s).hoard = s.hoard ∧ (modTm g s).dur = s.dur
    ∧ (modTm g s).hib = s.hib ∧ (modTm g s).journal = s.journal ∧ (modTm g s).log = s.log ∧ (modTm g s).errs = s.errs ∧ (modTm g s).sic = s.sic ∧ (modTm g s).ctr = s.ctr
    ∧ (modTm g s).hb = s.hb ∧ (modTm g s).grave = s.grave ∧ (modTm g s).mbx = s.mbx ∧ (modTm g s).i3c = s.i3c ∧ (modTm g s).cmd = s.cmd ∧ (modTm g s).sec = s.sec
    ∧ (modTm g s).fuses = s.fuses ∧ (modTm g s).ledger = s.ledger ∧ (modTm g s).start = s.start ∧ (modTm g s).disc = s.disc ∧ (modTm g s).net = s.net ∧ (modTm g s).sw = s.sw
    ∧ (modTm g s).slices = s.slices ∧ (modTm g s).coh = s.coh ∧ (modTm g s).drey = s.drey ∧ (modTm g s).scrubHours = s.scrubHours ∧ (modTm g s).ten = s.ten ∧ (modTm g s).pwr = s.pwr
    ∧ (modTm g s).cages = s.cages ∧ (modTm g s).therm = s.therm ∧ (modTm g s).pins = s.pins ∧ (modTm g s).free = s.free ∧ (modTm g s).outbox = s.outbox ∧ now (modTm g s) = now s
    ∧ ftCount (modTm g s) = ftCount s ∧ (∀ m, lpOf (modTm g s) m = lpOf s m) ∧ (∀ m, cfgOf (modTm g s) m = cfgOf s m) ∧ (∀ m, portOf (modTm g s) m = portOf s m) ∧ (∀ m, txOf (modTm g s) m = txOf s m) ∧ (∀ m, rxOf (modTm g s) m = rxOf s m)
    ∧ (∀ m, initOf (modTm g s) m = initOf s m) ∧ (∀ m, failOf (modTm g s) m = failOf s m) ∧ (∀ m, cxlOf (modTm g s) m = cxlOf s m) ∧ (∀ m, winOf (modTm g s) m = winOf s m) ∧ (∀ m, egressOf (modTm g s) m = egressOf s m) ∧ (∀ m, bindOf (modTm g s) m = bindOf s m)
    ∧ (∀ m, slOf (modTm g s) m = slOf s m) ∧ (∀ m, dreyOf (modTm g s) m = dreyOf s m) ∧ (∀ m, cageOf (modTm g s) m = cageOf s m) ∧ (∀ m, domOf (modTm g s) m = domOf s m) ∧ (∀ m, clkOf (modTm g s) m = clkOf s m) ∧ (∀ m, kOf (modTm g s) m = kOf s m)
    ∧ (∀ m, linkLive (modTm g s) m = linkLive s m) ∧ (∀ m, lpUp (modTm g s) m = lpUp s m) ∧ (∀ m, isDen (modTm g s) m = isDen s m) ∧ (∀ m, isCxl (modTm g s) m = isCxl s m) ∧ (∀ m, isHost (modTm g s) m = isHost s m) ∧ (∀ m, routeEntry (modTm g s) m = routeEntry s m) :=
  ⟨rfl, rfl, rfl, rfl, rfl, rfl, rfl, rfl, rfl, rfl, rfl, rfl, rfl, rfl, rfl, rfl, rfl, rfl, rfl, rfl, rfl, rfl, rfl, rfl, rfl, rfl, rfl, rfl, rfl, rfl, rfl, rfl, rfl, rfl, rfl, rfl, rfl, fun _ => rfl, fun _ => rfl, fun _ => rfl, fun _ => rfl, fun _ => rfl, fun _ => rfl, fun _ => rfl, fun _ => rfl, fun _ => rfl, fun _ => rfl, fun _ => rfl, fun _ => rfl, fun _ => rfl, fun _ => rfl, fun _ => rfl, fun _ => rfl, fun _ => rfl, fun _ => rfl, fun _ => rfl, fun _ => rfl, fun _ => rfl, fun _ => rfl, fun _ => rfl⟩
@[simp] theorem modTm_tm (g : TmSt → TmSt) (s : State) : (modTm g s).tm = g s.tm := rfl

/-- `modDev` leaves the rest of the state alone. -/
@[simp] theorem modDev_frame (g : DevSt → DevSt) (s : State) :
    (modDev g s).pending = s.pending ∧ (modDev g s).ft = s.ft ∧ (modDev g s).io = s.io ∧ (modDev g s).hoard = s.hoard ∧ (modDev g s).dur = s.dur ∧ (modDev g s).hib = s.hib
    ∧ (modDev g s).journal = s.journal ∧ (modDev g s).log = s.log ∧ (modDev g s).errs = s.errs ∧ (modDev g s).sic = s.sic ∧ (modDev g s).ctr = s.ctr ∧ (modDev g s).hb = s.hb
    ∧ (modDev g s).grave = s.grave ∧ (modDev g s).mbx = s.mbx ∧ (modDev g s).i3c = s.i3c ∧ (modDev g s).cmd = s.cmd ∧ (modDev g s).sec = s.sec ∧ (modDev g s).fuses = s.fuses
    ∧ (modDev g s).ledger = s.ledger ∧ (modDev g s).start = s.start ∧ (modDev g s).disc = s.disc ∧ (modDev g s).net = s.net ∧ (modDev g s).sw = s.sw ∧ (modDev g s).tm = s.tm
    ∧ (modDev g s).slices = s.slices ∧ (modDev g s).coh = s.coh ∧ (modDev g s).drey = s.drey ∧ (modDev g s).scrubHours = s.scrubHours ∧ (modDev g s).ten = s.ten ∧ (modDev g s).pwr = s.pwr
    ∧ (modDev g s).cages = s.cages ∧ (modDev g s).therm = s.therm ∧ (modDev g s).pins = s.pins ∧ (modDev g s).free = s.free ∧ (modDev g s).outbox = s.outbox ∧ now (modDev g s) = now s
    ∧ ftCount (modDev g s) = ftCount s ∧ (∀ m, lpOf (modDev g s) m = lpOf s m) ∧ (∀ m, cfgOf (modDev g s) m = cfgOf s m) ∧ (∀ m, portOf (modDev g s) m = portOf s m) ∧ (∀ m, txOf (modDev g s) m = txOf s m) ∧ (∀ m, rxOf (modDev g s) m = rxOf s m)
    ∧ (∀ m, initOf (modDev g s) m = initOf s m) ∧ (∀ m, failOf (modDev g s) m = failOf s m) ∧ (∀ m, cxlOf (modDev g s) m = cxlOf s m) ∧ (∀ m, winOf (modDev g s) m = winOf s m) ∧ (∀ m, egressOf (modDev g s) m = egressOf s m) ∧ (∀ m, bindOf (modDev g s) m = bindOf s m)
    ∧ (∀ m, tgOf (modDev g s) m = tgOf s m) ∧ (∀ m, slOf (modDev g s) m = slOf s m) ∧ (∀ m, dreyOf (modDev g s) m = dreyOf s m) ∧ (∀ m, cageOf (modDev g s) m = cageOf s m) ∧ (∀ m, domOf (modDev g s) m = domOf s m) ∧ (∀ m, clkOf (modDev g s) m = clkOf s m)
    ∧ (∀ m, kOf (modDev g s) m = kOf s m) ∧ (∀ m, linkLive (modDev g s) m = linkLive s m) ∧ (∀ m, lpUp (modDev g s) m = lpUp s m) ∧ (∀ m, isDen (modDev g s) m = isDen s m) ∧ (∀ m, isCxl (modDev g s) m = isCxl s m) ∧ (∀ m, isHost (modDev g s) m = isHost s m)
    ∧ (∀ m, routeEntry (modDev g s) m = routeEntry s m) :=
  ⟨rfl, rfl, rfl, rfl, rfl, rfl, rfl, rfl, rfl, rfl, rfl, rfl, rfl, rfl, rfl, rfl, rfl, rfl, rfl, rfl, rfl, rfl, rfl, rfl, rfl, rfl, rfl, rfl, rfl, rfl, rfl, rfl, rfl, rfl, rfl, rfl, rfl, fun _ => rfl, fun _ => rfl, fun _ => rfl, fun _ => rfl, fun _ => rfl, fun _ => rfl, fun _ => rfl, fun _ => rfl, fun _ => rfl, fun _ => rfl, fun _ => rfl, fun _ => rfl, fun _ => rfl, fun _ => rfl, fun _ => rfl, fun _ => rfl, fun _ => rfl, fun _ => rfl, fun _ => rfl, fun _ => rfl, fun _ => rfl, fun _ => rfl, fun _ => rfl, fun _ => rfl⟩
@[simp] theorem modDev_dev (g : DevSt → DevSt) (s : State) : (modDev g s).dev = g s.dev := rfl

/-- `modStart` leaves the rest of the state alone. -/
@[simp] theorem modStart_frame (g : StartSt → StartSt) (s : State) :
    (modStart g s).pending = s.pending ∧ (modStart g s).dev = s.dev ∧ (modStart g s).ft = s.ft ∧ (modStart g s).io = s.io ∧ (modStart g s).hoard = s.hoard ∧ (modStart g s).dur = s.dur
    ∧ (modStart g s).hib = s.hib ∧ (modStart g s).journal = s.journal ∧ (modStart g s).log = s.log ∧ (modStart g s).errs = s.errs ∧ (modStart g s).sic = s.sic ∧ (modStart g s).ctr = s.ctr
    ∧ (modStart g s).hb = s.hb ∧ (modStart g s).grave = s.grave ∧ (modStart g s).mbx = s.mbx ∧ (modStart g s).i3c = s.i3c ∧ (modStart g s).cmd = s.cmd ∧ (modStart g s).sec = s.sec
    ∧ (modStart g s).fuses = s.fuses ∧ (modStart g s).ledger = s.ledger ∧ (modStart g s).disc = s.disc ∧ (modStart g s).net = s.net ∧ (modStart g s).sw = s.sw ∧ (modStart g s).tm = s.tm
    ∧ (modStart g s).slices = s.slices ∧ (modStart g s).coh = s.coh ∧ (modStart g s).drey = s.drey ∧ (modStart g s).scrubHours = s.scrubHours ∧ (modStart g s).ten = s.ten ∧ (modStart g s).pwr = s.pwr
    ∧ (modStart g s).cages = s.cages ∧ (modStart g s).therm = s.therm ∧ (modStart g s).pins = s.pins ∧ (modStart g s).free = s.free ∧ (modStart g s).outbox = s.outbox ∧ now (modStart g s) = now s
    ∧ ftCount (modStart g s) = ftCount s ∧ (∀ m, lpOf (modStart g s) m = lpOf s m) ∧ (∀ m, cfgOf (modStart g s) m = cfgOf s m) ∧ (∀ m, portOf (modStart g s) m = portOf s m) ∧ (∀ m, txOf (modStart g s) m = txOf s m) ∧ (∀ m, rxOf (modStart g s) m = rxOf s m)
    ∧ (∀ m, initOf (modStart g s) m = initOf s m) ∧ (∀ m, failOf (modStart g s) m = failOf s m) ∧ (∀ m, cxlOf (modStart g s) m = cxlOf s m) ∧ (∀ m, winOf (modStart g s) m = winOf s m) ∧ (∀ m, egressOf (modStart g s) m = egressOf s m) ∧ (∀ m, bindOf (modStart g s) m = bindOf s m)
    ∧ (∀ m, tgOf (modStart g s) m = tgOf s m) ∧ (∀ m, slOf (modStart g s) m = slOf s m) ∧ (∀ m, dreyOf (modStart g s) m = dreyOf s m) ∧ (∀ m, cageOf (modStart g s) m = cageOf s m) ∧ (∀ m, domOf (modStart g s) m = domOf s m) ∧ (∀ m, clkOf (modStart g s) m = clkOf s m)
    ∧ (∀ m, linkLive (modStart g s) m = linkLive s m) ∧ (∀ m, lpUp (modStart g s) m = lpUp s m) ∧ (∀ m, isDen (modStart g s) m = isDen s m) ∧ (∀ m, isCxl (modStart g s) m = isCxl s m) ∧ (∀ m, isHost (modStart g s) m = isHost s m) ∧ (∀ m, routeEntry (modStart g s) m = routeEntry s m) :=
  ⟨rfl, rfl, rfl, rfl, rfl, rfl, rfl, rfl, rfl, rfl, rfl, rfl, rfl, rfl, rfl, rfl, rfl, rfl, rfl, rfl, rfl, rfl, rfl, rfl, rfl, rfl, rfl, rfl, rfl, rfl, rfl, rfl, rfl, rfl, rfl, rfl, rfl, fun _ => rfl, fun _ => rfl, fun _ => rfl, fun _ => rfl, fun _ => rfl, fun _ => rfl, fun _ => rfl, fun _ => rfl, fun _ => rfl, fun _ => rfl, fun _ => rfl, fun _ => rfl, fun _ => rfl, fun _ => rfl, fun _ => rfl, fun _ => rfl, fun _ => rfl, fun _ => rfl, fun _ => rfl, fun _ => rfl, fun _ => rfl, fun _ => rfl, fun _ => rfl⟩
@[simp] theorem modStart_start (g : StartSt → StartSt) (s : State) : (modStart g s).start = g s.start := rfl

/-- `modHoard` leaves the rest of the state alone. -/
@[simp] theorem modHoard_frame (g : HoardSt → HoardSt) (s : State) :
    (modHoard g s).pending = s.pending ∧ (modHoard g s).dev = s.dev ∧ (modHoard g s).ft = s.ft ∧ (modHoard g s).io = s.io ∧ (modHoard g s).dur = s.dur ∧ (modHoard g s).hib = s.hib
    ∧ (modHoard g s).journal = s.journal ∧ (modHoard g s).log = s.log ∧ (modHoard g s).errs = s.errs ∧ (modHoard g s).sic = s.sic ∧ (modHoard g s).ctr = s.ctr ∧ (modHoard g s).hb = s.hb
    ∧ (modHoard g s).grave = s.grave ∧ (modHoard g s).mbx = s.mbx ∧ (modHoard g s).i3c = s.i3c ∧ (modHoard g s).cmd = s.cmd ∧ (modHoard g s).sec = s.sec ∧ (modHoard g s).fuses = s.fuses
    ∧ (modHoard g s).ledger = s.ledger ∧ (modHoard g s).start = s.start ∧ (modHoard g s).disc = s.disc ∧ (modHoard g s).net = s.net ∧ (modHoard g s).sw = s.sw ∧ (modHoard g s).tm = s.tm
    ∧ (modHoard g s).slices = s.slices ∧ (modHoard g s).coh = s.coh ∧ (modHoard g s).drey = s.drey ∧ (modHoard g s).scrubHours = s.scrubHours ∧ (modHoard g s).ten = s.ten ∧ (modHoard g s).pwr = s.pwr
    ∧ (modHoard g s).cages = s.cages ∧ (modHoard g s).therm = s.therm ∧ (modHoard g s).pins = s.pins ∧ (modHoard g s).free = s.free ∧ (modHoard g s).outbox = s.outbox ∧ now (modHoard g s) = now s
    ∧ ftCount (modHoard g s) = ftCount s ∧ (∀ m, lpOf (modHoard g s) m = lpOf s m) ∧ (∀ m, cfgOf (modHoard g s) m = cfgOf s m) ∧ (∀ m, portOf (modHoard g s) m = portOf s m) ∧ (∀ m, txOf (modHoard g s) m = txOf s m) ∧ (∀ m, rxOf (modHoard g s) m = rxOf s m)
    ∧ (∀ m, initOf (modHoard g s) m = initOf s m) ∧ (∀ m, failOf (modHoard g s) m = failOf s m) ∧ (∀ m, cxlOf (modHoard g s) m = cxlOf s m) ∧ (∀ m, winOf (modHoard g s) m = winOf s m) ∧ (∀ m, egressOf (modHoard g s) m = egressOf s m) ∧ (∀ m, bindOf (modHoard g s) m = bindOf s m)
    ∧ (∀ m, tgOf (modHoard g s) m = tgOf s m) ∧ (∀ m, slOf (modHoard g s) m = slOf s m) ∧ (∀ m, dreyOf (modHoard g s) m = dreyOf s m) ∧ (∀ m, cageOf (modHoard g s) m = cageOf s m) ∧ (∀ m, domOf (modHoard g s) m = domOf s m) ∧ (∀ m, clkOf (modHoard g s) m = clkOf s m)
    ∧ (∀ m, kOf (modHoard g s) m = kOf s m) ∧ (∀ m, linkLive (modHoard g s) m = linkLive s m) ∧ (∀ m, lpUp (modHoard g s) m = lpUp s m) ∧ (∀ m, isDen (modHoard g s) m = isDen s m) ∧ (∀ m, isCxl (modHoard g s) m = isCxl s m) ∧ (∀ m, isHost (modHoard g s) m = isHost s m)
    ∧ (∀ m, routeEntry (modHoard g s) m = routeEntry s m) :=
  ⟨rfl, rfl, rfl, rfl, rfl, rfl, rfl, rfl, rfl, rfl, rfl, rfl, rfl, rfl, rfl, rfl, rfl, rfl, rfl, rfl, rfl, rfl, rfl, rfl, rfl, rfl, rfl, rfl, rfl, rfl, rfl, rfl, rfl, rfl, rfl, rfl, rfl, fun _ => rfl, fun _ => rfl, fun _ => rfl, fun _ => rfl, fun _ => rfl, fun _ => rfl, fun _ => rfl, fun _ => rfl, fun _ => rfl, fun _ => rfl, fun _ => rfl, fun _ => rfl, fun _ => rfl, fun _ => rfl, fun _ => rfl, fun _ => rfl, fun _ => rfl, fun _ => rfl, fun _ => rfl, fun _ => rfl, fun _ => rfl, fun _ => rfl, fun _ => rfl, fun _ => rfl⟩
@[simp] theorem modHoard_hoard (g : HoardSt → HoardSt) (s : State) : (modHoard g s).hoard = g s.hoard := rfl

/-- `modLog` leaves the rest of the state alone. -/
@[simp] theorem modLog_frame (g : LogSt → LogSt) (s : State) :
    (modLog g s).pending = s.pending ∧ (modLog g s).dev = s.dev ∧ (modLog g s).ft = s.ft ∧ (modLog g s).io = s.io ∧ (modLog g s).hoard = s.hoard ∧ (modLog g s).dur = s.dur
    ∧ (modLog g s).hib = s.hib ∧ (modLog g s).journal = s.journal ∧ (modLog g s).errs = s.errs ∧ (modLog g s).sic = s.sic ∧ (modLog g s).ctr = s.ctr ∧ (modLog g s).hb = s.hb
    ∧ (modLog g s).grave = s.grave ∧ (modLog g s).mbx = s.mbx ∧ (modLog g s).i3c = s.i3c ∧ (modLog g s).cmd = s.cmd ∧ (modLog g s).sec = s.sec ∧ (modLog g s).fuses = s.fuses
    ∧ (modLog g s).ledger = s.ledger ∧ (modLog g s).start = s.start ∧ (modLog g s).disc = s.disc ∧ (modLog g s).net = s.net ∧ (modLog g s).sw = s.sw ∧ (modLog g s).tm = s.tm
    ∧ (modLog g s).slices = s.slices ∧ (modLog g s).coh = s.coh ∧ (modLog g s).drey = s.drey ∧ (modLog g s).scrubHours = s.scrubHours ∧ (modLog g s).ten = s.ten ∧ (modLog g s).pwr = s.pwr
    ∧ (modLog g s).cages = s.cages ∧ (modLog g s).therm = s.therm ∧ (modLog g s).pins = s.pins ∧ (modLog g s).free = s.free ∧ (modLog g s).outbox = s.outbox ∧ now (modLog g s) = now s
    ∧ ftCount (modLog g s) = ftCount s ∧ (∀ m, lpOf (modLog g s) m = lpOf s m) ∧ (∀ m, cfgOf (modLog g s) m = cfgOf s m) ∧ (∀ m, portOf (modLog g s) m = portOf s m) ∧ (∀ m, txOf (modLog g s) m = txOf s m) ∧ (∀ m, rxOf (modLog g s) m = rxOf s m)
    ∧ (∀ m, initOf (modLog g s) m = initOf s m) ∧ (∀ m, failOf (modLog g s) m = failOf s m) ∧ (∀ m, cxlOf (modLog g s) m = cxlOf s m) ∧ (∀ m, winOf (modLog g s) m = winOf s m) ∧ (∀ m, egressOf (modLog g s) m = egressOf s m) ∧ (∀ m, bindOf (modLog g s) m = bindOf s m)
    ∧ (∀ m, tgOf (modLog g s) m = tgOf s m) ∧ (∀ m, slOf (modLog g s) m = slOf s m) ∧ (∀ m, dreyOf (modLog g s) m = dreyOf s m) ∧ (∀ m, cageOf (modLog g s) m = cageOf s m) ∧ (∀ m, domOf (modLog g s) m = domOf s m) ∧ (∀ m, clkOf (modLog g s) m = clkOf s m)
    ∧ (∀ m, kOf (modLog g s) m = kOf s m) ∧ (∀ m, linkLive (modLog g s) m = linkLive s m) ∧ (∀ m, lpUp (modLog g s) m = lpUp s m) ∧ (∀ m, isDen (modLog g s) m = isDen s m) ∧ (∀ m, isCxl (modLog g s) m = isCxl s m) ∧ (∀ m, isHost (modLog g s) m = isHost s m)
    ∧ (∀ m, routeEntry (modLog g s) m = routeEntry s m) :=
  ⟨rfl, rfl, rfl, rfl, rfl, rfl, rfl, rfl, rfl, rfl, rfl, rfl, rfl, rfl, rfl, rfl, rfl, rfl, rfl, rfl, rfl, rfl, rfl, rfl, rfl, rfl, rfl, rfl, rfl, rfl, rfl, rfl, rfl, rfl, rfl, rfl, rfl, fun _ => rfl, fun _ => rfl, fun _ => rfl, fun _ => rfl, fun _ => rfl, fun _ => rfl, fun _ => rfl, fun _ => rfl, fun _ => rfl, fun _ => rfl, fun _ => rfl, fun _ => rfl, fun _ => rfl, fun _ => rfl, fun _ => rfl, fun _ => rfl, fun _ => rfl, fun _ => rfl, fun _ => rfl, fun _ => rfl, fun _ => rfl, fun _ => rfl, fun _ => rfl, fun _ => rfl⟩
@[simp] theorem modLog_log (g : LogSt → LogSt) (s : State) : (modLog g s).log = g s.log := rfl

/-- `modMbx` leaves the rest of the state alone. -/
@[simp] theorem modMbx_frame (g : MbxSt → MbxSt) (s : State) :
    (modMbx g s).pending = s.pending ∧ (modMbx g s).dev = s.dev ∧ (modMbx g s).ft = s.ft ∧ (modMbx g s).io = s.io ∧ (modMbx g s).hoard = s.hoard ∧ (modMbx g s).dur = s.dur
    ∧ (modMbx g s).hib = s.hib ∧ (modMbx g s).journal = s.journal ∧ (modMbx g s).log = s.log ∧ (modMbx g s).errs = s.errs ∧ (modMbx g s).sic = s.sic ∧ (modMbx g s).ctr = s.ctr
    ∧ (modMbx g s).hb = s.hb ∧ (modMbx g s).grave = s.grave ∧ (modMbx g s).i3c = s.i3c ∧ (modMbx g s).cmd = s.cmd ∧ (modMbx g s).sec = s.sec ∧ (modMbx g s).fuses = s.fuses
    ∧ (modMbx g s).ledger = s.ledger ∧ (modMbx g s).start = s.start ∧ (modMbx g s).disc = s.disc ∧ (modMbx g s).net = s.net ∧ (modMbx g s).sw = s.sw ∧ (modMbx g s).tm = s.tm
    ∧ (modMbx g s).slices = s.slices ∧ (modMbx g s).coh = s.coh ∧ (modMbx g s).drey = s.drey ∧ (modMbx g s).scrubHours = s.scrubHours ∧ (modMbx g s).ten = s.ten ∧ (modMbx g s).pwr = s.pwr
    ∧ (modMbx g s).cages = s.cages ∧ (modMbx g s).therm = s.therm ∧ (modMbx g s).pins = s.pins ∧ (modMbx g s).free = s.free ∧ (modMbx g s).outbox = s.outbox ∧ now (modMbx g s) = now s
    ∧ ftCount (modMbx g s) = ftCount s ∧ (∀ m, lpOf (modMbx g s) m = lpOf s m) ∧ (∀ m, cfgOf (modMbx g s) m = cfgOf s m) ∧ (∀ m, portOf (modMbx g s) m = portOf s m) ∧ (∀ m, txOf (modMbx g s) m = txOf s m) ∧ (∀ m, rxOf (modMbx g s) m = rxOf s m)
    ∧ (∀ m, initOf (modMbx g s) m = initOf s m) ∧ (∀ m, failOf (modMbx g s) m = failOf s m) ∧ (∀ m, cxlOf (modMbx g s) m = cxlOf s m) ∧ (∀ m, winOf (modMbx g s) m = winOf s m) ∧ (∀ m, egressOf (modMbx g s) m = egressOf s m) ∧ (∀ m, bindOf (modMbx g s) m = bindOf s m)
    ∧ (∀ m, tgOf (modMbx g s) m = tgOf s m) ∧ (∀ m, slOf (modMbx g s) m = slOf s m) ∧ (∀ m, dreyOf (modMbx g s) m = dreyOf s m) ∧ (∀ m, cageOf (modMbx g s) m = cageOf s m) ∧ (∀ m, domOf (modMbx g s) m = domOf s m) ∧ (∀ m, clkOf (modMbx g s) m = clkOf s m)
    ∧ (∀ m, kOf (modMbx g s) m = kOf s m) ∧ (∀ m, linkLive (modMbx g s) m = linkLive s m) ∧ (∀ m, lpUp (modMbx g s) m = lpUp s m) ∧ (∀ m, isDen (modMbx g s) m = isDen s m) ∧ (∀ m, isCxl (modMbx g s) m = isCxl s m) ∧ (∀ m, isHost (modMbx g s) m = isHost s m)
    ∧ (∀ m, routeEntry (modMbx g s) m = routeEntry s m) :=
  ⟨rfl, rfl, rfl, rfl, rfl, rfl, rfl, rfl, rfl, rfl, rfl, rfl, rfl, rfl, rfl, rfl, rfl, rfl, rfl, rfl, rfl, rfl, rfl, rfl, rfl, rfl, rfl, rfl, rfl, rfl, rfl, rfl, rfl, rfl, rfl, rfl, rfl, fun _ => rfl, fun _ => rfl, fun _ => rfl, fun _ => rfl, fun _ => rfl, fun _ => rfl, fun _ => rfl, fun _ => rfl, fun _ => rfl, fun _ => rfl, fun _ => rfl, fun _ => rfl, fun _ => rfl, fun _ => rfl, fun _ => rfl, fun _ => rfl, fun _ => rfl, fun _ => rfl, fun _ => rfl, fun _ => rfl, fun _ => rfl, fun _ => rfl, fun _ => rfl, fun _ => rfl⟩
@[simp] theorem modMbx_mbx (g : MbxSt → MbxSt) (s : State) : (modMbx g s).mbx = g s.mbx := rfl

/-- `modCmd` leaves the rest of the state alone. -/
@[simp] theorem modCmd_frame (g : CmdSt → CmdSt) (s : State) :
    (modCmd g s).pending = s.pending ∧ (modCmd g s).dev = s.dev ∧ (modCmd g s).ft = s.ft ∧ (modCmd g s).io = s.io ∧ (modCmd g s).hoard = s.hoard ∧ (modCmd g s).dur = s.dur
    ∧ (modCmd g s).hib = s.hib ∧ (modCmd g s).journal = s.journal ∧ (modCmd g s).log = s.log ∧ (modCmd g s).errs = s.errs ∧ (modCmd g s).sic = s.sic ∧ (modCmd g s).ctr = s.ctr
    ∧ (modCmd g s).hb = s.hb ∧ (modCmd g s).grave = s.grave ∧ (modCmd g s).mbx = s.mbx ∧ (modCmd g s).i3c = s.i3c ∧ (modCmd g s).sec = s.sec ∧ (modCmd g s).fuses = s.fuses
    ∧ (modCmd g s).ledger = s.ledger ∧ (modCmd g s).start = s.start ∧ (modCmd g s).disc = s.disc ∧ (modCmd g s).net = s.net ∧ (modCmd g s).sw = s.sw ∧ (modCmd g s).tm = s.tm
    ∧ (modCmd g s).slices = s.slices ∧ (modCmd g s).coh = s.coh ∧ (modCmd g s).drey = s.drey ∧ (modCmd g s).scrubHours = s.scrubHours ∧ (modCmd g s).ten = s.ten ∧ (modCmd g s).pwr = s.pwr
    ∧ (modCmd g s).cages = s.cages ∧ (modCmd g s).therm = s.therm ∧ (modCmd g s).pins = s.pins ∧ (modCmd g s).free = s.free ∧ (modCmd g s).outbox = s.outbox ∧ now (modCmd g s) = now s
    ∧ ftCount (modCmd g s) = ftCount s ∧ (∀ m, lpOf (modCmd g s) m = lpOf s m) ∧ (∀ m, cfgOf (modCmd g s) m = cfgOf s m) ∧ (∀ m, portOf (modCmd g s) m = portOf s m) ∧ (∀ m, txOf (modCmd g s) m = txOf s m) ∧ (∀ m, rxOf (modCmd g s) m = rxOf s m)
    ∧ (∀ m, initOf (modCmd g s) m = initOf s m) ∧ (∀ m, failOf (modCmd g s) m = failOf s m) ∧ (∀ m, cxlOf (modCmd g s) m = cxlOf s m) ∧ (∀ m, winOf (modCmd g s) m = winOf s m) ∧ (∀ m, egressOf (modCmd g s) m = egressOf s m) ∧ (∀ m, bindOf (modCmd g s) m = bindOf s m)
    ∧ (∀ m, tgOf (modCmd g s) m = tgOf s m) ∧ (∀ m, slOf (modCmd g s) m = slOf s m) ∧ (∀ m, dreyOf (modCmd g s) m = dreyOf s m) ∧ (∀ m, cageOf (modCmd g s) m = cageOf s m) ∧ (∀ m, domOf (modCmd g s) m = domOf s m) ∧ (∀ m, clkOf (modCmd g s) m = clkOf s m)
    ∧ (∀ m, kOf (modCmd g s) m = kOf s m) ∧ (∀ m, linkLive (modCmd g s) m = linkLive s m) ∧ (∀ m, lpUp (modCmd g s) m = lpUp s m) ∧ (∀ m, isDen (modCmd g s) m = isDen s m) ∧ (∀ m, isCxl (modCmd g s) m = isCxl s m) ∧ (∀ m, isHost (modCmd g s) m = isHost s m)
    ∧ (∀ m, routeEntry (modCmd g s) m = routeEntry s m) :=
  ⟨rfl, rfl, rfl, rfl, rfl, rfl, rfl, rfl, rfl, rfl, rfl, rfl, rfl, rfl, rfl, rfl, rfl, rfl, rfl, rfl, rfl, rfl, rfl, rfl, rfl, rfl, rfl, rfl, rfl, rfl, rfl, rfl, rfl, rfl, rfl, rfl, rfl, fun _ => rfl, fun _ => rfl, fun _ => rfl, fun _ => rfl, fun _ => rfl, fun _ => rfl, fun _ => rfl, fun _ => rfl, fun _ => rfl, fun _ => rfl, fun _ => rfl, fun _ => rfl, fun _ => rfl, fun _ => rfl, fun _ => rfl, fun _ => rfl, fun _ => rfl, fun _ => rfl, fun _ => rfl, fun _ => rfl, fun _ => rfl, fun _ => rfl, fun _ => rfl, fun _ => rfl⟩
@[simp] theorem modCmd_cmd (g : CmdSt → CmdSt) (s : State) : (modCmd g s).cmd = g s.cmd := rfl

/-- `modJ` leaves the rest of the state alone. -/
@[simp] theorem modJ_frame (g : JournalSt → JournalSt) (s : State) :
    (modJ g s).pending = s.pending ∧ (modJ g s).dev = s.dev ∧ (modJ g s).ft = s.ft ∧ (modJ g s).io = s.io ∧ (modJ g s).hoard = s.hoard ∧ (modJ g s).dur = s.dur
    ∧ (modJ g s).hib = s.hib ∧ (modJ g s).log = s.log ∧ (modJ g s).errs = s.errs ∧ (modJ g s).sic = s.sic ∧ (modJ g s).ctr = s.ctr ∧ (modJ g s).hb = s.hb
    ∧ (modJ g s).grave = s.grave ∧ (modJ g s).mbx = s.mbx ∧ (modJ g s).i3c = s.i3c ∧ (modJ g s).cmd = s.cmd ∧ (modJ g s).sec = s.sec ∧ (modJ g s).fuses = s.fuses
    ∧ (modJ g s).ledger = s.ledger ∧ (modJ g s).start = s.start ∧ (modJ g s).disc = s.disc ∧ (modJ g s).net = s.net ∧ (modJ g s).sw = s.sw ∧ (modJ g s).tm = s.tm
    ∧ (modJ g s).slices = s.slices ∧ (modJ g s).coh = s.coh ∧ (modJ g s).drey = s.drey ∧ (modJ g s).scrubHours = s.scrubHours ∧ (modJ g s).ten = s.ten ∧ (modJ g s).pwr = s.pwr
    ∧ (modJ g s).cages = s.cages ∧ (modJ g s).therm = s.therm ∧ (modJ g s).pins = s.pins ∧ (modJ g s).free = s.free ∧ (modJ g s).outbox = s.outbox ∧ now (modJ g s) = now s
    ∧ ftCount (modJ g s) = ftCount s ∧ (∀ m, lpOf (modJ g s) m = lpOf s m) ∧ (∀ m, cfgOf (modJ g s) m = cfgOf s m) ∧ (∀ m, portOf (modJ g s) m = portOf s m) ∧ (∀ m, txOf (modJ g s) m = txOf s m) ∧ (∀ m, rxOf (modJ g s) m = rxOf s m)
    ∧ (∀ m, initOf (modJ g s) m = initOf s m) ∧ (∀ m, failOf (modJ g s) m = failOf s m) ∧ (∀ m, cxlOf (modJ g s) m = cxlOf s m) ∧ (∀ m, winOf (modJ g s) m = winOf s m) ∧ (∀ m, egressOf (modJ g s) m = egressOf s m) ∧ (∀ m, bindOf (modJ g s) m = bindOf s m)
    ∧ (∀ m, tgOf (modJ g s) m = tgOf s m) ∧ (∀ m, slOf (modJ g s) m = slOf s m) ∧ (∀ m, dreyOf (modJ g s) m = dreyOf s m) ∧ (∀ m, cageOf (modJ g s) m = cageOf s m) ∧ (∀ m, domOf (modJ g s) m = domOf s m) ∧ (∀ m, clkOf (modJ g s) m = clkOf s m)
    ∧ (∀ m, kOf (modJ g s) m = kOf s m) ∧ (∀ m, linkLive (modJ g s) m = linkLive s m) ∧ (∀ m, lpUp (modJ g s) m = lpUp s m) ∧ (∀ m, isDen (modJ g s) m = isDen s m) ∧ (∀ m, isCxl (modJ g s) m = isCxl s m) ∧ (∀ m, isHost (modJ g s) m = isHost s m)
    ∧ (∀ m, routeEntry (modJ g s) m = routeEntry s m) :=
  ⟨rfl, rfl, rfl, rfl, rfl, rfl, rfl, rfl, rfl, rfl, rfl, rfl, rfl, rfl, rfl, rfl, rfl, rfl, rfl, rfl, rfl, rfl, rfl, rfl, rfl, rfl, rfl, rfl, rfl, rfl, rfl, rfl, rfl, rfl, rfl, rfl, rfl, fun _ => rfl, fun _ => rfl, fun _ => rfl, fun _ => rfl, fun _ => rfl, fun _ => rfl, fun _ => rfl, fun _ => rfl, fun _ => rfl, fun _ => rfl, fun _ => rfl, fun _ => rfl, fun _ => rfl, fun _ => rfl, fun _ => rfl, fun _ => rfl, fun _ => rfl, fun _ => rfl, fun _ => rfl, fun _ => rfl, fun _ => rfl, fun _ => rfl, fun _ => rfl, fun _ => rfl⟩
@[simp] theorem modJ_journal (g : JournalSt → JournalSt) (s : State) : (modJ g s).journal = g s.journal := rfl

/-- `modSec` leaves the rest of the state alone. -/
@[simp] theorem modSec_frame (g : SecSt → SecSt) (s : State) :
    (modSec g s).pending = s.pending ∧ (modSec g s).dev = s.dev ∧ (modSec g s).ft = s.ft ∧ (modSec g s).io = s.io ∧ (modSec g s).hoard = s.hoard ∧ (modSec g s).dur = s.dur
    ∧ (modSec g s).hib = s.hib ∧ (modSec g s).journal = s.journal ∧ (modSec g s).log = s.log ∧ (modSec g s).errs = s.errs ∧ (modSec g s).sic = s.sic ∧ (modSec g s).ctr = s.ctr
    ∧ (modSec g s).hb = s.hb ∧ (modSec g s).grave = s.grave ∧ (modSec g s).mbx = s.mbx ∧ (modSec g s).i3c = s.i3c ∧ (modSec g s).cmd = s.cmd ∧ (modSec g s).fuses = s.fuses
    ∧ (modSec g s).ledger = s.ledger ∧ (modSec g s).start = s.start ∧ (modSec g s).disc = s.disc ∧ (modSec g s).net = s.net ∧ (modSec g s).sw = s.sw ∧ (modSec g s).tm = s.tm
    ∧ (modSec g s).slices = s.slices ∧ (modSec g s).coh = s.coh ∧ (modSec g s).drey = s.drey ∧ (modSec g s).scrubHours = s.scrubHours ∧ (modSec g s).ten = s.ten ∧ (modSec g s).pwr = s.pwr
    ∧ (modSec g s).cages = s.cages ∧ (modSec g s).therm = s.therm ∧ (modSec g s).pins = s.pins ∧ (modSec g s).free = s.free ∧ (modSec g s).outbox = s.outbox ∧ now (modSec g s) = now s
    ∧ ftCount (modSec g s) = ftCount s ∧ (∀ m, lpOf (modSec g s) m = lpOf s m) ∧ (∀ m, cfgOf (modSec g s) m = cfgOf s m) ∧ (∀ m, portOf (modSec g s) m = portOf s m) ∧ (∀ m, txOf (modSec g s) m = txOf s m) ∧ (∀ m, rxOf (modSec g s) m = rxOf s m)
    ∧ (∀ m, initOf (modSec g s) m = initOf s m) ∧ (∀ m, failOf (modSec g s) m = failOf s m) ∧ (∀ m, cxlOf (modSec g s) m = cxlOf s m) ∧ (∀ m, winOf (modSec g s) m = winOf s m) ∧ (∀ m, egressOf (modSec g s) m = egressOf s m) ∧ (∀ m, bindOf (modSec g s) m = bindOf s m)
    ∧ (∀ m, tgOf (modSec g s) m = tgOf s m) ∧ (∀ m, slOf (modSec g s) m = slOf s m) ∧ (∀ m, dreyOf (modSec g s) m = dreyOf s m) ∧ (∀ m, cageOf (modSec g s) m = cageOf s m) ∧ (∀ m, domOf (modSec g s) m = domOf s m) ∧ (∀ m, clkOf (modSec g s) m = clkOf s m)
    ∧ (∀ m, kOf (modSec g s) m = kOf s m) ∧ (∀ m, linkLive (modSec g s) m = linkLive s m) ∧ (∀ m, lpUp (modSec g s) m = lpUp s m) ∧ (∀ m, isDen (modSec g s) m = isDen s m) ∧ (∀ m, isCxl (modSec g s) m = isCxl s m) ∧ (∀ m, isHost (modSec g s) m = isHost s m)
    ∧ (∀ m, routeEntry (modSec g s) m = routeEntry s m) :=
  ⟨rfl, rfl, rfl, rfl, rfl, rfl, rfl, rfl, rfl, rfl, rfl, rfl, rfl, rfl, rfl, rfl, rfl, rfl, rfl, rfl, rfl, rfl, rfl, rfl, rfl, rfl, rfl, rfl, rfl, rfl, rfl, rfl, rfl, rfl, rfl, rfl, rfl, fun _ => rfl, fun _ => rfl, fun _ => rfl, fun _ => rfl, fun _ => rfl, fun _ => rfl, fun _ => rfl, fun _ => rfl, fun _ => rfl, fun _ => rfl, fun _ => rfl, fun _ => rfl, fun _ => rfl, fun _ => rfl, fun _ => rfl, fun _ => rfl, fun _ => rfl, fun _ => rfl, fun _ => rfl, fun _ => rfl, fun _ => rfl, fun _ => rfl, fun _ => rfl, fun _ => rfl⟩
@[simp] theorem modSec_sec (g : SecSt → SecSt) (s : State) : (modSec g s).sec = g s.sec := rfl

/-- `modIo` leaves the rest of the state alone. -/
@[simp] theorem modIo_frame (g : FtIo → FtIo) (s : State) :
    (modIo g s).pending = s.pending ∧ (modIo g s).dev = s.dev ∧ (modIo g s).ft = s.ft ∧ (modIo g s).hoard = s.hoard ∧ (modIo g s).dur = s.dur ∧ (modIo g s).hib = s.hib
    ∧ (modIo g s).journal = s.journal ∧ (modIo g s).log = s.log ∧ (modIo g s).errs = s.errs ∧ (modIo g s).sic = s.sic ∧ (modIo g s).ctr = s.ctr ∧ (modIo g s).hb = s.hb
    ∧ (modIo g s).grave = s.grave ∧ (modIo g s).mbx = s.mbx ∧ (modIo g s).i3c = s.i3c ∧ (modIo g s).cmd = s.cmd ∧ (modIo g s).sec = s.sec ∧ (modIo g s).fuses = s.fuses
    ∧ (modIo g s).ledger = s.ledger ∧ (modIo g s).start = s.start ∧ (modIo g s).disc = s.disc ∧ (modIo g s).net = s.net ∧ (modIo g s).sw = s.sw ∧ (modIo g s).tm = s.tm
    ∧ (modIo g s).slices = s.slices ∧ (modIo g s).coh = s.coh ∧ (modIo g s).drey = s.drey ∧ (modIo g s).scrubHours = s.scrubHours ∧ (modIo g s).ten = s.ten ∧ (modIo g s).pwr = s.pwr
    ∧ (modIo g s).cages = s.cages ∧ (modIo g s).therm = s.therm ∧ (modIo g s).pins = s.pins ∧ (modIo g s).free = s.free ∧ (modIo g s).outbox = s.outbox ∧ now (modIo g s) = now s
    ∧ ftCount (modIo g s) = ftCount s ∧ (∀ m, lpOf (modIo g s) m = lpOf s m) ∧ (∀ m, cfgOf (modIo g s) m = cfgOf s m) ∧ (∀ m, portOf (modIo g s) m = portOf s m) ∧ (∀ m, txOf (modIo g s) m = txOf s m) ∧ (∀ m, rxOf (modIo g s) m = rxOf s m)
    ∧ (∀ m, initOf (modIo g s) m = initOf s m) ∧ (∀ m, failOf (modIo g s) m = failOf s m) ∧ (∀ m, cxlOf (modIo g s) m = cxlOf s m) ∧ (∀ m, winOf (modIo g s) m = winOf s m) ∧ (∀ m, egressOf (modIo g s) m = egressOf s m) ∧ (∀ m, bindOf (modIo g s) m = bindOf s m)
    ∧ (∀ m, tgOf (modIo g s) m = tgOf s m) ∧ (∀ m, slOf (modIo g s) m = slOf s m) ∧ (∀ m, dreyOf (modIo g s) m = dreyOf s m) ∧ (∀ m, cageOf (modIo g s) m = cageOf s m) ∧ (∀ m, domOf (modIo g s) m = domOf s m) ∧ (∀ m, clkOf (modIo g s) m = clkOf s m)
    ∧ (∀ m, kOf (modIo g s) m = kOf s m) ∧ (∀ m, linkLive (modIo g s) m = linkLive s m) ∧ (∀ m, lpUp (modIo g s) m = lpUp s m) ∧ (∀ m, isDen (modIo g s) m = isDen s m) ∧ (∀ m, isCxl (modIo g s) m = isCxl s m) ∧ (∀ m, isHost (modIo g s) m = isHost s m)
    ∧ (∀ m, routeEntry (modIo g s) m = routeEntry s m) :=
  ⟨rfl, rfl, rfl, rfl, rfl, rfl, rfl, rfl, rfl, rfl, rfl, rfl, rfl, rfl, rfl, rfl, rfl, rfl, rfl, rfl, rfl, rfl, rfl, rfl, rfl, rfl, rfl, rfl, rfl, rfl, rfl, rfl, rfl, rfl, rfl, rfl, rfl, fun _ => rfl, fun _ => rfl, fun _ => rfl, fun _ => rfl, fun _ => rfl, fun _ => rfl, fun _ => rfl, fun _ => rfl, fun _ => rfl, fun _ => rfl, fun _ => rfl, fun _ => rfl, fun _ => rfl, fun _ => rfl, fun _ => rfl, fun _ => rfl, fun _ => rfl, fun _ => rfl, fun _ => rfl, fun _ => rfl, fun _ => rfl, fun _ => rfl, fun _ => rfl, fun _ => rfl⟩
@[simp] theorem modIo_io (g : FtIo → FtIo) (s : State) : (modIo g s).io = g s.io := rfl

/-- `modFt` leaves the rest of the state alone. -/
@[simp] theorem modFt_frame (g : FtSt → FtSt) (s : State) :
    (modFt g s).pending = s.pending ∧ (modFt g s).dev = s.dev ∧ (modFt g s).io = s.io ∧ (modFt g s).hoard = s.hoard ∧ (modFt g s).dur = s.dur ∧ (modFt g s).hib = s.hib
    ∧ (modFt g s).journal = s.journal ∧ (modFt g s).log = s.log ∧ (modFt g s).errs = s.errs ∧ (modFt g s).sic = s.sic ∧ (modFt g s).ctr = s.ctr ∧ (modFt g s).hb = s.hb
    ∧ (modFt g s).grave = s.grave ∧ (modFt g s).mbx = s.mbx ∧ (modFt g s).i3c = s.i3c ∧ (modFt g s).cmd = s.cmd ∧ (modFt g s).sec = s.sec ∧ (modFt g s).fuses = s.fuses
    ∧ (modFt g s).ledger = s.ledger ∧ (modFt g s).start = s.start ∧ (modFt g s).disc = s.disc ∧ (modFt g s).net = s.net ∧ (modFt g s).sw = s.sw ∧ (modFt g s).tm = s.tm
    ∧ (modFt g s).slices = s.slices ∧ (modFt g s).coh = s.coh ∧ (modFt g s).drey = s.drey ∧ (modFt g s).scrubHours = s.scrubHours ∧ (modFt g s).ten = s.ten ∧ (modFt g s).pwr = s.pwr
    ∧ (modFt g s).cages = s.cages ∧ (modFt g s).therm = s.therm ∧ (modFt g s).pins = s.pins ∧ (modFt g s).free = s.free ∧ (modFt g s).outbox = s.outbox ∧ (∀ m, lpOf (modFt g s) m = lpOf s m)
    ∧ (∀ m, cfgOf (modFt g s) m = cfgOf s m) ∧ (∀ m, portOf (modFt g s) m = portOf s m) ∧ (∀ m, txOf (modFt g s) m = txOf s m) ∧ (∀ m, rxOf (modFt g s) m = rxOf s m) ∧ (∀ m, initOf (modFt g s) m = initOf s m) ∧ (∀ m, failOf (modFt g s) m = failOf s m)
    ∧ (∀ m, cxlOf (modFt g s) m = cxlOf s m) ∧ (∀ m, winOf (modFt g s) m = winOf s m) ∧ (∀ m, egressOf (modFt g s) m = egressOf s m) ∧ (∀ m, bindOf (modFt g s) m = bindOf s m) ∧ (∀ m, tgOf (modFt g s) m = tgOf s m) ∧ (∀ m, slOf (modFt g s) m = slOf s m)
    ∧ (∀ m, dreyOf (modFt g s) m = dreyOf s m) ∧ (∀ m, cageOf (modFt g s) m = cageOf s m) ∧ (∀ m, domOf (modFt g s) m = domOf s m) ∧ (∀ m, clkOf (modFt g s) m = clkOf s m) ∧ (∀ m, kOf (modFt g s) m = kOf s m) ∧ (∀ m, linkLive (modFt g s) m = linkLive s m)
    ∧ (∀ m, lpUp (modFt g s) m = lpUp s m) ∧ (∀ m, isDen (modFt g s) m = isDen s m) ∧ (∀ m, isCxl (modFt g s) m = isCxl s m) ∧ (∀ m, isHost (modFt g s) m = isHost s m) ∧ (∀ m, routeEntry (modFt g s) m = routeEntry s m) :=
  ⟨rfl, rfl, rfl, rfl, rfl, rfl, rfl, rfl, rfl, rfl, rfl, rfl, rfl, rfl, rfl, rfl, rfl, rfl, rfl, rfl, rfl, rfl, rfl, rfl, rfl, rfl, rfl, rfl, rfl, rfl, rfl, rfl, rfl, rfl, rfl, fun _ => rfl, fun _ => rfl, fun _ => rfl, fun _ => rfl, fun _ => rfl, fun _ => rfl, fun _ => rfl, fun _ => rfl, fun _ => rfl, fun _ => rfl, fun _ => rfl, fun _ => rfl, fun _ => rfl, fun _ => rfl, fun _ => rfl, fun _ => rfl, fun _ => rfl, fun _ => rfl, fun _ => rfl, fun _ => rfl, fun _ => rfl, fun _ => rfl, fun _ => rfl, fun _ => rfl⟩
@[simp] theorem modFt_ft (g : FtSt → FtSt) (s : State) : (modFt g s).ft = g s.ft := rfl

/-- `modHb` leaves the rest of the state alone. -/
@[simp] theorem modHb_frame (g : HbSt → HbSt) (s : State) :
    (modHb g s).pending = s.pending ∧ (modHb g s).dev = s.dev ∧ (modHb g s).ft = s.ft ∧ (modHb g s).io = s.io ∧ (modHb g s).hoard = s.hoard ∧ (modHb g s).dur = s.dur
    ∧ (modHb g s).hib = s.hib ∧ (modHb g s).journal = s.journal ∧ (modHb g s).log = s.log ∧ (modHb g s).errs = s.errs ∧ (modHb g s).sic = s.sic ∧ (modHb g s).ctr = s.ctr
    ∧ (modHb g s).grave = s.grave ∧ (modHb g s).mbx = s.mbx ∧ (modHb g s).i3c = s.i3c ∧ (modHb g s).cmd = s.cmd ∧ (modHb g s).sec = s.sec ∧ (modHb g s).fuses = s.fuses
    ∧ (modHb g s).ledger = s.ledger ∧ (modHb g s).start = s.start ∧ (modHb g s).disc = s.disc ∧ (modHb g s).net = s.net ∧ (modHb g s).sw = s.sw ∧ (modHb g s).tm = s.tm
    ∧ (modHb g s).slices = s.slices ∧ (modHb g s).coh = s.coh ∧ (modHb g s).drey = s.drey ∧ (modHb g s).scrubHours = s.scrubHours ∧ (modHb g s).ten = s.ten ∧ (modHb g s).pwr = s.pwr
    ∧ (modHb g s).cages = s.cages ∧ (modHb g s).therm = s.therm ∧ (modHb g s).pins = s.pins ∧ (modHb g s).free = s.free ∧ (modHb g s).outbox = s.outbox ∧ now (modHb g s) = now s
    ∧ ftCount (modHb g s) = ftCount s ∧ (∀ m, lpOf (modHb g s) m = lpOf s m) ∧ (∀ m, cfgOf (modHb g s) m = cfgOf s m) ∧ (∀ m, portOf (modHb g s) m = portOf s m) ∧ (∀ m, txOf (modHb g s) m = txOf s m) ∧ (∀ m, rxOf (modHb g s) m = rxOf s m)
    ∧ (∀ m, initOf (modHb g s) m = initOf s m) ∧ (∀ m, failOf (modHb g s) m = failOf s m) ∧ (∀ m, cxlOf (modHb g s) m = cxlOf s m) ∧ (∀ m, winOf (modHb g s) m = winOf s m) ∧ (∀ m, egressOf (modHb g s) m = egressOf s m) ∧ (∀ m, bindOf (modHb g s) m = bindOf s m)
    ∧ (∀ m, tgOf (modHb g s) m = tgOf s m) ∧ (∀ m, slOf (modHb g s) m = slOf s m) ∧ (∀ m, dreyOf (modHb g s) m = dreyOf s m) ∧ (∀ m, cageOf (modHb g s) m = cageOf s m) ∧ (∀ m, domOf (modHb g s) m = domOf s m) ∧ (∀ m, clkOf (modHb g s) m = clkOf s m)
    ∧ (∀ m, kOf (modHb g s) m = kOf s m) ∧ (∀ m, linkLive (modHb g s) m = linkLive s m) ∧ (∀ m, lpUp (modHb g s) m = lpUp s m) ∧ (∀ m, isDen (modHb g s) m = isDen s m) ∧ (∀ m, isCxl (modHb g s) m = isCxl s m) ∧ (∀ m, isHost (modHb g s) m = isHost s m)
    ∧ (∀ m, routeEntry (modHb g s) m = routeEntry s m) :=
  ⟨rfl, rfl, rfl, rfl, rfl, rfl, rfl, rfl, rfl, rfl, rfl, rfl, rfl, rfl, rfl, rfl, rfl, rfl, rfl, rfl, rfl, rfl, rfl, rfl, rfl, rfl, rfl, rfl, rfl, rfl, rfl, rfl, rfl, rfl, rfl, rfl, rfl, fun _ => rfl, fun _ => rfl, fun _ => rfl, fun _ => rfl, fun _ => rfl, fun _ => rfl, fun _ => rfl, fun _ => rfl, fun _ => rfl, fun _ => rfl, fun _ => rfl, fun _ => rfl, fun _ => rfl, fun _ => rfl, fun _ => rfl, fun _ => rfl, fun _ => rfl, fun _ => rfl, fun _ => rfl, fun _ => rfl, fun _ => rfl, fun _ => rfl, fun _ => rfl, fun _ => rfl⟩
@[simp] theorem modHb_hb (g : HbSt → HbSt) (s : State) : (modHb g s).hb = g s.hb := rfl

/-- `modDisc` leaves the rest of the state alone. -/
@[simp] theorem modDisc_frame (g : DiscSt → DiscSt) (s : State) :
    (modDisc g s).pending = s.pending ∧ (modDisc g s).dev = s.dev ∧ (modDisc g s).ft = s.ft ∧ (modDisc g s).io = s.io ∧ (modDisc g s).hoard = s.hoard ∧ (modDisc g s).dur = s.dur
    ∧ (modDisc g s).hib = s.hib ∧ (modDisc g s).journal = s.journal ∧ (modDisc g s).log = s.log ∧ (modDisc g s).errs = s.errs ∧ (modDisc g s).sic = s.sic ∧ (modDisc g s).ctr = s.ctr
    ∧ (modDisc g s).hb = s.hb ∧ (modDisc g s).grave = s.grave ∧ (modDisc g s).mbx = s.mbx ∧ (modDisc g s).i3c = s.i3c ∧ (modDisc g s).cmd = s.cmd ∧ (modDisc g s).sec = s.sec
    ∧ (modDisc g s).fuses = s.fuses ∧ (modDisc g s).ledger = s.ledger ∧ (modDisc g s).start = s.start ∧ (modDisc g s).net = s.net ∧ (modDisc g s).sw = s.sw ∧ (modDisc g s).tm = s.tm
    ∧ (modDisc g s).slices = s.slices ∧ (modDisc g s).coh = s.coh ∧ (modDisc g s).drey = s.drey ∧ (modDisc g s).scrubHours = s.scrubHours ∧ (modDisc g s).ten = s.ten ∧ (modDisc g s).pwr = s.pwr
    ∧ (modDisc g s).cages = s.cages ∧ (modDisc g s).therm = s.therm ∧ (modDisc g s).pins = s.pins ∧ (modDisc g s).free = s.free ∧ (modDisc g s).outbox = s.outbox ∧ now (modDisc g s) = now s
    ∧ ftCount (modDisc g s) = ftCount s ∧ (∀ m, lpOf (modDisc g s) m = lpOf s m) ∧ (∀ m, cfgOf (modDisc g s) m = cfgOf s m) ∧ (∀ m, portOf (modDisc g s) m = portOf s m) ∧ (∀ m, txOf (modDisc g s) m = txOf s m) ∧ (∀ m, rxOf (modDisc g s) m = rxOf s m)
    ∧ (∀ m, initOf (modDisc g s) m = initOf s m) ∧ (∀ m, failOf (modDisc g s) m = failOf s m) ∧ (∀ m, cxlOf (modDisc g s) m = cxlOf s m) ∧ (∀ m, winOf (modDisc g s) m = winOf s m) ∧ (∀ m, egressOf (modDisc g s) m = egressOf s m) ∧ (∀ m, bindOf (modDisc g s) m = bindOf s m)
    ∧ (∀ m, tgOf (modDisc g s) m = tgOf s m) ∧ (∀ m, slOf (modDisc g s) m = slOf s m) ∧ (∀ m, dreyOf (modDisc g s) m = dreyOf s m) ∧ (∀ m, cageOf (modDisc g s) m = cageOf s m) ∧ (∀ m, domOf (modDisc g s) m = domOf s m) ∧ (∀ m, clkOf (modDisc g s) m = clkOf s m)
    ∧ (∀ m, kOf (modDisc g s) m = kOf s m) ∧ (∀ m, linkLive (modDisc g s) m = linkLive s m) ∧ (∀ m, lpUp (modDisc g s) m = lpUp s m) ∧ (∀ m, isDen (modDisc g s) m = isDen s m) ∧ (∀ m, isCxl (modDisc g s) m = isCxl s m) ∧ (∀ m, isHost (modDisc g s) m = isHost s m)
    ∧ (∀ m, routeEntry (modDisc g s) m = routeEntry s m) :=
  ⟨rfl, rfl, rfl, rfl, rfl, rfl, rfl, rfl, rfl, rfl, rfl, rfl, rfl, rfl, rfl, rfl, rfl, rfl, rfl, rfl, rfl, rfl, rfl, rfl, rfl, rfl, rfl, rfl, rfl, rfl, rfl, rfl, rfl, rfl, rfl, rfl, rfl, fun _ => rfl, fun _ => rfl, fun _ => rfl, fun _ => rfl, fun _ => rfl, fun _ => rfl, fun _ => rfl, fun _ => rfl, fun _ => rfl, fun _ => rfl, fun _ => rfl, fun _ => rfl, fun _ => rfl, fun _ => rfl, fun _ => rfl, fun _ => rfl, fun _ => rfl, fun _ => rfl, fun _ => rfl, fun _ => rfl, fun _ => rfl, fun _ => rfl, fun _ => rfl, fun _ => rfl⟩
@[simp] theorem modDisc_disc (g : DiscSt → DiscSt) (s : State) : (modDisc g s).disc = g s.disc := rfl

/-- `modLp` leaves the rest of the state alone. -/
@[simp] theorem modLp_frame (k : Nat) (g : LpSt → LpSt) (s : State) :
    (modLp k g s).pending = s.pending ∧ (modLp k g s).dev = s.dev ∧ (modLp k g s).ft = s.ft ∧ (modLp k g s).io = s.io ∧ (modLp k g s).hoard = s.hoard ∧ (modLp k g s).dur = s.dur
    ∧ (modLp k g s).hib = s.hib ∧ (modLp k g s).journal = s.journal ∧ (modLp k g s).log = s.log ∧ (modLp k g s).errs = s.errs ∧ (modLp k g s).sic = s.sic ∧ (modLp k g s).ctr = s.ctr
    ∧ (modLp k g s).hb = s.hb ∧ (modLp k g s).grave = s.grave ∧ (modLp k g s).mbx = s.mbx ∧ (modLp k g s).i3c = s.i3c ∧ (modLp k g s).cmd = s.cmd ∧ (modLp k g s).sec = s.sec
    ∧ (modLp k g s).fuses = s.fuses ∧ (modLp k g s).ledger = s.ledger ∧ (modLp k g s).start = s.start ∧ (modLp k g s).disc = s.disc ∧ (modLp k g s).sw = s.sw ∧ (modLp k g s).tm = s.tm
    ∧ (modLp k g s).slices = s.slices ∧ (modLp k g s).coh = s.coh ∧ (modLp k g s).drey = s.drey ∧ (modLp k g s).scrubHours = s.scrubHours ∧ (modLp k g s).ten = s.ten ∧ (modLp k g s).pwr = s.pwr
    ∧ (modLp k g s).cages = s.cages ∧ (modLp k g s).therm = s.therm ∧ (modLp k g s).pins = s.pins ∧ (modLp k g s).free = s.free ∧ (modLp k g s).outbox = s.outbox ∧ now (modLp k g s) = now s
    ∧ ftCount (modLp k g s) = ftCount s ∧ (modLp k g s).net.ports = s.net.ports ∧ (modLp k g s).net.lanes = s.net.lanes ∧ (modLp k g s).net.wins = s.net.wins ∧ (modLp k g s).net.tx = s.net.tx ∧ (modLp k g s).net.rx = s.net.rx
    ∧ (modLp k g s).net.init = s.net.init ∧ (modLp k g s).net.fail = s.net.fail ∧ (modLp k g s).net.cxl = s.net.cxl ∧ (modLp k g s).net.denOut = s.net.denOut ∧ (modLp k g s).net.fallen = s.net.fallen ∧ (∀ m, portOf (modLp k g s) m = portOf s m)
    ∧ (∀ m, txOf (modLp k g s) m = txOf s m) ∧ (∀ m, rxOf (modLp k g s) m = rxOf s m) ∧ (∀ m, initOf (modLp k g s) m = initOf s m) ∧ (∀ m, failOf (modLp k g s) m = failOf s m) ∧ (∀ m, cxlOf (modLp k g s) m = cxlOf s m) ∧ (∀ m, winOf (modLp k g s) m = winOf s m)
    ∧ (∀ m, egressOf (modLp k g s) m = egressOf s m) ∧ (∀ m, bindOf (modLp k g s) m = bindOf s m) ∧ (∀ m, tgOf (modLp k g s) m = tgOf s m) ∧ (∀ m, slOf (modLp k g s) m = slOf s m) ∧ (∀ m, dreyOf (modLp k g s) m = dreyOf s m) ∧ (∀ m, cageOf (modLp k g s) m = cageOf s m)
    ∧ (∀ m, domOf (modLp k g s) m = domOf s m) ∧ (∀ m, clkOf (modLp k g s) m = clkOf s m) ∧ (∀ m, kOf (modLp k g s) m = kOf s m) ∧ (∀ m, routeEntry (modLp k g s) m = routeEntry s m) :=
  ⟨rfl, rfl, rfl, rfl, rfl, rfl, rfl, rfl, rfl, rfl, rfl, rfl, rfl, rfl, rfl, rfl, rfl, rfl, rfl, rfl, rfl, rfl, rfl, rfl, rfl, rfl, rfl, rfl, rfl, rfl, rfl, rfl, rfl, rfl, rfl, rfl, rfl, rfl, rfl, rfl, rfl, rfl, rfl, rfl, rfl, rfl, rfl, fun _ => rfl, fun _ => rfl, fun _ => rfl, fun _ => rfl, fun _ => rfl, fun _ => rfl, fun _ => rfl, fun _ => rfl, fun _ => rfl, fun _ => rfl, fun _ => rfl, fun _ => rfl, fun _ => rfl, fun _ => rfl, fun _ => rfl, fun _ => rfl, fun _ => rfl⟩
@[simp] theorem modLp_lps (k : Nat) (g : LpSt → LpSt) (s : State) : (modLp k g s).net.lps = tmod s.net.lps k g := rfl
@[simp] theorem modLp_lpOf_self (k : Nat) (g : LpSt → LpSt) (s : State) : lpOf (modLp k g s) k = g (lpOf s k) := tget_tmod_self _ _ _
theorem modLp_lpOf_ne (k : Nat) (g : LpSt → LpSt) (s : State) (m : Nat) (h : m ≠ k) : lpOf (modLp k g s) m = lpOf s m := tget_tmod_ne _ _ _ _ h

/-- `modPort` leaves the rest of the state alone. -/
@[simp] theorem modPort_frame (k : Nat) (g : PortSt → PortSt) (s : State) :
    (modPort k g s).pending = s.pending ∧ (modPort k g s).dev = s.dev ∧ (modPort k g s).ft = s.ft ∧ (modPort k g s).io = s.io ∧ (modPort k g s).hoard = s.hoard ∧ (modPort k g s).dur = s.dur
    ∧ (modPort k g s).hib = s.hib ∧ (modPort k g s).journal = s.journal ∧ (modPort k g s).log = s.log ∧ (modPort k g s).errs = s.errs ∧ (modPort k g s).sic = s.sic ∧ (modPort k g s).ctr = s.ctr
    ∧ (modPort k g s).hb = s.hb ∧ (modPort k g s).grave = s.grave ∧ (modPort k g s).mbx = s.mbx ∧ (modPort k g s).i3c = s.i3c ∧ (modPort k g s).cmd = s.cmd ∧ (modPort k g s).sec = s.sec
    ∧ (modPort k g s).fuses = s.fuses ∧ (modPort k g s).ledger = s.ledger ∧ (modPort k g s).start = s.start ∧ (modPort k g s).disc = s.disc ∧ (modPort k g s).sw = s.sw ∧ (modPort k g s).tm = s.tm
    ∧ (modPort k g s).slices = s.slices ∧ (modPort k g s).coh = s.coh ∧ (modPort k g s).drey = s.drey ∧ (modPort k g s).scrubHours = s.scrubHours ∧ (modPort k g s).ten = s.ten ∧ (modPort k g s).pwr = s.pwr
    ∧ (modPort k g s).cages = s.cages ∧ (modPort k g s).therm = s.therm ∧ (modPort k g s).pins = s.pins ∧ (modPort k g s).free = s.free ∧ (modPort k g s).outbox = s.outbox ∧ now (modPort k g s) = now s
    ∧ ftCount (modPort k g s) = ftCount s ∧ (modPort k g s).net.lanes = s.net.lanes ∧ (modPort k g s).net.lps = s.net.lps ∧ (modPort k g s).net.wins = s.net.wins ∧ (modPort k g s).net.tx = s.net.tx ∧ (modPort k g s).net.rx = s.net.rx
    ∧ (modPort k g s).net.init = s.net.init ∧ (modPort k g s).net.fail = s.net.fail ∧ (modPort k g s).net.cxl = s.net.cxl ∧ (modPort k g s).net.denOut = s.net.denOut ∧ (modPort k g s).net.fallen = s.net.fallen ∧ (∀ m, lpOf (modPort k g s) m = lpOf s m)
    ∧ (∀ m, cfgOf (modPort k g s) m = cfgOf s m) ∧ (∀ m, txOf (modPort k g s) m = txOf s m) ∧ (∀ m, rxOf (modPort k g s) m = rxOf s m) ∧ (∀ m, initOf (modPort k g s) m = initOf s m) ∧ (∀ m, failOf (modPort k g s) m = failOf s m) ∧ (∀ m, cxlOf (modPort k g s) m = cxlOf s m)
    ∧ (∀ m, winOf (modPort k g s) m = winOf s m) ∧ (∀ m, egressOf (modPort k g s) m = egressOf s m) ∧ (∀ m, bindOf (modPort k g s) m = bindOf s m) ∧ (∀ m, tgOf (modPort k g s) m = tgOf s m) ∧ (∀ m, slOf (modPort k g s) m = slOf s m) ∧ (∀ m, dreyOf (modPort k g s) m = dreyOf s m)
    ∧ (∀ m, cageOf (modPort k g s) m = cageOf s m) ∧ (∀ m, domOf (modPort k g s) m = domOf s m) ∧ (∀ m, clkOf (modPort k g s) m = clkOf s m) ∧ (∀ m, kOf (modPort k g s) m = kOf s m) ∧ (∀ m, linkLive (modPort k g s) m = linkLive s m) ∧ (∀ m, lpUp (modPort k g s) m = lpUp s m)
    ∧ (∀ m, isDen (modPort k g s) m = isDen s m) ∧ (∀ m, isCxl (modPort k g s) m = isCxl s m) ∧ (∀ m, isHost (modPort k g s) m = isHost s m) ∧ (∀ m, routeEntry (modPort k g s) m = routeEntry s m) :=
  ⟨rfl, rfl, rfl, rfl, rfl, rfl, rfl, rfl, rfl, rfl, rfl, rfl, rfl, rfl, rfl, rfl, rfl, rfl, rfl, rfl, rfl, rfl, rfl, rfl, rfl, rfl, rfl, rfl, rfl, rfl, rfl, rfl, rfl, rfl, rfl, rfl, rfl, rfl, rfl, rfl, rfl, rfl, rfl, rfl, rfl, rfl, rfl, fun _ => rfl, fun _ => rfl, fun _ => rfl, fun _ => rfl, fun _ => rfl, fun _ => rfl, fun _ => rfl, fun _ => rfl, fun _ => rfl, fun _ => rfl, fun _ => rfl, fun _ => rfl, fun _ => rfl, fun _ => rfl, fun _ => rfl, fun _ => rfl, fun _ => rfl, fun _ => rfl, fun _ => rfl, fun _ => rfl, fun _ => rfl, fun _ => rfl, fun _ => rfl⟩
@[simp] theorem modPort_ports (k : Nat) (g : PortSt → PortSt) (s : State) : (modPort k g s).net.ports = tmod s.net.ports k g := rfl
@[simp] theorem modPort_portOf_self (k : Nat) (g : PortSt → PortSt) (s : State) : portOf (modPort k g s) k = g (portOf s k) := tget_tmod_self _ _ _
theorem modPort_portOf_ne (k : Nat) (g : PortSt → PortSt) (s : State) (m : Nat) (h : m ≠ k) : portOf (modPort k g s) m = portOf s m := tget_tmod_ne _ _ _ _ h

/-- `modLane` leaves the rest of the state alone. -/
@[simp] theorem modLane_frame (k : Nat) (g : LaneSt → LaneSt) (s : State) :
    (modLane k g s).pending = s.pending ∧ (modLane k g s).dev = s.dev ∧ (modLane k g s).ft = s.ft ∧ (modLane k g s).io = s.io ∧ (modLane k g s).hoard = s.hoard ∧ (modLane k g s).dur = s.dur
    ∧ (modLane k g s).hib = s.hib ∧ (modLane k g s).journal = s.journal ∧ (modLane k g s).log = s.log ∧ (modLane k g s).errs = s.errs ∧ (modLane k g s).sic = s.sic ∧ (modLane k g s).ctr = s.ctr
    ∧ (modLane k g s).hb = s.hb ∧ (modLane k g s).grave = s.grave ∧ (modLane k g s).mbx = s.mbx ∧ (modLane k g s).i3c = s.i3c ∧ (modLane k g s).cmd = s.cmd ∧ (modLane k g s).sec = s.sec
    ∧ (modLane k g s).fuses = s.fuses ∧ (modLane k g s).ledger = s.ledger ∧ (modLane k g s).start = s.start ∧ (modLane k g s).disc = s.disc ∧ (modLane k g s).sw = s.sw ∧ (modLane k g s).tm = s.tm
    ∧ (modLane k g s).slices = s.slices ∧ (modLane k g s).coh = s.coh ∧ (modLane k g s).drey = s.drey ∧ (modLane k g s).scrubHours = s.scrubHours ∧ (modLane k g s).ten = s.ten ∧ (modLane k g s).pwr = s.pwr
    ∧ (modLane k g s).cages = s.cages ∧ (modLane k g s).therm = s.therm ∧ (modLane k g s).pins = s.pins ∧ (modLane k g s).free = s.free ∧ (modLane k g s).outbox = s.outbox ∧ now (modLane k g s) = now s
    ∧ ftCount (modLane k g s) = ftCount s ∧ (modLane k g s).net.ports = s.net.ports ∧ (modLane k g s).net.lps = s.net.lps ∧ (modLane k g s).net.wins = s.net.wins ∧ (modLane k g s).net.tx = s.net.tx ∧ (modLane k g s).net.rx = s.net.rx
    ∧ (modLane k g s).net.init = s.net.init ∧ (modLane k g s).net.fail = s.net.fail ∧ (modLane k g s).net.cxl = s.net.cxl ∧ (modLane k g s).net.denOut = s.net.denOut ∧ (modLane k g s).net.fallen = s.net.fallen ∧ (∀ m, lpOf (modLane k g s) m = lpOf s m)
    ∧ (∀ m, cfgOf (modLane k g s) m = cfgOf s m) ∧ (∀ m, portOf (modLane k g s) m = portOf s m) ∧ (∀ m, txOf (modLane k g s) m = txOf s m) ∧ (∀ m, rxOf (modLane k g s) m = rxOf s m) ∧ (∀ m, initOf (modLane k g s) m = initOf s m) ∧ (∀ m, failOf (modLane k g s) m = failOf s m)
    ∧ (∀ m, cxlOf (modLane k g s) m = cxlOf s m) ∧ (∀ m, winOf (modLane k g s) m = winOf s m) ∧ (∀ m, egressOf (modLane k g s) m = egressOf s m) ∧ (∀ m, bindOf (modLane k g s) m = bindOf s m) ∧ (∀ m, tgOf (modLane k g s) m = tgOf s m) ∧ (∀ m, slOf (modLane k g s) m = slOf s m)
    ∧ (∀ m, dreyOf (modLane k g s) m = dreyOf s m) ∧ (∀ m, cageOf (modLane k g s) m = cageOf s m) ∧ (∀ m, domOf (modLane k g s) m = domOf s m) ∧ (∀ m, clkOf (modLane k g s) m = clkOf s m) ∧ (∀ m, kOf (modLane k g s) m = kOf s m) ∧ (∀ m, linkLive (modLane k g s) m = linkLive s m)
    ∧ (∀ m, lpUp (modLane k g s) m = lpUp s m) ∧ (∀ m, isDen (modLane k g s) m = isDen s m) ∧ (∀ m, isCxl (modLane k g s) m = isCxl s m) ∧ (∀ m, isHost (modLane k g s) m = isHost s m) ∧ (∀ m, routeEntry (modLane k g s) m = routeEntry s m) :=
  ⟨rfl, rfl, rfl, rfl, rfl, rfl, rfl, rfl, rfl, rfl, rfl, rfl, rfl, rfl, rfl, rfl, rfl, rfl, rfl, rfl, rfl, rfl, rfl, rfl, rfl, rfl, rfl, rfl, rfl, rfl, rfl, rfl, rfl, rfl, rfl, rfl, rfl, rfl, rfl, rfl, rfl, rfl, rfl, rfl, rfl, rfl, rfl, fun _ => rfl, fun _ => rfl, fun _ => rfl, fun _ => rfl, fun _ => rfl, fun _ => rfl, fun _ => rfl, fun _ => rfl, fun _ => rfl, fun _ => rfl, fun _ => rfl, fun _ => rfl, fun _ => rfl, fun _ => rfl, fun _ => rfl, fun _ => rfl, fun _ => rfl, fun _ => rfl, fun _ => rfl, fun _ => rfl, fun _ => rfl, fun _ => rfl, fun _ => rfl, fun _ => rfl⟩
@[simp] theorem modLane_lanes (k : Nat) (g : LaneSt → LaneSt) (s : State) : (modLane k g s).net.lanes = tmod s.net.lanes k g := rfl

/-- `modTx` leaves the rest of the state alone. -/
@[simp] theorem modTx_frame (k : Nat) (g : DenTx → DenTx) (s : State) :
    (modTx k g s).pending = s.pending ∧ (modTx k g s).dev = s.dev ∧ (modTx k g s).ft = s.ft ∧ (modTx k g s).io = s.io ∧ (modTx k g s).hoard = s.hoard ∧ (modTx k g s).dur = s.dur
    ∧ (modTx k g s).hib = s.hib ∧ (modTx k g s).journal = s.journal ∧ (modTx k g s).log = s.log ∧ (modTx k g s).errs = s.errs ∧ (modTx k g s).sic = s.sic ∧ (modTx k g s).ctr = s.ctr
    ∧ (modTx k g s).hb = s.hb ∧ (modTx k g s).grave = s.grave ∧ (modTx k g s).mbx = s.mbx ∧ (modTx k g s).i3c = s.i3c ∧ (modTx k g s).cmd = s.cmd ∧ (modTx k g s).sec = s.sec
    ∧ (modTx k g s).fuses = s.fuses ∧ (modTx k g s).ledger = s.ledger ∧ (modTx k g s).start = s.start ∧ (modTx k g s).disc = s.disc ∧ (modTx k g s).sw = s.sw ∧ (modTx k g s).tm = s.tm
    ∧ (modTx k g s).slices = s.slices ∧ (modTx k g s).coh = s.coh ∧ (modTx k g s).drey = s.drey ∧ (modTx k g s).scrubHours = s.scrubHours ∧ (modTx k g s).ten = s.ten ∧ (modTx k g s).pwr = s.pwr
    ∧ (modTx k g s).cages = s.cages ∧ (modTx k g s).therm = s.therm ∧ (modTx k g s).pins = s.pins ∧ (modTx k g s).free = s.free ∧ (modTx k g s).outbox = s.outbox ∧ now (modTx k g s) = now s
    ∧ ftCount (modTx k g s) = ftCount s ∧ (modTx k g s).net.ports = s.net.ports ∧ (modTx k g s).net.lanes = s.net.lanes ∧ (modTx k g s).net.lps = s.net.lps ∧ (modTx k g s).net.wins = s.net.wins ∧ (modTx k g s).net.rx = s.net.rx
    ∧ (modTx k g s).net.init = s.net.init ∧ (modTx k g s).net.fail = s.net.fail ∧ (modTx k g s).net.cxl = s.net.cxl ∧ (modTx k g s).net.denOut = s.net.denOut ∧ (modTx k g s).net.fallen = s.net.fallen ∧ (∀ m, lpOf (modTx k g s) m = lpOf s m)
    ∧ (∀ m, cfgOf (modTx k g s) m = cfgOf s m) ∧ (∀ m, portOf (modTx k g s) m = portOf s m) ∧ (∀ m, rxOf (modTx k g s) m = rxOf s m) ∧ (∀ m, initOf (modTx k g s) m = initOf s m) ∧ (∀ m, failOf (modTx k g s) m = failOf s m) ∧ (∀ m, cxlOf (modTx k g s) m = cxlOf s m)
    ∧ (∀ m, winOf (modTx k g s) m = winOf s m) ∧ (∀ m, egressOf (modTx k g s) m = egressOf s m) ∧ (∀ m, bindOf (modTx k g s) m = bindOf s m) ∧ (∀ m, tgOf (modTx k g s) m = tgOf s m) ∧ (∀ m, slOf (modTx k g s) m = slOf s m) ∧ (∀ m, dreyOf (modTx k g s) m = dreyOf s m)
    ∧ (∀ m, cageOf (modTx k g s) m = cageOf s m) ∧ (∀ m, domOf (modTx k g s) m = domOf s m) ∧ (∀ m, clkOf (modTx k g s) m = clkOf s m) ∧ (∀ m, kOf (modTx k g s) m = kOf s m) ∧ (∀ m, linkLive (modTx k g s) m = linkLive s m) ∧ (∀ m, lpUp (modTx k g s) m = lpUp s m)
    ∧ (∀ m, isDen (modTx k g s) m = isDen s m) ∧ (∀ m, isCxl (modTx k g s) m = isCxl s m) ∧ (∀ m, isHost (modTx k g s) m = isHost s m) ∧ (∀ m, routeEntry (modTx k g s) m = routeEntry s m) :=
  ⟨rfl, rfl, rfl, rfl, rfl, rfl, rfl, rfl, rfl, rfl, rfl, rfl, rfl, rfl, rfl, rfl, rfl, rfl, rfl, rfl, rfl, rfl, rfl, rfl, rfl, rfl, rfl, rfl, rfl, rfl, rfl, rfl, rfl, rfl, rfl, rfl, rfl, rfl, rfl, rfl, rfl, rfl, rfl, rfl, rfl, rfl, rfl, fun _ => rfl, fun _ => rfl, fun _ => rfl, fun _ => rfl, fun _ => rfl, fun _ => rfl, fun _ => rfl, fun _ => rfl, fun _ => rfl, fun _ => rfl, fun _ => rfl, fun _ => rfl, fun _ => rfl, fun _ => rfl, fun _ => rfl, fun _ => rfl, fun _ => rfl, fun _ => rfl, fun _ => rfl, fun _ => rfl, fun _ => rfl, fun _ => rfl, fun _ => rfl⟩
@[simp] theorem modTx_tx (k : Nat) (g : DenTx → DenTx) (s : State) : (modTx k g s).net.tx = tmod s.net.tx k g := rfl
@[simp] theorem modTx_txOf_self (k : Nat) (g : DenTx → DenTx) (s : State) : txOf (modTx k g s) k = g (txOf s k) := tget_tmod_self _ _ _
theorem modTx_txOf_ne (k : Nat) (g : DenTx → DenTx) (s : State) (m : Nat) (h : m ≠ k) : txOf (modTx k g s) m = txOf s m := tget_tmod_ne _ _ _ _ h

/-- `modRx` leaves the rest of the state alone. -/
@[simp] theorem modRx_frame (k : Nat) (g : DenRx → DenRx) (s : State) :
    (modRx k g s).pending = s.pending ∧ (modRx k g s).dev = s.dev ∧ (modRx k g s).ft = s.ft ∧ (modRx k g s).io = s.io ∧ (modRx k g s).hoard = s.hoard ∧ (modRx k g s).dur = s.dur
    ∧ (modRx k g s).hib = s.hib ∧ (modRx k g s).journal = s.journal ∧ (modRx k g s).log = s.log ∧ (modRx k g s).errs = s.errs ∧ (modRx k g s).sic = s.sic ∧ (modRx k g s).ctr = s.ctr
    ∧ (modRx k g s).hb = s.hb ∧ (modRx k g s).grave = s.grave ∧ (modRx k g s).mbx = s.mbx ∧ (modRx k g s).i3c = s.i3c ∧ (modRx k g s).cmd = s.cmd ∧ (modRx k g s).sec = s.sec
    ∧ (modRx k g s).fuses = s.fuses ∧ (modRx k g s).ledger = s.ledger ∧ (modRx k g s).start = s.start ∧ (modRx k g s).disc = s.disc ∧ (modRx k g s).sw = s.sw ∧ (modRx k g s).tm = s.tm
    ∧ (modRx k g s).slices = s.slices ∧ (modRx k g s).coh = s.coh ∧ (modRx k g s).drey = s.drey ∧ (modRx k g s).scrubHours = s.scrubHours ∧ (modRx k g s).ten = s.ten ∧ (modRx k g s).pwr = s.pwr
    ∧ (modRx k g s).cages = s.cages ∧ (modRx k g s).therm = s.therm ∧ (modRx k g s).pins = s.pins ∧ (modRx k g s).free = s.free ∧ (modRx k g s).outbox = s.outbox ∧ now (modRx k g s) = now s
    ∧ ftCount (modRx k g s) = ftCount s ∧ (modRx k g s).net.ports = s.net.ports ∧ (modRx k g s).net.lanes = s.net.lanes ∧ (modRx k g s).net.lps = s.net.lps ∧ (modRx k g s).net.wins = s.net.wins ∧ (modRx k g s).net.tx = s.net.tx
    ∧ (modRx k g s).net.init = s.net.init ∧ (modRx k g s).net.fail = s.net.fail ∧ (modRx k g s).net.cxl = s.net.cxl ∧ (modRx k g s).net.denOut = s.net.denOut ∧ (modRx k g s).net.fallen = s.net.fallen ∧ (∀ m, lpOf (modRx k g s) m = lpOf s m)
    ∧ (∀ m, cfgOf (modRx k g s) m = cfgOf s m) ∧ (∀ m, portOf (modRx k g s) m = portOf s m) ∧ (∀ m, txOf (modRx k g s) m = txOf s m) ∧ (∀ m, initOf (modRx k g s) m = initOf s m) ∧ (∀ m, failOf (modRx k g s) m = failOf s m) ∧ (∀ m, cxlOf (modRx k g s) m = cxlOf s m)
    ∧ (∀ m, winOf (modRx k g s) m = winOf s m) ∧ (∀ m, egressOf (modRx k g s) m = egressOf s m) ∧ (∀ m, bindOf (modRx k g s) m = bindOf s m) ∧ (∀ m, tgOf (modRx k g s) m = tgOf s m) ∧ (∀ m, slOf (modRx k g s) m = slOf s m) ∧ (∀ m, dreyOf (modRx k g s) m = dreyOf s m)
    ∧ (∀ m, cageOf (modRx k g s) m = cageOf s m) ∧ (∀ m, domOf (modRx k g s) m = domOf s m) ∧ (∀ m, clkOf (modRx k g s) m = clkOf s m) ∧ (∀ m, kOf (modRx k g s) m = kOf s m) ∧ (∀ m, linkLive (modRx k g s) m = linkLive s m) ∧ (∀ m, lpUp (modRx k g s) m = lpUp s m)
    ∧ (∀ m, isDen (modRx k g s) m = isDen s m) ∧ (∀ m, isCxl (modRx k g s) m = isCxl s m) ∧ (∀ m, isHost (modRx k g s) m = isHost s m) ∧ (∀ m, routeEntry (modRx k g s) m = routeEntry s m) :=
  ⟨rfl, rfl, rfl, rfl, rfl, rfl, rfl, rfl, rfl, rfl, rfl, rfl, rfl, rfl, rfl, rfl, rfl, rfl, rfl, rfl, rfl, rfl, rfl, rfl, rfl, rfl, rfl, rfl, rfl, rfl, rfl, rfl, rfl, rfl, rfl, rfl, rfl, rfl, rfl, rfl, rfl, rfl, rfl, rfl, rfl, rfl, rfl, fun _ => rfl, fun _ => rfl, fun _ => rfl, fun _ => rfl, fun _ => rfl, fun _ => rfl, fun _ => rfl, fun _ => rfl, fun _ => rfl, fun _ => rfl, fun _ => rfl, fun _ => rfl, fun _ => rfl, fun _ => rfl, fun _ => rfl, fun _ => rfl, fun _ => rfl, fun _ => rfl, fun _ => rfl, fun _ => rfl, fun _ => rfl, fun _ => rfl, fun _ => rfl⟩
@[simp] theorem modRx_rx (k : Nat) (g : DenRx → DenRx) (s : State) : (modRx k g s).net.rx = tmod s.net.rx k g := rfl
@[simp] theorem modRx_rxOf_self (k : Nat) (g : DenRx → DenRx) (s : State) : rxOf (modRx k g s) k = g (rxOf s k) := tget_tmod_self _ _ _
theorem modRx_rxOf_ne (k : Nat) (g : DenRx → DenRx) (s : State) (m : Nat) (h : m ≠ k) : rxOf (modRx k g s) m = rxOf s m := tget_tmod_ne _ _ _ _ h

/-- `modInit` leaves the rest of the state alone. -/
@[simp] theorem modInit_frame (k : Nat) (g : DenInit → DenInit) (s : State) :
    (modInit k g s).pending = s.pending ∧ (modInit k g s).dev = s.dev ∧ (modInit k g s).ft = s.ft ∧ (modInit k g s).io = s.io ∧ (modInit k g s).hoard = s.hoard ∧ (modInit k g s).dur = s.dur
    ∧ (modInit k g s).hib = s.hib ∧ (modInit k g s).journal = s.journal ∧ (modInit k g s).log = s.log ∧ (modInit k g s).errs = s.errs ∧ (modInit k g s).sic = s.sic ∧ (modInit k g s).ctr = s.ctr
    ∧ (modInit k g s).hb = s.hb ∧ (modInit k g s).grave = s.grave ∧ (modInit k g s).mbx = s.mbx ∧ (modInit k g s).i3c = s.i3c ∧ (modInit k g s).cmd = s.cmd ∧ (modInit k g s).sec = s.sec
    ∧ (modInit k g s).fuses = s.fuses ∧ (modInit k g s).ledger = s.ledger ∧ (modInit k g s).start = s.start ∧ (modInit k g s).disc = s.disc ∧ (modInit k g s).sw = s.sw ∧ (modInit k g s).tm = s.tm
    ∧ (modInit k g s).slices = s.slices ∧ (modInit k g s).coh = s.coh ∧ (modInit k g s).drey = s.drey ∧ (modInit k g s).scrubHours = s.scrubHours ∧ (modInit k g s).ten = s.ten ∧ (modInit k g s).pwr = s.pwr
    ∧ (modInit k g s).cages = s.cages ∧ (modInit k g s).therm = s.therm ∧ (modInit k g s).pins = s.pins ∧ (modInit k g s).free = s.free ∧ (modInit k g s).outbox = s.outbox ∧ now (modInit k g s) = now s
    ∧ ftCount (modInit k g s) = ftCount s ∧ (modInit k g s).net.ports = s.net.ports ∧ (modInit k g s).net.lanes = s.net.lanes ∧ (modInit k g s).net.lps = s.net.lps ∧ (modInit k g s).net.wins = s.net.wins ∧ (modInit k g s).net.tx = s.net.tx
    ∧ (modInit k g s).net.rx = s.net.rx ∧ (modInit k g s).net.fail = s.net.fail ∧ (modInit k g s).net.cxl = s.net.cxl ∧ (modInit k g s).net.denOut = s.net.denOut ∧ (modInit k g s).net.fallen = s.net.fallen ∧ (∀ m, lpOf (modInit k g s) m = lpOf s m)
    ∧ (∀ m, cfgOf (modInit k g s) m = cfgOf s m) ∧ (∀ m, portOf (modInit k g s) m = portOf s m) ∧ (∀ m, txOf (modInit k g s) m = txOf s m) ∧ (∀ m, rxOf (modInit k g s) m = rxOf s m) ∧ (∀ m, failOf (modInit k g s) m = failOf s m) ∧ (∀ m, cxlOf (modInit k g s) m = cxlOf s m)
    ∧ (∀ m, winOf (modInit k g s) m = winOf s m) ∧ (∀ m, egressOf (modInit k g s) m = egressOf s m) ∧ (∀ m, bindOf (modInit k g s) m = bindOf s m) ∧ (∀ m, tgOf (modInit k g s) m = tgOf s m) ∧ (∀ m, slOf (modInit k g s) m = slOf s m) ∧ (∀ m, dreyOf (modInit k g s) m = dreyOf s m)
    ∧ (∀ m, cageOf (modInit k g s) m = cageOf s m) ∧ (∀ m, domOf (modInit k g s) m = domOf s m) ∧ (∀ m, clkOf (modInit k g s) m = clkOf s m) ∧ (∀ m, kOf (modInit k g s) m = kOf s m) ∧ (∀ m, linkLive (modInit k g s) m = linkLive s m) ∧ (∀ m, lpUp (modInit k g s) m = lpUp s m)
    ∧ (∀ m, isDen (modInit k g s) m = isDen s m) ∧ (∀ m, isCxl (modInit k g s) m = isCxl s m) ∧ (∀ m, isHost (modInit k g s) m = isHost s m) ∧ (∀ m, routeEntry (modInit k g s) m = routeEntry s m) :=
  ⟨rfl, rfl, rfl, rfl, rfl, rfl, rfl, rfl, rfl, rfl, rfl, rfl, rfl, rfl, rfl, rfl, rfl, rfl, rfl, rfl, rfl, rfl, rfl, rfl, rfl, rfl, rfl, rfl, rfl, rfl, rfl, rfl, rfl, rfl, rfl, rfl, rfl, rfl, rfl, rfl, rfl, rfl, rfl, rfl, rfl, rfl, rfl, fun _ => rfl, fun _ => rfl, fun _ => rfl, fun _ => rfl, fun _ => rfl, fun _ => rfl, fun _ => rfl, fun _ => rfl, fun _ => rfl, fun _ => rfl, fun _ => rfl, fun _ => rfl, fun _ => rfl, fun _ => rfl, fun _ => rfl, fun _ => rfl, fun _ => rfl, fun _ => rfl, fun _ => rfl, fun _ => rfl, fun _ => rfl, fun _ => rfl, fun _ => rfl⟩
@[simp] theorem modInit_init (k : Nat) (g : DenInit → DenInit) (s : State) : (modInit k g s).net.init = tmod s.net.init k g := rfl
@[simp] theorem modInit_initOf_self (k : Nat) (g : DenInit → DenInit) (s : State) : initOf (modInit k g s) k = g (initOf s k) := tget_tmod_self _ _ _
theorem modInit_initOf_ne (k : Nat) (g : DenInit → DenInit) (s : State) (m : Nat) (h : m ≠ k) : initOf (modInit k g s) m = initOf s m := tget_tmod_ne _ _ _ _ h

/-- `modFail` leaves the rest of the state alone. -/
@[simp] theorem modFail_frame (k : Nat) (g : Failover → Failover) (s : State) :
    (modFail k g s).pending = s.pending ∧ (modFail k g s).dev = s.dev ∧ (modFail k g s).ft = s.ft ∧ (modFail k g s).io = s.io ∧ (modFail k g s).hoard = s.hoard ∧ (modFail k g s).dur = s.dur
    ∧ (modFail k g s).hib = s.hib ∧ (modFail k g s).journal = s.journal ∧ (modFail k g s).log = s.log ∧ (modFail k g s).errs = s.errs ∧ (modFail k g s).sic = s.sic ∧ (modFail k g s).ctr = s.ctr
    ∧ (modFail k g s).hb = s.hb ∧ (modFail k g s).grave = s.grave ∧ (modFail k g s).mbx = s.mbx ∧ (modFail k g s).i3c = s.i3c ∧ (modFail k g s).cmd = s.cmd ∧ (modFail k g s).sec = s.sec
    ∧ (modFail k g s).fuses = s.fuses ∧ (modFail k g s).ledger = s.ledger ∧ (modFail k g s).start = s.start ∧ (modFail k g s).disc = s.disc ∧ (modFail k g s).sw = s.sw ∧ (modFail k g s).tm = s.tm
    ∧ (modFail k g s).slices = s.slices ∧ (modFail k g s).coh = s.coh ∧ (modFail k g s).drey = s.drey ∧ (modFail k g s).scrubHours = s.scrubHours ∧ (modFail k g s).ten = s.ten ∧ (modFail k g s).pwr = s.pwr
    ∧ (modFail k g s).cages = s.cages ∧ (modFail k g s).therm = s.therm ∧ (modFail k g s).pins = s.pins ∧ (modFail k g s).free = s.free ∧ (modFail k g s).outbox = s.outbox ∧ now (modFail k g s) = now s
    ∧ ftCount (modFail k g s) = ftCount s ∧ (modFail k g s).net.ports = s.net.ports ∧ (modFail k g s).net.lanes = s.net.lanes ∧ (modFail k g s).net.lps = s.net.lps ∧ (modFail k g s).net.wins = s.net.wins ∧ (modFail k g s).net.tx = s.net.tx
    ∧ (modFail k g s).net.rx = s.net.rx ∧ (modFail k g s).net.init = s.net.init ∧ (modFail k g s).net.cxl = s.net.cxl ∧ (modFail k g s).net.denOut = s.net.denOut ∧ (modFail k g s).net.fallen = s.net.fallen ∧ (∀ m, lpOf (modFail k g s) m = lpOf s m)
    ∧ (∀ m, cfgOf (modFail k g s) m = cfgOf s m) ∧ (∀ m, portOf (modFail k g s) m = portOf s m) ∧ (∀ m, txOf (modFail k g s) m = txOf s m) ∧ (∀ m, rxOf (modFail k g s) m = rxOf s m) ∧ (∀ m, initOf (modFail k g s) m = initOf s m) ∧ (∀ m, cxlOf (modFail k g s) m = cxlOf s m)
    ∧ (∀ m, winOf (modFail k g s) m = winOf s m) ∧ (∀ m, egressOf (modFail k g s) m = egressOf s m) ∧ (∀ m, bindOf (modFail k g s) m = bindOf s m) ∧ (∀ m, tgOf (modFail k g s) m = tgOf s m) ∧ (∀ m, slOf (modFail k g s) m = slOf s m) ∧ (∀ m, dreyOf (modFail k g s) m = dreyOf s m)
    ∧ (∀ m, cageOf (modFail k g s) m = cageOf s m) ∧ (∀ m, domOf (modFail k g s) m = domOf s m) ∧ (∀ m, clkOf (modFail k g s) m = clkOf s m) ∧ (∀ m, kOf (modFail k g s) m = kOf s m) ∧ (∀ m, linkLive (modFail k g s) m = linkLive s m) ∧ (∀ m, lpUp (modFail k g s) m = lpUp s m)
    ∧ (∀ m, isDen (modFail k g s) m = isDen s m) ∧ (∀ m, isCxl (modFail k g s) m = isCxl s m) ∧ (∀ m, isHost (modFail k g s) m = isHost s m) ∧ (∀ m, routeEntry (modFail k g s) m = routeEntry s m) :=
  ⟨rfl, rfl, rfl, rfl, rfl, rfl, rfl, rfl, rfl, rfl, rfl, rfl, rfl, rfl, rfl, rfl, rfl, rfl, rfl, rfl, rfl, rfl, rfl, rfl, rfl, rfl, rfl, rfl, rfl, rfl, rfl, rfl, rfl, rfl, rfl, rfl, rfl, rfl, rfl, rfl, rfl, rfl, rfl, rfl, rfl, rfl, rfl, fun _ => rfl, fun _ => rfl, fun _ => rfl, fun _ => rfl, fun _ => rfl, fun _ => rfl, fun _ => rfl, fun _ => rfl, fun _ => rfl, fun _ => rfl, fun _ => rfl, fun _ => rfl, fun _ => rfl, fun _ => rfl, fun _ => rfl, fun _ => rfl, fun _ => rfl, fun _ => rfl, fun _ => rfl, fun _ => rfl, fun _ => rfl, fun _ => rfl, fun _ => rfl⟩
@[simp] theorem modFail_fail (k : Nat) (g : Failover → Failover) (s : State) : (modFail k g s).net.fail = tmod s.net.fail k g := rfl
@[simp] theorem modFail_failOf_self (k : Nat) (g : Failover → Failover) (s : State) : failOf (modFail k g s) k = g (failOf s k) := tget_tmod_self _ _ _
theorem modFail_failOf_ne (k : Nat) (g : Failover → Failover) (s : State) (m : Nat) (h : m ≠ k) : failOf (modFail k g s) m = failOf s m := tget_tmod_ne _ _ _ _ h

/-- `modCxl` leaves the rest of the state alone. -/
@[simp] theorem modCxl_frame (k : Nat) (g : CxlSt → CxlSt) (s : State) :
    (modCxl k g s).pending = s.pending ∧ (modCxl k g s).dev = s.dev ∧ (modCxl k g s).ft = s.ft ∧ (modCxl k g s).io = s.io ∧ (modCxl k g s).hoard = s.hoard ∧ (modCxl k g s).dur = s.dur
    ∧ (modCxl k g s).hib = s.hib ∧ (modCxl k g s).journal = s.journal ∧ (modCxl k g s).log = s.log ∧ (modCxl k g s).errs = s.errs ∧ (modCxl k g s).sic = s.sic ∧ (modCxl k g s).ctr = s.ctr
    ∧ (modCxl k g s).hb = s.hb ∧ (modCxl k g s).grave = s.grave ∧ (modCxl k g s).mbx = s.mbx ∧ (modCxl k g s).i3c = s.i3c ∧ (modCxl k g s).cmd = s.cmd ∧ (modCxl k g s).sec = s.sec
    ∧ (modCxl k g s).fuses = s.fuses ∧ (modCxl k g s).ledger = s.ledger ∧ (modCxl k g s).start = s.start ∧ (modCxl k g s).disc = s.disc ∧ (modCxl k g s).sw = s.sw ∧ (modCxl k g s).tm = s.tm
    ∧ (modCxl k g s).slices = s.slices ∧ (modCxl k g s).coh = s.coh ∧ (modCxl k g s).drey = s.drey ∧ (modCxl k g s).scrubHours = s.scrubHours ∧ (modCxl k g s).ten = s.ten ∧ (modCxl k g s).pwr = s.pwr
    ∧ (modCxl k g s).cages = s.cages ∧ (modCxl k g s).therm = s.therm ∧ (modCxl k g s).pins = s.pins ∧ (modCxl k g s).free = s.free ∧ (modCxl k g s).outbox = s.outbox ∧ now (modCxl k g s) = now s
    ∧ ftCount (modCxl k g s) = ftCount s ∧ (modCxl k g s).net.ports = s.net.ports ∧ (modCxl k g s).net.lanes = s.net.lanes ∧ (modCxl k g s).net.lps = s.net.lps ∧ (modCxl k g s).net.wins = s.net.wins ∧ (modCxl k g s).net.tx = s.net.tx
    ∧ (modCxl k g s).net.rx = s.net.rx ∧ (modCxl k g s).net.init = s.net.init ∧ (modCxl k g s).net.fail = s.net.fail ∧ (modCxl k g s).net.denOut = s.net.denOut ∧ (modCxl k g s).net.fallen = s.net.fallen ∧ (∀ m, lpOf (modCxl k g s) m = lpOf s m)
    ∧ (∀ m, cfgOf (modCxl k g s) m = cfgOf s m) ∧ (∀ m, portOf (modCxl k g s) m = portOf s m) ∧ (∀ m, txOf (modCxl k g s) m = txOf s m) ∧ (∀ m, rxOf (modCxl k g s) m = rxOf s m) ∧ (∀ m, initOf (modCxl k g s) m = initOf s m) ∧ (∀ m, failOf (modCxl k g s) m = failOf s m)
    ∧ (∀ m, winOf (modCxl k g s) m = winOf s m) ∧ (∀ m, egressOf (modCxl k g s) m = egressOf s m) ∧ (∀ m, bindOf (modCxl k g s) m = bindOf s m) ∧ (∀ m, tgOf (modCxl k g s) m = tgOf s m) ∧ (∀ m, slOf (modCxl k g s) m = slOf s m) ∧ (∀ m, dreyOf (modCxl k g s) m = dreyOf s m)
    ∧ (∀ m, cageOf (modCxl k g s) m = cageOf s m) ∧ (∀ m, domOf (modCxl k g s) m = domOf s m) ∧ (∀ m, clkOf (modCxl k g s) m = clkOf s m) ∧ (∀ m, kOf (modCxl k g s) m = kOf s m) ∧ (∀ m, linkLive (modCxl k g s) m = linkLive s m) ∧ (∀ m, lpUp (modCxl k g s) m = lpUp s m)
    ∧ (∀ m, isDen (modCxl k g s) m = isDen s m) ∧ (∀ m, isCxl (modCxl k g s) m = isCxl s m) ∧ (∀ m, isHost (modCxl k g s) m = isHost s m) ∧ (∀ m, routeEntry (modCxl k g s) m = routeEntry s m) :=
  ⟨rfl, rfl, rfl, rfl, rfl, rfl, rfl, rfl, rfl, rfl, rfl, rfl, rfl, rfl, rfl, rfl, rfl, rfl, rfl, rfl, rfl, rfl, rfl, rfl, rfl, rfl, rfl, rfl, rfl, rfl, rfl, rfl, rfl, rfl, rfl, rfl, rfl, rfl, rfl, rfl, rfl, rfl, rfl, rfl, rfl, rfl, rfl, fun _ => rfl, fun _ => rfl, fun _ => rfl, fun _ => rfl, fun _ => rfl, fun _ => rfl, fun _ => rfl, fun _ => rfl, fun _ => rfl, fun _ => rfl, fun _ => rfl, fun _ => rfl, fun _ => rfl, fun _ => rfl, fun _ => rfl, fun _ => rfl, fun _ => rfl, fun _ => rfl, fun _ => rfl, fun _ => rfl, fun _ => rfl, fun _ => rfl, fun _ => rfl⟩
@[simp] theorem modCxl_cxl (k : Nat) (g : CxlSt → CxlSt) (s : State) : (modCxl k g s).net.cxl = tmod s.net.cxl k g := rfl
@[simp] theorem modCxl_cxlOf_self (k : Nat) (g : CxlSt → CxlSt) (s : State) : cxlOf (modCxl k g s) k = g (cxlOf s k) := tget_tmod_self _ _ _
theorem modCxl_cxlOf_ne (k : Nat) (g : CxlSt → CxlSt) (s : State) (m : Nat) (h : m ≠ k) : cxlOf (modCxl k g s) m = cxlOf s m := tget_tmod_ne _ _ _ _ h

/-- `modWin` leaves the rest of the state alone. -/
@[simp] theorem modWin_frame (k : Nat) (g : WinSt → WinSt) (s : State) :
    (modWin k g s).pending = s.pending ∧ (modWin k g s).dev = s.dev ∧ (modWin k g s).ft = s.ft ∧ (modWin k g s).io = s.io ∧ (modWin k g s).hoard = s.hoard ∧ (modWin k g s).dur = s.dur
    ∧ (modWin k g s).hib = s.hib ∧ (modWin k g s).journal = s.journal ∧ (modWin k g s).log = s.log ∧ (modWin k g s).errs = s.errs ∧ (modWin k g s).sic = s.sic ∧ (modWin k g s).ctr = s.ctr
    ∧ (modWin k g s).hb = s.hb ∧ (modWin k g s).grave = s.grave ∧ (modWin k g s).mbx = s.mbx ∧ (modWin k g s).i3c = s.i3c ∧ (modWin k g s).cmd = s.cmd ∧ (modWin k g s).sec = s.sec
    ∧ (modWin k g s).fuses = s.fuses ∧ (modWin k g s).ledger = s.ledger ∧ (modWin k g s).start = s.start ∧ (modWin k g s).disc = s.disc ∧ (modWin k g s).sw = s.sw ∧ (modWin k g s).tm = s.tm
    ∧ (modWin k g s).slices = s.slices ∧ (modWin k g s).coh = s.coh ∧ (modWin k g s).drey = s.drey ∧ (modWin k g s).scrubHours = s.scrubHours ∧ (modWin k g s).ten = s.ten ∧ (modWin k g s).pwr = s.pwr
    ∧ (modWin k g s).cages = s.cages ∧ (modWin k g s).therm = s.therm ∧ (modWin k g s).pins = s.pins ∧ (modWin k g s).free = s.free ∧ (modWin k g s).outbox = s.outbox ∧ now (modWin k g s) = now s
    ∧ ftCount (modWin k g s) = ftCount s ∧ (modWin k g s).net.ports = s.net.ports ∧ (modWin k g s).net.lanes = s.net.lanes ∧ (modWin k g s).net.lps = s.net.lps ∧ (modWin k g s).net.tx = s.net.tx ∧ (modWin k g s).net.rx = s.net.rx
    ∧ (modWin k g s).net.init = s.net.init ∧ (modWin k g s).net.fail = s.net.fail ∧ (modWin k g s).net.cxl = s.net.cxl ∧ (modWin k g s).net.denOut = s.net.denOut ∧ (modWin k g s).net.fallen = s.net.fallen ∧ (∀ m, lpOf (modWin k g s) m = lpOf s m)
    ∧ (∀ m, cfgOf (modWin k g s) m = cfgOf s m) ∧ (∀ m, portOf (modWin k g s) m = portOf s m) ∧ (∀ m, txOf (modWin k g s) m = txOf s m) ∧ (∀ m, rxOf (modWin k g s) m = rxOf s m) ∧ (∀ m, initOf (modWin k g s) m = initOf s m) ∧ (∀ m, failOf (modWin k g s) m = failOf s m)
    ∧ (∀ m, cxlOf (modWin k g s) m = cxlOf s m) ∧ (∀ m, egressOf (modWin k g s) m = egressOf s m) ∧ (∀ m, bindOf (modWin k g s) m = bindOf s m) ∧ (∀ m, tgOf (modWin k g s) m = tgOf s m) ∧ (∀ m, slOf (modWin k g s) m = slOf s m) ∧ (∀ m, dreyOf (modWin k g s) m = dreyOf s m)
    ∧ (∀ m, cageOf (modWin k g s) m = cageOf s m) ∧ (∀ m, domOf (modWin k g s) m = domOf s m) ∧ (∀ m, clkOf (modWin k g s) m = clkOf s m) ∧ (∀ m, kOf (modWin k g s) m = kOf s m) ∧ (∀ m, linkLive (modWin k g s) m = linkLive s m) ∧ (∀ m, lpUp (modWin k g s) m = lpUp s m)
    ∧ (∀ m, isDen (modWin k g s) m = isDen s m) ∧ (∀ m, isCxl (modWin k g s) m = isCxl s m) ∧ (∀ m, isHost (modWin k g s) m = isHost s m) ∧ (∀ m, routeEntry (modWin k g s) m = routeEntry s m) :=
  ⟨rfl, rfl, rfl, rfl, rfl, rfl, rfl, rfl, rfl, rfl, rfl, rfl, rfl, rfl, rfl, rfl, rfl, rfl, rfl, rfl, rfl, rfl, rfl, rfl, rfl, rfl, rfl, rfl, rfl, rfl, rfl, rfl, rfl, rfl, rfl, rfl, rfl, rfl, rfl, rfl, rfl, rfl, rfl, rfl, rfl, rfl, rfl, fun _ => rfl, fun _ => rfl, fun _ => rfl, fun _ => rfl, fun _ => rfl, fun _ => rfl, fun _ => rfl, fun _ => rfl, fun _ => rfl, fun _ => rfl, fun _ => rfl, fun _ => rfl, fun _ => rfl, fun _ => rfl, fun _ => rfl, fun _ => rfl, fun _ => rfl, fun _ => rfl, fun _ => rfl, fun _ => rfl, fun _ => rfl, fun _ => rfl, fun _ => rfl⟩
@[simp] theorem modWin_wins (k : Nat) (g : WinSt → WinSt) (s : State) : (modWin k g s).net.wins = tmod s.net.wins k g := rfl
@[simp] theorem modWin_winOf_self (k : Nat) (g : WinSt → WinSt) (s : State) : winOf (modWin k g s) k = g (winOf s k) := tget_tmod_self _ _ _
theorem modWin_winOf_ne (k : Nat) (g : WinSt → WinSt) (s : State) (m : Nat) (h : m ≠ k) : winOf (modWin k g s) m = winOf s m := tget_tmod_ne _ _ _ _ h

/-- `modOut` leaves the rest of the state alone. -/
@[simp] theorem modOut_frame (k : Nat) (g : List OutReq → List OutReq) (s : State) :
    (modOut k g s).pending = s.pending ∧ (modOut k g s).dev = s.dev ∧ (modOut k g s).ft = s.ft ∧ (modOut k g s).io = s.io ∧ (modOut k g s).hoard = s.hoard ∧ (modOut k g s).dur = s.dur
    ∧ (modOut k g s).hib = s.hib ∧ (modOut k g s).journal = s.journal ∧ (modOut k g s).log = s.log ∧ (modOut k g s).errs = s.errs ∧ (modOut k g s).sic = s.sic ∧ (modOut k g s).ctr = s.ctr
    ∧ (modOut k g s).hb = s.hb ∧ (modOut k g s).grave = s.grave ∧ (modOut k g s).mbx = s.mbx ∧ (modOut k g s).i3c = s.i3c ∧ (modOut k g s).cmd = s.cmd ∧ (modOut k g s).sec = s.sec
    ∧ (modOut k g s).fuses = s.fuses ∧ (modOut k g s).ledger = s.ledger ∧ (modOut k g s).start = s.start ∧ (modOut k g s).disc = s.disc ∧ (modOut k g s).sw = s.sw ∧ (modOut k g s).tm = s.tm
    ∧ (modOut k g s).slices = s.slices ∧ (modOut k g s).coh = s.coh ∧ (modOut k g s).drey = s.drey ∧ (modOut k g s).scrubHours = s.scrubHours ∧ (modOut k g s).ten = s.ten ∧ (modOut k g s).pwr = s.pwr
    ∧ (modOut k g s).cages = s.cages ∧ (modOut k g s).therm = s.therm ∧ (modOut k g s).pins = s.pins ∧ (modOut k g s).free = s.free ∧ (modOut k g s).outbox = s.outbox ∧ now (modOut k g s) = now s
    ∧ ftCount (modOut k g s) = ftCount s ∧ (modOut k g s).net.ports = s.net.ports ∧ (modOut k g s).net.lanes = s.net.lanes ∧ (modOut k g s).net.lps = s.net.lps ∧ (modOut k g s).net.wins = s.net.wins ∧ (modOut k g s).net.tx = s.net.tx
    ∧ (modOut k g s).net.rx = s.net.rx ∧ (modOut k g s).net.init = s.net.init ∧ (modOut k g s).net.fail = s.net.fail ∧ (modOut k g s).net.cxl = s.net.cxl ∧ (modOut k g s).net.fallen = s.net.fallen ∧ (∀ m, lpOf (modOut k g s) m = lpOf s m)
    ∧ (∀ m, cfgOf (modOut k g s) m = cfgOf s m) ∧ (∀ m, portOf (modOut k g s) m = portOf s m) ∧ (∀ m, txOf (modOut k g s) m = txOf s m) ∧ (∀ m, rxOf (modOut k g s) m = rxOf s m) ∧ (∀ m, initOf (modOut k g s) m = initOf s m) ∧ (∀ m, failOf (modOut k g s) m = failOf s m)
    ∧ (∀ m, cxlOf (modOut k g s) m = cxlOf s m) ∧ (∀ m, winOf (modOut k g s) m = winOf s m) ∧ (∀ m, egressOf (modOut k g s) m = egressOf s m) ∧ (∀ m, bindOf (modOut k g s) m = bindOf s m) ∧ (∀ m, tgOf (modOut k g s) m = tgOf s m) ∧ (∀ m, slOf (modOut k g s) m = slOf s m)
    ∧ (∀ m, dreyOf (modOut k g s) m = dreyOf s m) ∧ (∀ m, cageOf (modOut k g s) m = cageOf s m) ∧ (∀ m, domOf (modOut k g s) m = domOf s m) ∧ (∀ m, clkOf (modOut k g s) m = clkOf s m) ∧ (∀ m, kOf (modOut k g s) m = kOf s m) ∧ (∀ m, linkLive (modOut k g s) m = linkLive s m)
    ∧ (∀ m, lpUp (modOut k g s) m = lpUp s m) ∧ (∀ m, isDen (modOut k g s) m = isDen s m) ∧ (∀ m, isCxl (modOut k g s) m = isCxl s m) ∧ (∀ m, isHost (modOut k g s) m = isHost s m) ∧ (∀ m, routeEntry (modOut k g s) m = routeEntry s m) :=
  ⟨rfl, rfl, rfl, rfl, rfl, rfl, rfl, rfl, rfl, rfl, rfl, rfl, rfl, rfl, rfl, rfl, rfl, rfl, rfl, rfl, rfl, rfl, rfl, rfl, rfl, rfl, rfl, rfl, rfl, rfl, rfl, rfl, rfl, rfl, rfl, rfl, rfl, rfl, rfl, rfl, rfl, rfl, rfl, rfl, rfl, rfl, rfl, fun _ => rfl, fun _ => rfl, fun _ => rfl, fun _ => rfl, fun _ => rfl, fun _ => rfl, fun _ => rfl, fun _ => rfl, fun _ => rfl, fun _ => rfl, fun _ => rfl, fun _ => rfl, fun _ => rfl, fun _ => rfl, fun _ => rfl, fun _ => rfl, fun _ => rfl, fun _ => rfl, fun _ => rfl, fun _ => rfl, fun _ => rfl, fun _ => rfl, fun _ => rfl, fun _ => rfl⟩
@[simp] theorem modOut_denOut (k : Nat) (g : List OutReq → List OutReq) (s : State) : (modOut k g s).net.denOut = tmod s.net.denOut k g := rfl

/-- `modQueue` leaves the rest of the state alone. -/
@[simp] theorem modQueue_frame (k : Nat) (g : QueueSt → QueueSt) (s : State) :
    (modQueue k g s).pending = s.pending ∧ (modQueue k g s).dev = s.dev ∧ (modQueue k g s).ft = s.ft ∧ (modQueue k g s).io = s.io ∧ (modQueue k g s).hoard = s.hoard ∧ (modQueue k g s).dur = s.dur
    ∧ (modQueue k g s).hib = s.hib ∧ (modQueue k g s).journal = s.journal ∧ (modQueue k g s).log = s.log ∧ (modQueue k g s).errs = s.errs ∧ (modQueue k g s).sic = s.sic ∧ (modQueue k g s).ctr = s.ctr
    ∧ (modQueue k g s).hb = s.hb ∧ (modQueue k g s).grave = s.grave ∧ (modQueue k g s).mbx = s.mbx ∧ (modQueue k g s).i3c = s.i3c ∧ (modQueue k g s).cmd = s.cmd ∧ (modQueue k g s).sec = s.sec
    ∧ (modQueue k g s).fuses = s.fuses ∧ (modQueue k g s).ledger = s.ledger ∧ (modQueue k g s).start = s.start ∧ (modQueue k g s).disc = s.disc ∧ (modQueue k g s).net = s.net ∧ (modQueue k g s).tm = s.tm
    ∧ (modQueue k g s).slices = s.slices ∧ (modQueue k g s).coh = s.coh ∧ (modQueue k g s).drey = s.drey ∧ (modQueue k g s).scrubHours = s.scrubHours ∧ (modQueue k g s).ten = s.ten ∧ (modQueue k g s).pwr = s.pwr
    ∧ (modQueue k g s).cages = s.cages ∧ (modQueue k g s).therm = s.therm ∧ (modQueue k g s).pins = s.pins ∧ (modQueue k g s).free = s.free ∧ (modQueue k g s).outbox = s.outbox ∧ now (modQueue k g s) = now s
    ∧ ftCount (modQueue k g s) = ftCount s ∧ (modQueue k g s).sw.routes = s.sw.routes ∧ (modQueue k g s).sw.holds = s.sw.holds ∧ (modQueue k g s).sw.groups = s.sw.groups ∧ (modQueue k g s).sw.merges = s.sw.merges ∧ (modQueue k g s).sw.origs = s.sw.origs
    ∧ (modQueue k g s).sw.reqs = s.sw.reqs ∧ (modQueue k g s).sw.nextId = s.sw.nextId ∧ (modQueue k g s).sw.arbs = s.sw.arbs ∧ (modQueue k g s).sw.egress = s.sw.egress ∧ (modQueue k g s).sw.notices = s.sw.notices ∧ (∀ m, lpOf (modQueue k g s) m = lpOf s m)
    ∧ (∀ m, cfgOf (modQueue k g s) m = cfgOf s m) ∧ (∀ m, portOf (modQueue k g s) m = portOf s m) ∧ (∀ m, txOf (modQueue k g s) m = txOf s m) ∧ (∀ m, rxOf (modQueue k g s) m = rxOf s m) ∧ (∀ m, initOf (modQueue k g s) m = initOf s m) ∧ (∀ m, failOf (modQueue k g s) m = failOf s m)
    ∧ (∀ m, cxlOf (modQueue k g s) m = cxlOf s m) ∧ (∀ m, winOf (modQueue k g s) m = winOf s m) ∧ (∀ m, egressOf (modQueue k g s) m = egressOf s m) ∧ (∀ m, bindOf (modQueue k g s) m = bindOf s m) ∧ (∀ m, tgOf (modQueue k g s) m = tgOf s m) ∧ (∀ m, slOf (modQueue k g s) m = slOf s m)
    ∧ (∀ m, dreyOf (modQueue k g s) m = dreyOf s m) ∧ (∀ m, cageOf (modQueue k g s) m = cageOf s m) ∧ (∀ m, domOf (modQueue k g s) m = domOf s m) ∧ (∀ m, clkOf (modQueue k g s) m = clkOf s m) ∧ (∀ m, kOf (modQueue k g s) m = kOf s m) ∧ (∀ m, linkLive (modQueue k g s) m = linkLive s m)
    ∧ (∀ m, lpUp (modQueue k g s) m = lpUp s m) ∧ (∀ m, isDen (modQueue k g s) m = isDen s m) ∧ (∀ m, isCxl (modQueue k g s) m = isCxl s m) ∧ (∀ m, isHost (modQueue k g s) m = isHost s m) ∧ (∀ m, routeEntry (modQueue k g s) m = routeEntry s m) :=
  ⟨rfl, rfl, rfl, rfl, rfl, rfl, rfl, rfl, rfl, rfl, rfl, rfl, rfl, rfl, rfl, rfl, rfl, rfl, rfl, rfl, rfl, rfl, rfl, rfl, rfl, rfl, rfl, rfl, rfl, rfl, rfl, rfl, rfl, rfl, rfl, rfl, rfl, rfl, rfl, rfl, rfl, rfl, rfl, rfl, rfl, rfl, rfl, fun _ => rfl, fun _ => rfl, fun _ => rfl, fun _ => rfl, fun _ => rfl, fun _ => rfl, fun _ => rfl, fun _ => rfl, fun _ => rfl, fun _ => rfl, fun _ => rfl, fun _ => rfl, fun _ => rfl, fun _ => rfl, fun _ => rfl, fun _ => rfl, fun _ => rfl, fun _ => rfl, fun _ => rfl, fun _ => rfl, fun _ => rfl, fun _ => rfl, fun _ => rfl, fun _ => rfl⟩
@[simp] theorem modQueue_queues (k : Nat) (g : QueueSt → QueueSt) (s : State) : (modQueue k g s).sw.queues = tmod s.sw.queues k g := rfl

/-- `modEgress` leaves the rest of the state alone. -/
@[simp] theorem modEgress_frame (k : Nat) (g : EgressSt → EgressSt) (s : State) :
    (modEgress k g s).pending = s.pending ∧ (modEgress k g s).dev = s.dev ∧ (modEgress k g s).ft = s.ft ∧ (modEgress k g s).io = s.io ∧ (modEgress k g s).hoard = s.hoard ∧ (modEgress k g s).dur = s.dur
    ∧ (modEgress k g s).hib = s.hib ∧ (modEgress k g s).journal = s.journal ∧ (modEgress k g s).log = s.log ∧ (modEgress k g s).errs = s.errs ∧ (modEgress k g s).sic = s.sic ∧ (modEgress k g s).ctr = s.ctr
    ∧ (modEgress k g s).hb = s.hb ∧ (modEgress k g s).grave = s.grave ∧ (modEgress k g s).mbx = s.mbx ∧ (modEgress k g s).i3c = s.i3c ∧ (modEgress k g s).cmd = s.cmd ∧ (modEgress k g s).sec = s.sec
    ∧ (modEgress k g s).fuses = s.fuses ∧ (modEgress k g s).ledger = s.ledger ∧ (modEgress k g s).start = s.start ∧ (modEgress k g s).disc = s.disc ∧ (modEgress k g s).net = s.net ∧ (modEgress k g s).tm = s.tm
    ∧ (modEgress k g s).slices = s.slices ∧ (modEgress k g s).coh = s.coh ∧ (modEgress k g s).drey = s.drey ∧ (modEgress k g s).scrubHours = s.scrubHours ∧ (modEgress k g s).ten = s.ten ∧ (modEgress k g s).pwr = s.pwr
    ∧ (modEgress k g s).cages = s.cages ∧ (modEgress k g s).therm = s.therm ∧ (modEgress k g s).pins = s.pins ∧ (modEgress k g s).free = s.free ∧ (modEgress k g s).outbox = s.outbox ∧ now (modEgress k g s) = now s
    ∧ ftCount (modEgress k g s) = ftCount s ∧ (modEgress k g s).sw.routes = s.sw.routes ∧ (modEgress k g s).sw.holds = s.sw.holds ∧ (modEgress k g s).sw.groups = s.sw.groups ∧ (modEgress k g s).sw.merges = s.sw.merges ∧ (modEgress k g s).sw.origs = s.sw.origs
    ∧ (modEgress k g s).sw.reqs = s.sw.reqs ∧ (modEgress k g s).sw.nextId = s.sw.nextId ∧ (modEgress k g s).sw.arbs = s.sw.arbs ∧ (modEgress k g s).sw.queues = s.sw.queues ∧ (modEgress k g s).sw.notices = s.sw.notices ∧ (∀ m, lpOf (modEgress k g s) m = lpOf s m)
    ∧ (∀ m, cfgOf (modEgress k g s) m = cfgOf s m) ∧ (∀ m, portOf (modEgress k g s) m = portOf s m) ∧ (∀ m, txOf (modEgress k g s) m = txOf s m) ∧ (∀ m, rxOf (modEgress k g s) m = rxOf s m) ∧ (∀ m, initOf (modEgress k g s) m = initOf s m) ∧ (∀ m, failOf (modEgress k g s) m = failOf s m)
    ∧ (∀ m, cxlOf (modEgress k g s) m = cxlOf s m) ∧ (∀ m, winOf (modEgress k g s) m = winOf s m) ∧ (∀ m, bindOf (modEgress k g s) m = bindOf s m) ∧ (∀ m, tgOf (modEgress k g s) m = tgOf s m) ∧ (∀ m, slOf (modEgress k g s) m = slOf s m) ∧ (∀ m, dreyOf (modEgress k g s) m = dreyOf s m)
    ∧ (∀ m, cageOf (modEgress k g s) m = cageOf s m) ∧ (∀ m, domOf (modEgress k g s) m = domOf s m) ∧ (∀ m, clkOf (modEgress k g s) m = clkOf s m) ∧ (∀ m, kOf (modEgress k g s) m = kOf s m) ∧ (∀ m, linkLive (modEgress k g s) m = linkLive s m) ∧ (∀ m, lpUp (modEgress k g s) m = lpUp s m)
    ∧ (∀ m, isDen (modEgress k g s) m = isDen s m) ∧ (∀ m, isCxl (modEgress k g s) m = isCxl s m) ∧ (∀ m, isHost (modEgress k g s) m = isHost s m) ∧ (∀ m, routeEntry (modEgress k g s) m = routeEntry s m) :=
  ⟨rfl, rfl, rfl, rfl, rfl, rfl, rfl, rfl, rfl, rfl, rfl, rfl, rfl, rfl, rfl, rfl, rfl, rfl, rfl, rfl, rfl, rfl, rfl, rfl, rfl, rfl, rfl, rfl, rfl, rfl, rfl, rfl, rfl, rfl, rfl, rfl, rfl, rfl, rfl, rfl, rfl, rfl, rfl, rfl, rfl, rfl, rfl, fun _ => rfl, fun _ => rfl, fun _ => rfl, fun _ => rfl, fun _ => rfl, fun _ => rfl, fun _ => rfl, fun _ => rfl, fun _ => rfl, fun _ => rfl, fun _ => rfl, fun _ => rfl, fun _ => rfl, fun _ => rfl, fun _ => rfl, fun _ => rfl, fun _ => rfl, fun _ => rfl, fun _ => rfl, fun _ => rfl, fun _ => rfl, fun _ => rfl, fun _ => rfl⟩
@[simp] theorem modEgress_egress (k : Nat) (g : EgressSt → EgressSt) (s : State) : (modEgress k g s).sw.egress = tmod s.sw.egress k g := rfl
@[simp] theorem modEgress_egressOf_self (k : Nat) (g : EgressSt → EgressSt) (s : State) : egressOf (modEgress k g s) k = g (egressOf s k) := tget_tmod_self _ _ _
theorem modEgress_egressOf_ne (k : Nat) (g : EgressSt → EgressSt) (s : State) (m : Nat) (h : m ≠ k) : egressOf (modEgress k g s) m = egressOf s m := tget_tmod_ne _ _ _ _ h

/-- `modArb` leaves the rest of the state alone. -/
@[simp] theorem modArb_frame (k : Nat) (g : ArbSt → ArbSt) (s : State) :
    (modArb k g s).pending = s.pending ∧ (modArb k g s).dev = s.dev ∧ (modArb k g s).ft = s.ft ∧ (modArb k g s).io = s.io ∧ (modArb k g s).hoard = s.hoard ∧ (modArb k g s).dur = s.dur
    ∧ (modArb k g s).hib = s.hib ∧ (modArb k g s).journal = s.journal ∧ (modArb k g s).log = s.log ∧ (modArb k g s).errs = s.errs ∧ (modArb k g s).sic = s.sic ∧ (modArb k g s).ctr = s.ctr
    ∧ (modArb k g s).hb = s.hb ∧ (modArb k g s).grave = s.grave ∧ (modArb k g s).mbx = s.mbx ∧ (modArb k g s).i3c = s.i3c ∧ (modArb k g s).cmd = s.cmd ∧ (modArb k g s).sec = s.sec
    ∧ (modArb k g s).fuses = s.fuses ∧ (modArb k g s).ledger = s.ledger ∧ (modArb k g s).start = s.start ∧ (modArb k g s).disc = s.disc ∧ (modArb k g s).net = s.net ∧ (modArb k g s).tm = s.tm
    ∧ (modArb k g s).slices = s.slices ∧ (modArb k g s).coh = s.coh ∧ (modArb k g s).drey = s.drey ∧ (modArb k g s).scrubHours = s.scrubHours ∧ (modArb k g s).ten = s.ten ∧ (modArb k g s).pwr = s.pwr
    ∧ (modArb k g s).cages = s.cages ∧ (modArb k g s).therm = s.therm ∧ (modArb k g s).pins = s.pins ∧ (modArb k g s).free = s.free ∧ (modArb k g s).outbox = s.outbox ∧ now (modArb k g s) = now s
    ∧ ftCount (modArb k g s) = ftCount s ∧ (modArb k g s).sw.routes = s.sw.routes ∧ (modArb k g s).sw.holds = s.sw.holds ∧ (modArb k g s).sw.groups = s.sw.groups ∧ (modArb k g s).sw.merges = s.sw.merges ∧ (modArb k g s).sw.origs = s.sw.origs
    ∧ (modArb k g s).sw.reqs = s.sw.reqs ∧ (modArb k g s).sw.nextId = s.sw.nextId ∧ (modArb k g s).sw.queues = s.sw.queues ∧ (modArb k g s).sw.egress = s.sw.egress ∧ (modArb k g s).sw.notices = s.sw.notices ∧ (∀ m, lpOf (modArb k g s) m = lpOf s m)
    ∧ (∀ m, cfgOf (modArb k g s) m = cfgOf s m) ∧ (∀ m, portOf (modArb k g s) m = portOf s m) ∧ (∀ m, txOf (modArb k g s) m = txOf s m) ∧ (∀ m, rxOf (modArb k g s) m = rxOf s m) ∧ (∀ m, initOf (modArb k g s) m = initOf s m) ∧ (∀ m, failOf (modArb k g s) m = failOf s m)
    ∧ (∀ m, cxlOf (modArb k g s) m = cxlOf s m) ∧ (∀ m, winOf (modArb k g s) m = winOf s m) ∧ (∀ m, egressOf (modArb k g s) m = egressOf s m) ∧ (∀ m, bindOf (modArb k g s) m = bindOf s m) ∧ (∀ m, tgOf (modArb k g s) m = tgOf s m) ∧ (∀ m, slOf (modArb k g s) m = slOf s m)
    ∧ (∀ m, dreyOf (modArb k g s) m = dreyOf s m) ∧ (∀ m, cageOf (modArb k g s) m = cageOf s m) ∧ (∀ m, domOf (modArb k g s) m = domOf s m) ∧ (∀ m, clkOf (modArb k g s) m = clkOf s m) ∧ (∀ m, kOf (modArb k g s) m = kOf s m) ∧ (∀ m, linkLive (modArb k g s) m = linkLive s m)
    ∧ (∀ m, lpUp (modArb k g s) m = lpUp s m) ∧ (∀ m, isDen (modArb k g s) m = isDen s m) ∧ (∀ m, isCxl (modArb k g s) m = isCxl s m) ∧ (∀ m, isHost (modArb k g s) m = isHost s m) ∧ (∀ m, routeEntry (modArb k g s) m = routeEntry s m) :=
  ⟨rfl, rfl, rfl, rfl, rfl, rfl, rfl, rfl, rfl, rfl, rfl, rfl, rfl, rfl, rfl, rfl, rfl, rfl, rfl, rfl, rfl, rfl, rfl, rfl, rfl, rfl, rfl, rfl, rfl, rfl, rfl, rfl, rfl, rfl, rfl, rfl, rfl, rfl, rfl, rfl, rfl, rfl, rfl, rfl, rfl, rfl, rfl, fun _ => rfl, fun _ => rfl, fun _ => rfl, fun _ => rfl, fun _ => rfl, fun _ => rfl, fun _ => rfl, fun _ => rfl, fun _ => rfl, fun _ => rfl, fun _ => rfl, fun _ => rfl, fun _ => rfl, fun _ => rfl, fun _ => rfl, fun _ => rfl, fun _ => rfl, fun _ => rfl, fun _ => rfl, fun _ => rfl, fun _ => rfl, fun _ => rfl, fun _ => rfl, fun _ => rfl⟩
@[simp] theorem modArb_arbs (k : Nat) (g : ArbSt → ArbSt) (s : State) : (modArb k g s).sw.arbs = tmod s.sw.arbs k g := rfl

/-- `modBind` leaves the rest of the state alone. -/
@[simp] theorem modBind_frame (k : Nat) (g : Binding → Binding) (s : State) :
    (modBind k g s).pending = s.pending ∧ (modBind k g s).dev = s.dev ∧ (modBind k g s).ft = s.ft ∧ (modBind k g s).io = s.io ∧ (modBind k g s).hoard = s.hoard ∧ (modBind k g s).dur = s.dur
    ∧ (modBind k g s).hib = s.hib ∧ (modBind k g s).journal = s.journal ∧ (modBind k g s).log = s.log ∧ (modBind k g s).errs = s.errs ∧ (modBind k g s).sic = s.sic ∧ (modBind k g s).ctr = s.ctr
    ∧ (modBind k g s).hb = s.hb ∧ (modBind k g s).grave = s.grave ∧ (modBind k g s).mbx = s.mbx ∧ (modBind k g s).i3c = s.i3c ∧ (modBind k g s).cmd = s.cmd ∧ (modBind k g s).sec = s.sec
    ∧ (modBind k g s).fuses = s.fuses ∧ (modBind k g s).ledger = s.ledger ∧ (modBind k g s).start = s.start ∧ (modBind k g s).disc = s.disc ∧ (modBind k g s).net = s.net ∧ (modBind k g s).sw = s.sw
    ∧ (modBind k g s).tm = s.tm ∧ (modBind k g s).slices = s.slices ∧ (modBind k g s).coh = s.coh ∧ (modBind k g s).drey = s.drey ∧ (modBind k g s).scrubHours = s.scrubHours ∧ (modBind k g s).pwr = s.pwr
    ∧ (modBind k g s).cages = s.cages ∧ (modBind k g s).therm = s.therm ∧ (modBind k g s).pins = s.pins ∧ (modBind k g s).free = s.free ∧ (modBind k g s).outbox = s.outbox ∧ now (modBind k g s) = now s
    ∧ ftCount (modBind k g s) = ftCount s ∧ (modBind k g s).ten.objs = s.ten.objs ∧ (modBind k g s).ten.tenants = s.ten.tenants ∧ (modBind k g s).ten.slices = s.ten.slices ∧ (modBind k g s).ten.rings = s.ten.rings ∧ (modBind k g s).ten.ruleSets = s.ten.ruleSets
    ∧ (modBind k g s).ten.leases = s.ten.leases ∧ (modBind k g s).ten.sessions = s.ten.sessions ∧ (modBind k g s).ten.mediated = s.ten.mediated ∧ (modBind k g s).ten.medReqs = s.ten.medReqs ∧ (modBind k g s).ten.xlat = s.ten.xlat ∧ (modBind k g s).ten.xcache = s.ten.xcache
    ∧ (modBind k g s).ten.gates = s.ten.gates ∧ (modBind k g s).ten.defaultMap = s.ten.defaultMap ∧ (modBind k g s).ten.open_ = s.ten.open_ ∧ (modBind k g s).ten.mbxs = s.ten.mbxs ∧ (modBind k g s).ten.pageReads = s.ten.pageReads ∧ (modBind k g s).ten.debugTimes = s.ten.debugTimes
    ∧ (∀ m, lpOf (modBind k g s) m = lpOf s m) ∧ (∀ m, cfgOf (modBind k g s) m = cfgOf s m) ∧ (∀ m, portOf (modBind k g s) m = portOf s m) ∧ (∀ m, txOf (modBind k g s) m = txOf s m) ∧ (∀ m, rxOf (modBind k g s) m = rxOf s m) ∧ (∀ m, initOf (modBind k g s) m = initOf s m)
    ∧ (∀ m, failOf (modBind k g s) m = failOf s m) ∧ (∀ m, cxlOf (modBind k g s) m = cxlOf s m) ∧ (∀ m, winOf (modBind k g s) m = winOf s m) ∧ (∀ m, egressOf (modBind k g s) m = egressOf s m) ∧ (∀ m, tgOf (modBind k g s) m = tgOf s m) ∧ (∀ m, slOf (modBind k g s) m = slOf s m)
    ∧ (∀ m, dreyOf (modBind k g s) m = dreyOf s m) ∧ (∀ m, cageOf (modBind k g s) m = cageOf s m) ∧ (∀ m, domOf (modBind k g s) m = domOf s m) ∧ (∀ m, clkOf (modBind k g s) m = clkOf s m) ∧ (∀ m, kOf (modBind k g s) m = kOf s m) ∧ (∀ m, linkLive (modBind k g s) m = linkLive s m)
    ∧ (∀ m, lpUp (modBind k g s) m = lpUp s m) ∧ (∀ m, isDen (modBind k g s) m = isDen s m) ∧ (∀ m, isCxl (modBind k g s) m = isCxl s m) ∧ (∀ m, isHost (modBind k g s) m = isHost s m) ∧ (∀ m, routeEntry (modBind k g s) m = routeEntry s m) :=
  ⟨rfl, rfl, rfl, rfl, rfl, rfl, rfl, rfl, rfl, rfl, rfl, rfl, rfl, rfl, rfl, rfl, rfl, rfl, rfl, rfl, rfl, rfl, rfl, rfl, rfl, rfl, rfl, rfl, rfl, rfl, rfl, rfl, rfl, rfl, rfl, rfl, rfl, rfl, rfl, rfl, rfl, rfl, rfl, rfl, rfl, rfl, rfl, rfl, rfl, rfl, rfl, rfl, rfl, rfl, fun _ => rfl, fun _ => rfl, fun _ => rfl, fun _ => rfl, fun _ => rfl, fun _ => rfl, fun _ => rfl, fun _ => rfl, fun _ => rfl, fun _ => rfl, fun _ => rfl, fun _ => rfl, fun _ => rfl, fun _ => rfl, fun _ => rfl, fun _ => rfl, fun _ => rfl, fun _ => rfl, fun _ => rfl, fun _ => rfl, fun _ => rfl, fun _ => rfl, fun _ => rfl⟩
@[simp] theorem modBind_bindings (k : Nat) (g : Binding → Binding) (s : State) : (modBind k g s).ten.bindings = tmod s.ten.bindings k g := rfl
@[simp] theorem modBind_bindOf_self (k : Nat) (g : Binding → Binding) (s : State) : bindOf (modBind k g s) k = g (bindOf s k) := tget_tmod_self _ _ _
theorem modBind_bindOf_ne (k : Nat) (g : Binding → Binding) (s : State) (m : Nat) (h : m ≠ k) : bindOf (modBind k g s) m = bindOf s m := tget_tmod_ne _ _ _ _ h

/-- `modGate` leaves the rest of the state alone. -/
@[simp] theorem modGate_frame (k : Nat) (g : GateSt → GateSt) (s : State) :
    (modGate k g s).pending = s.pending ∧ (modGate k g s).dev = s.dev ∧ (modGate k g s).ft = s.ft ∧ (modGate k g s).io = s.io ∧ (modGate k g s).hoard = s.hoard ∧ (modGate k g s).dur = s.dur
    ∧ (modGate k g s).hib = s.hib ∧ (modGate k g s).journal = s.journal ∧ (modGate k g s).log = s.log ∧ (modGate k g s).errs = s.errs ∧ (modGate k g s).sic = s.sic ∧ (modGate k g s).ctr = s.ctr
    ∧ (modGate k g s).hb = s.hb ∧ (modGate k g s).grave = s.grave ∧ (modGate k g s).mbx = s.mbx ∧ (modGate k g s).i3c = s.i3c ∧ (modGate k g s).cmd = s.cmd ∧ (modGate k g s).sec = s.sec
    ∧ (modGate k g s).fuses = s.fuses ∧ (modGate k g s).ledger = s.ledger ∧ (modGate k g s).start = s.start ∧ (modGate k g s).disc = s.disc ∧ (modGate k g s).net = s.net ∧ (modGate k g s).sw = s.sw
    ∧ (modGate k g s).tm = s.tm ∧ (modGate k g s).slices = s.slices ∧ (modGate k g s).coh = s.coh ∧ (modGate k g s).drey = s.drey ∧ (modGate k g s).scrubHours = s.scrubHours ∧ (modGate k g s).pwr = s.pwr
    ∧ (modGate k g s).cages = s.cages ∧ (modGate k g s).therm = s.therm ∧ (modGate k g s).pins = s.pins ∧ (modGate k g s).free = s.free ∧ (modGate k g s).outbox = s.outbox ∧ now (modGate k g s) = now s
    ∧ ftCount (modGate k g s) = ftCount s ∧ (modGate k g s).ten.objs = s.ten.objs ∧ (modGate k g s).ten.tenants = s.ten.tenants ∧ (modGate k g s).ten.slices = s.ten.slices ∧ (modGate k g s).ten.bindings = s.ten.bindings ∧ (modGate k g s).ten.rings = s.ten.rings
    ∧ (modGate k g s).ten.ruleSets = s.ten.ruleSets ∧ (modGate k g s).ten.leases = s.ten.leases ∧ (modGate k g s).ten.sessions = s.ten.sessions ∧ (modGate k g s).ten.mediated = s.ten.mediated ∧ (modGate k g s).ten.medReqs = s.ten.medReqs ∧ (modGate k g s).ten.xlat = s.ten.xlat
    ∧ (modGate k g s).ten.xcache = s.ten.xcache ∧ (modGate k g s).ten.defaultMap = s.ten.defaultMap ∧ (modGate k g s).ten.open_ = s.ten.open_ ∧ (modGate k g s).ten.mbxs = s.ten.mbxs ∧ (modGate k g s).ten.pageReads = s.ten.pageReads ∧ (modGate k g s).ten.debugTimes = s.ten.debugTimes
    ∧ (∀ m, lpOf (modGate k g s) m = lpOf s m) ∧ (∀ m, cfgOf (modGate k g s) m = cfgOf s m) ∧ (∀ m, portOf (modGate k g s) m = portOf s m) ∧ (∀ m, txOf (modGate k g s) m = txOf s m) ∧ (∀ m, rxOf (modGate k g s) m = rxOf s m) ∧ (∀ m, initOf (modGate k g s) m = initOf s m)
    ∧ (∀ m, failOf (modGate k g s) m = failOf s m) ∧ (∀ m, cxlOf (modGate k g s) m = cxlOf s m) ∧ (∀ m, winOf (modGate k g s) m = winOf s m) ∧ (∀ m, egressOf (modGate k g s) m = egressOf s m) ∧ (∀ m, bindOf (modGate k g s) m = bindOf s m) ∧ (∀ m, tgOf (modGate k g s) m = tgOf s m)
    ∧ (∀ m, slOf (modGate k g s) m = slOf s m) ∧ (∀ m, dreyOf (modGate k g s) m = dreyOf s m) ∧ (∀ m, cageOf (modGate k g s) m = cageOf s m) ∧ (∀ m, domOf (modGate k g s) m = domOf s m) ∧ (∀ m, clkOf (modGate k g s) m = clkOf s m) ∧ (∀ m, kOf (modGate k g s) m = kOf s m)
    ∧ (∀ m, linkLive (modGate k g s) m = linkLive s m) ∧ (∀ m, lpUp (modGate k g s) m = lpUp s m) ∧ (∀ m, isDen (modGate k g s) m = isDen s m) ∧ (∀ m, isCxl (modGate k g s) m = isCxl s m) ∧ (∀ m, isHost (modGate k g s) m = isHost s m) ∧ (∀ m, routeEntry (modGate k g s) m = routeEntry s m) :=
  ⟨rfl, rfl, rfl, rfl, rfl, rfl, rfl, rfl, rfl, rfl, rfl, rfl, rfl, rfl, rfl, rfl, rfl, rfl, rfl, rfl, rfl, rfl, rfl, rfl, rfl, rfl, rfl, rfl, rfl, rfl, rfl, rfl, rfl, rfl, rfl, rfl, rfl, rfl, rfl, rfl, rfl, rfl, rfl, rfl, rfl, rfl, rfl, rfl, rfl, rfl, rfl, rfl, rfl, rfl, fun _ => rfl, fun _ => rfl, fun _ => rfl, fun _ => rfl, fun _ => rfl, fun _ => rfl, fun _ => rfl, fun _ => rfl, fun _ => rfl, fun _ => rfl, fun _ => rfl, fun _ => rfl, fun _ => rfl, fun _ => rfl, fun _ => rfl, fun _ => rfl, fun _ => rfl, fun _ => rfl, fun _ => rfl, fun _ => rfl, fun _ => rfl, fun _ => rfl, fun _ => rfl, fun _ => rfl⟩
@[simp] theorem modGate_gates (k : Nat) (g : GateSt → GateSt) (s : State) : (modGate k g s).ten.gates = tmod s.ten.gates k g := rfl

/-- `modMail` leaves the rest of the state alone. -/
@[simp] theorem modMail_frame (k : Nat) (g : TenMbx → TenMbx) (s : State) :
    (modMail k g s).pending = s.pending ∧ (modMail k g s).dev = s.dev ∧ (modMail k g s).ft = s.ft ∧ (modMail k g s).io = s.io ∧ (modMail k g s).hoard = s.hoard ∧ (modMail k g s).dur = s.dur
    ∧ (modMail k g s).hib = s.hib ∧ (modMail k g s).journal = s.journal ∧ (modMail k g s).log = s.log ∧ (modMail k g s).errs = s.errs ∧ (modMail k g s).sic = s.sic ∧ (modMail k g s).ctr = s.ctr
    ∧ (modMail k g s).hb = s.hb ∧ (modMail k g s).grave = s.grave ∧ (modMail k g s).mbx = s.mbx ∧ (modMail k g s).i3c = s.i3c ∧ (modMail k g s).cmd = s.cmd ∧ (modMail k g s).sec = s.sec
    ∧ (modMail k g s).fuses = s.fuses ∧ (modMail k g s).ledger = s.ledger ∧ (modMail k g s).start = s.start ∧ (modMail k g s).disc = s.disc ∧ (modMail k g s).net = s.net ∧ (modMail k g s).sw = s.sw
    ∧ (modMail k g s).tm = s.tm ∧ (modMail k g s).slices = s.slices ∧ (modMail k g s).coh = s.coh ∧ (modMail k g s).drey = s.drey ∧ (modMail k g s).scrubHours = s.scrubHours ∧ (modMail k g s).pwr = s.pwr
    ∧ (modMail k g s).cages = s.cages ∧ (modMail k g s).therm = s.therm ∧ (modMail k g s).pins = s.pins ∧ (modMail k g s).free = s.free ∧ (modMail k g s).outbox = s.outbox ∧ now (modMail k g s) = now s
    ∧ ftCount (modMail k g s) = ftCount s ∧ (modMail k g s).ten.objs = s.ten.objs ∧ (modMail k g s).ten.tenants = s.ten.tenants ∧ (modMail k g s).ten.slices = s.ten.slices ∧ (modMail k g s).ten.bindings = s.ten.bindings ∧ (modMail k g s).ten.rings = s.ten.rings
    ∧ (modMail k g s).ten.ruleSets = s.ten.ruleSets ∧ (modMail k g s).ten.leases = s.ten.leases ∧ (modMail k g s).ten.sessions = s.ten.sessions ∧ (modMail k g s).ten.mediated = s.ten.mediated ∧ (modMail k g s).ten.medReqs = s.ten.medReqs ∧ (modMail k g s).ten.xlat = s.ten.xlat
    ∧ (modMail k g s).ten.xcache = s.ten.xcache ∧ (modMail k g s).ten.gates = s.ten.gates ∧ (modMail k g s).ten.defaultMap = s.ten.defaultMap ∧ (modMail k g s).ten.open_ = s.ten.open_ ∧ (modMail k g s).ten.pageReads = s.ten.pageReads ∧ (modMail k g s).ten.debugTimes = s.ten.debugTimes
    ∧ (∀ m, lpOf (modMail k g s) m = lpOf s m) ∧ (∀ m, cfgOf (modMail k g s) m = cfgOf s m) ∧ (∀ m, portOf (modMail k g s) m = portOf s m) ∧ (∀ m, txOf (modMail k g s) m = txOf s m) ∧ (∀ m, rxOf (modMail k g s) m = rxOf s m) ∧ (∀ m, initOf (modMail k g s) m = initOf s m)
    ∧ (∀ m, failOf (modMail k g s) m = failOf s m) ∧ (∀ m, cxlOf (modMail k g s) m = cxlOf s m) ∧ (∀ m, winOf (modMail k g s) m = winOf s m) ∧ (∀ m, egressOf (modMail k g s) m = egressOf s m) ∧ (∀ m, bindOf (modMail k g s) m = bindOf s m) ∧ (∀ m, tgOf (modMail k g s) m = tgOf s m)
    ∧ (∀ m, slOf (modMail k g s) m = slOf s m) ∧ (∀ m, dreyOf (modMail k g s) m = dreyOf s m) ∧ (∀ m, cageOf (modMail k g s) m = cageOf s m) ∧ (∀ m, domOf (modMail k g s) m = domOf s m) ∧ (∀ m, clkOf (modMail k g s) m = clkOf s m) ∧ (∀ m, kOf (modMail k g s) m = kOf s m)
    ∧ (∀ m, linkLive (modMail k g s) m = linkLive s m) ∧ (∀ m, lpUp (modMail k g s) m = lpUp s m) ∧ (∀ m, isDen (modMail k g s) m = isDen s m) ∧ (∀ m, isCxl (modMail k g s) m = isCxl s m) ∧ (∀ m, isHost (modMail k g s) m = isHost s m) ∧ (∀ m, routeEntry (modMail k g s) m = routeEntry s m) :=
  ⟨rfl, rfl, rfl, rfl, rfl, rfl, rfl, rfl, rfl, rfl, rfl, rfl, rfl, rfl, rfl, rfl, rfl, rfl, rfl, rfl, rfl, rfl, rfl, rfl, rfl, rfl, rfl, rfl, rfl, rfl, rfl, rfl, rfl, rfl, rfl, rfl, rfl, rfl, rfl, rfl, rfl, rfl, rfl, rfl, rfl, rfl, rfl, rfl, rfl, rfl, rfl, rfl, rfl, rfl, fun _ => rfl, fun _ => rfl, fun _ => rfl, fun _ => rfl, fun _ => rfl, fun _ => rfl, fun _ => rfl, fun _ => rfl, fun _ => rfl, fun _ => rfl, fun _ => rfl, fun _ => rfl, fun _ => rfl, fun _ => rfl, fun _ => rfl, fun _ => rfl, fun _ => rfl, fun _ => rfl, fun _ => rfl, fun _ => rfl, fun _ => rfl, fun _ => rfl, fun _ => rfl, fun _ => rfl⟩
@[simp] theorem modMail_mbxs (k : Nat) (g : TenMbx → TenMbx) (s : State) : (modMail k g s).ten.mbxs = tmod s.ten.mbxs k g := rfl

/-- `modTg` leaves the rest of the state alone. -/
@[simp] theorem modTg_frame (k : Nat) (g : TgSt → TgSt) (s : State) :
    (modTg k g s).pending = s.pending ∧ (modTg k g s).dev = s.dev ∧ (modTg k g s).ft = s.ft ∧ (modTg k g s).io = s.io ∧ (modTg k g s).hoard = s.hoard ∧ (modTg k g s).dur = s.dur
    ∧ (modTg k g s).hib = s.hib ∧ (modTg k g s).journal = s.journal ∧ (modTg k g s).log = s.log ∧ (modTg k g s).errs = s.errs ∧ (modTg k g s).sic = s.sic ∧ (modTg k g s).ctr = s.ctr
    ∧ (modTg k g s).hb = s.hb ∧ (modTg k g s).grave = s.grave ∧ (modTg k g s).mbx = s.mbx ∧ (modTg k g s).i3c = s.i3c ∧ (modTg k g s).cmd = s.cmd ∧ (modTg k g s).sec = s.sec
    ∧ (modTg k g s).fuses = s.fuses ∧ (modTg k g s).ledger = s.ledger ∧ (modTg k g s).start = s.start ∧ (modTg k g s).disc = s.disc ∧ (modTg k g s).net = s.net ∧ (modTg k g s).sw = s.sw
    ∧ (modTg k g s).slices = s.slices ∧ (modTg k g s).coh = s.coh ∧ (modTg k g s).drey = s.drey ∧ (modTg k g s).scrubHours = s.scrubHours ∧ (modTg k g s).ten = s.ten ∧ (modTg k g s).pwr = s.pwr
    ∧ (modTg k g s).cages = s.cages ∧ (modTg k g s).therm = s.therm ∧ (modTg k g s).pins = s.pins ∧ (modTg k g s).free = s.free ∧ (modTg k g s).outbox = s.outbox ∧ now (modTg k g s) = now s
    ∧ ftCount (modTg k g s) = ftCount s ∧ (modTg k g s).tm.meters = s.tm.meters ∧ (modTg k g s).tm.attached = s.tm.attached ∧ (modTg k g s).tm.shapers = s.tm.shapers ∧ (modTg k g s).tm.held = s.tm.held ∧ (modTg k g s).tm.suspended = s.tm.suspended
    ∧ (modTg k g s).tm.refilled = s.tm.refilled ∧ (∀ m, lpOf (modTg k g s) m = lpOf s m) ∧ (∀ m, cfgOf (modTg k g s) m = cfgOf s m) ∧ (∀ m, portOf (modTg k g s) m = portOf s m) ∧ (∀ m, txOf (modTg k g s) m = txOf s m) ∧ (∀ m, rxOf (modTg k g s) m = rxOf s m)
    ∧ (∀ m, initOf (modTg k g s) m = initOf s m) ∧ (∀ m, failOf (modTg k g s) m = failOf s m) ∧ (∀ m, cxlOf (modTg k g s) m = cxlOf s m) ∧ (∀ m, winOf (modTg k g s) m = winOf s m) ∧ (∀ m, egressOf (modTg k g s) m = egressOf s m) ∧ (∀ m, bindOf (modTg k g s) m = bindOf s m)
    ∧ (∀ m, slOf (modTg k g s) m = slOf s m) ∧ (∀ m, dreyOf (modTg k g s) m = dreyOf s m) ∧ (∀ m, cageOf (modTg k g s) m = cageOf s m) ∧ (∀ m, domOf (modTg k g s) m = domOf s m) ∧ (∀ m, clkOf (modTg k g s) m = clkOf s m) ∧ (∀ m, kOf (modTg k g s) m = kOf s m)
    ∧ (∀ m, linkLive (modTg k g s) m = linkLive s m) ∧ (∀ m, lpUp (modTg k g s) m = lpUp s m) ∧ (∀ m, isDen (modTg k g s) m = isDen s m) ∧ (∀ m, isCxl (modTg k g s) m = isCxl s m) ∧ (∀ m, isHost (modTg k g s) m = isHost s m) ∧ (∀ m, routeEntry (modTg k g s) m = routeEntry s m) :=
  ⟨rfl, rfl, rfl, rfl, rfl, rfl, rfl, rfl, rfl, rfl, rfl, rfl, rfl, rfl, rfl, rfl, rfl, rfl, rfl, rfl, rfl, rfl, rfl, rfl, rfl, rfl, rfl, rfl, rfl, rfl, rfl, rfl, rfl, rfl, rfl, rfl, rfl, rfl, rfl, rfl, rfl, rfl, rfl, fun _ => rfl, fun _ => rfl, fun _ => rfl, fun _ => rfl, fun _ => rfl, fun _ => rfl, fun _ => rfl, fun _ => rfl, fun _ => rfl, fun _ => rfl, fun _ => rfl, fun _ => rfl, fun _ => rfl, fun _ => rfl, fun _ => rfl, fun _ => rfl, fun _ => rfl, fun _ => rfl, fun _ => rfl, fun _ => rfl, fun _ => rfl, fun _ => rfl, fun _ => rfl⟩
@[simp] theorem modTg_gates (k : Nat) (g : TgSt → TgSt) (s : State) : (modTg k g s).tm.gates = tmod s.tm.gates k g := rfl
@[simp] theorem modTg_tgOf_self (k : Nat) (g : TgSt → TgSt) (s : State) : tgOf (modTg k g s) k = g (tgOf s k) := tget_tmod_self _ _ _
theorem modTg_tgOf_ne (k : Nat) (g : TgSt → TgSt) (s : State) (m : Nat) (h : m ≠ k) : tgOf (modTg k g s) m = tgOf s m := tget_tmod_ne _ _ _ _ h

/-- `modErr` leaves the rest of the state alone. -/
@[simp] theorem modErr_frame (k : Nat) (g : FirstErr → FirstErr) (s : State) :
    (modErr k g s).pending = s.pending ∧ (modErr k g s).dev = s.dev ∧ (modErr k g s).ft = s.ft ∧ (modErr k g s).io = s.io ∧ (modErr k g s).hoard = s.hoard ∧ (modErr k g s).dur = s.dur
    ∧ (modErr k g s).hib = s.hib ∧ (modErr k g s).journal = s.journal ∧ (modErr k g s).log = s.log ∧ (modErr k g s).sic = s.sic ∧ (modErr k g s).ctr = s.ctr ∧ (modErr k g s).hb = s.hb
    ∧ (modErr k g s).grave = s.grave ∧ (modErr k g s).mbx = s.mbx ∧ (modErr k g s).i3c = s.i3c ∧ (modErr k g s).cmd = s.cmd ∧ (modErr k g s).sec = s.sec ∧ (modErr k g s).fuses = s.fuses
    ∧ (modErr k g s).ledger = s.ledger ∧ (modErr k g s).start = s.start ∧ (modErr k g s).disc = s.disc ∧ (modErr k g s).net = s.net ∧ (modErr k g s).sw = s.sw ∧ (modErr k g s).tm = s.tm
    ∧ (modErr k g s).slices = s.slices ∧ (modErr k g s).coh = s.coh ∧ (modErr k g s).drey = s.drey ∧ (modErr k g s).scrubHours = s.scrubHours ∧ (modErr k g s).ten = s.ten ∧ (modErr k g s).pwr = s.pwr
    ∧ (modErr k g s).cages = s.cages ∧ (modErr k g s).therm = s.therm ∧ (modErr k g s).pins = s.pins ∧ (modErr k g s).free = s.free ∧ (modErr k g s).outbox = s.outbox ∧ now (modErr k g s) = now s
    ∧ ftCount (modErr k g s) = ftCount s ∧ (∀ m, lpOf (modErr k g s) m = lpOf s m) ∧ (∀ m, cfgOf (modErr k g s) m = cfgOf s m) ∧ (∀ m, portOf (modErr k g s) m = portOf s m) ∧ (∀ m, txOf (modErr k g s) m = txOf s m) ∧ (∀ m, rxOf (modErr k g s) m = rxOf s m)
    ∧ (∀ m, initOf (modErr k g s) m = initOf s m) ∧ (∀ m, failOf (modErr k g s) m = failOf s m) ∧ (∀ m, cxlOf (modErr k g s) m = cxlOf s m) ∧ (∀ m, winOf (modErr k g s) m = winOf s m) ∧ (∀ m, egressOf (modErr k g s) m = egressOf s m) ∧ (∀ m, bindOf (modErr k g s) m = bindOf s m)
    ∧ (∀ m, tgOf (modErr k g s) m = tgOf s m) ∧ (∀ m, slOf (modErr k g s) m = slOf s m) ∧ (∀ m, dreyOf (modErr k g s) m = dreyOf s m) ∧ (∀ m, cageOf (modErr k g s) m = cageOf s m) ∧ (∀ m, domOf (modErr k g s) m = domOf s m) ∧ (∀ m, clkOf (modErr k g s) m = clkOf s m)
    ∧ (∀ m, kOf (modErr k g s) m = kOf s m) ∧ (∀ m, linkLive (modErr k g s) m = linkLive s m) ∧ (∀ m, lpUp (modErr k g s) m = lpUp s m) ∧ (∀ m, isDen (modErr k g s) m = isDen s m) ∧ (∀ m, isCxl (modErr k g s) m = isCxl s m) ∧ (∀ m, isHost (modErr k g s) m = isHost s m)
    ∧ (∀ m, routeEntry (modErr k g s) m = routeEntry s m) :=
  ⟨rfl, rfl, rfl, rfl, rfl, rfl, rfl, rfl, rfl, rfl, rfl, rfl, rfl, rfl, rfl, rfl, rfl, rfl, rfl, rfl, rfl, rfl, rfl, rfl, rfl, rfl, rfl, rfl, rfl, rfl, rfl, rfl, rfl, rfl, rfl, rfl, rfl, fun _ => rfl, fun _ => rfl, fun _ => rfl, fun _ => rfl, fun _ => rfl, fun _ => rfl, fun _ => rfl, fun _ => rfl, fun _ => rfl, fun _ => rfl, fun _ => rfl, fun _ => rfl, fun _ => rfl, fun _ => rfl, fun _ => rfl, fun _ => rfl, fun _ => rfl, fun _ => rfl, fun _ => rfl, fun _ => rfl, fun _ => rfl, fun _ => rfl, fun _ => rfl, fun _ => rfl⟩
@[simp] theorem modErr_errs (k : Nat) (g : FirstErr → FirstErr) (s : State) : (modErr k g s).errs = tmod s.errs k g := rfl

/-- `modSl` leaves the rest of the state alone. -/
@[simp] theorem modSl_frame (k : Nat) (g : SliceSt → SliceSt) (s : State) :
    (modSl k g s).pending = s.pending ∧ (modSl k g s).dev = s.dev ∧ (modSl k g s).ft = s.ft ∧ (modSl k g s).io = s.io ∧ (modSl k g s).hoard = s.hoard ∧ (modSl k g s).dur = s.dur
    ∧ (modSl k g s).hib = s.hib ∧ (modSl k g s).journal = s.journal ∧ (modSl k g s).log = s.log ∧ (modSl k g s).errs = s.errs ∧ (modSl k g s).sic = s.sic ∧ (modSl k g s).ctr = s.ctr
    ∧ (modSl k g s).hb = s.hb ∧ (modSl k g s).grave = s.grave ∧ (modSl k g s).mbx = s.mbx ∧ (modSl k g s).i3c = s.i3c ∧ (modSl k g s).cmd = s.cmd ∧ (modSl k g s).sec = s.sec
    ∧ (modSl k g s).fuses = s.fuses ∧ (modSl k g s).ledger = s.ledger ∧ (modSl k g s).start = s.start ∧ (modSl k g s).disc = s.disc ∧ (modSl k g s).net = s.net ∧ (modSl k g s).sw = s.sw
    ∧ (modSl k g s).tm = s.tm ∧ (modSl k g s).coh = s.coh ∧ (modSl k g s).drey = s.drey ∧ (modSl k g s).scrubHours = s.scrubHours ∧ (modSl k g s).ten = s.ten ∧ (modSl k g s).pwr = s.pwr
    ∧ (modSl k g s).cages = s.cages ∧ (modSl k g s).therm = s.therm ∧ (modSl k g s).pins = s.pins ∧ (modSl k g s).free = s.free ∧ (modSl k g s).outbox = s.outbox ∧ now (modSl k g s) = now s
    ∧ ftCount (modSl k g s) = ftCount s ∧ (∀ m, lpOf (modSl k g s) m = lpOf s m) ∧ (∀ m, cfgOf (modSl k g s) m = cfgOf s m) ∧ (∀ m, portOf (modSl k g s) m = portOf s m) ∧ (∀ m, txOf (modSl k g s) m = txOf s m) ∧ (∀ m, rxOf (modSl k g s) m = rxOf s m)
    ∧ (∀ m, initOf (modSl k g s) m = initOf s m) ∧ (∀ m, failOf (modSl k g s) m = failOf s m) ∧ (∀ m, cxlOf (modSl k g s) m = cxlOf s m) ∧ (∀ m, winOf (modSl k g s) m = winOf s m) ∧ (∀ m, egressOf (modSl k g s) m = egressOf s m) ∧ (∀ m, bindOf (modSl k g s) m = bindOf s m)
    ∧ (∀ m, tgOf (modSl k g s) m = tgOf s m) ∧ (∀ m, dreyOf (modSl k g s) m = dreyOf s m) ∧ (∀ m, cageOf (modSl k g s) m = cageOf s m) ∧ (∀ m, domOf (modSl k g s) m = domOf s m) ∧ (∀ m, clkOf (modSl k g s) m = clkOf s m) ∧ (∀ m, kOf (modSl k g s) m = kOf s m)
    ∧ (∀ m, linkLive (modSl k g s) m = linkLive s m) ∧ (∀ m, lpUp (modSl k g s) m = lpUp s m) ∧ (∀ m, isDen (modSl k g s) m = isDen s m) ∧ (∀ m, isCxl (modSl k g s) m = isCxl s m) ∧ (∀ m, isHost (modSl k g s) m = isHost s m) ∧ (∀ m, routeEntry (modSl k g s) m = routeEntry s m) :=
  ⟨rfl, rfl, rfl, rfl, rfl, rfl, rfl, rfl, rfl, rfl, rfl, rfl, rfl, rfl, rfl, rfl, rfl, rfl, rfl, rfl, rfl, rfl, rfl, rfl, rfl, rfl, rfl, rfl, rfl, rfl, rfl, rfl, rfl, rfl, rfl, rfl, rfl, fun _ => rfl, fun _ => rfl, fun _ => rfl, fun _ => rfl, fun _ => rfl, fun _ => rfl, fun _ => rfl, fun _ => rfl, fun _ => rfl, fun _ => rfl, fun _ => rfl, fun _ => rfl, fun _ => rfl, fun _ => rfl, fun _ => rfl, fun _ => rfl, fun _ => rfl, fun _ => rfl, fun _ => rfl, fun _ => rfl, fun _ => rfl, fun _ => rfl, fun _ => rfl⟩
@[simp] theorem modSl_slices (k : Nat) (g : SliceSt → SliceSt) (s : State) : (modSl k g s).slices = tmod s.slices k g := rfl
@[simp] theorem modSl_slOf_self (k : Nat) (g : SliceSt → SliceSt) (s : State) : slOf (modSl k g s) k = g (slOf s k) := tget_tmod_self _ _ _
theorem modSl_slOf_ne (k : Nat) (g : SliceSt → SliceSt) (s : State) (m : Nat) (h : m ≠ k) : slOf (modSl k g s) m = slOf s m := tget_tmod_ne _ _ _ _ h

/-- `modDrey` leaves the rest of the state alone. -/
@[simp] theorem modDrey_frame (k : Nat) (g : DreySt → DreySt) (s : State) :
    (modDrey k g s).pending = s.pending ∧ (modDrey k g s).dev = s.dev ∧ (modDrey k g s).ft = s.ft ∧ (modDrey k g s).io = s.io ∧ (modDrey k g s).hoard = s.hoard ∧ (modDrey k g s).dur = s.dur
    ∧ (modDrey k g s).hib = s.hib ∧ (modDrey k g s).journal = s.journal ∧ (modDrey k g s).log = s.log ∧ (modDrey k g s).errs = s.errs ∧ (modDrey k g s).sic = s.sic ∧ (modDrey k g s).ctr = s.ctr
    ∧ (modDrey k g s).hb = s.hb ∧ (modDrey k g s).grave = s.grave ∧ (modDrey k g s).mbx = s.mbx ∧ (modDrey k g s).i3c = s.i3c ∧ (modDrey k g s).cmd = s.cmd ∧ (modDrey k g s).sec = s.sec
    ∧ (modDrey k g s).fuses = s.fuses ∧ (modDrey k g s).ledger = s.ledger ∧ (modDrey k g s).start = s.start ∧ (modDrey k g s).disc = s.disc ∧ (modDrey k g s).net = s.net ∧ (modDrey k g s).sw = s.sw
    ∧ (modDrey k g s).tm = s.tm ∧ (modDrey k g s).slices = s.slices ∧ (modDrey k g s).coh = s.coh ∧ (modDrey k g s).scrubHours = s.scrubHours ∧ (modDrey k g s).ten = s.ten ∧ (modDrey k g s).pwr = s.pwr
    ∧ (modDrey k g s).cages = s.cages ∧ (modDrey k g s).therm = s.therm ∧ (modDrey k g s).pins = s.pins ∧ (modDrey k g s).free = s.free ∧ (modDrey k g s).outbox = s.outbox ∧ now (modDrey k g s) = now s
    ∧ ftCount (modDrey k g s) = ftCount s ∧ (∀ m, lpOf (modDrey k g s) m = lpOf s m) ∧ (∀ m, cfgOf (modDrey k g s) m = cfgOf s m) ∧ (∀ m, portOf (modDrey k g s) m = portOf s m) ∧ (∀ m, txOf (modDrey k g s) m = txOf s m) ∧ (∀ m, rxOf (modDrey k g s) m = rxOf s m)
    ∧ (∀ m, initOf (modDrey k g s) m = initOf s m) ∧ (∀ m, failOf (modDrey k g s) m = failOf s m) ∧ (∀ m, cxlOf (modDrey k g s) m = cxlOf s m) ∧ (∀ m, winOf (modDrey k g s) m = winOf s m) ∧ (∀ m, egressOf (modDrey k g s) m = egressOf s m) ∧ (∀ m, bindOf (modDrey k g s) m = bindOf s m)
    ∧ (∀ m, tgOf (modDrey k g s) m = tgOf s m) ∧ (∀ m, slOf (modDrey k g s) m = slOf s m) ∧ (∀ m, cageOf (modDrey k g s) m = cageOf s m) ∧ (∀ m, domOf (modDrey k g s) m = domOf s m) ∧ (∀ m, clkOf (modDrey k g s) m = clkOf s m) ∧ (∀ m, kOf (modDrey k g s) m = kOf s m)
    ∧ (∀ m, linkLive (modDrey k g s) m = linkLive s m) ∧ (∀ m, lpUp (modDrey k g s) m = lpUp s m) ∧ (∀ m, isDen (modDrey k g s) m = isDen s m) ∧ (∀ m, isCxl (modDrey k g s) m = isCxl s m) ∧ (∀ m, isHost (modDrey k g s) m = isHost s m) ∧ (∀ m, routeEntry (modDrey k g s) m = routeEntry s m) :=
  ⟨rfl, rfl, rfl, rfl, rfl, rfl, rfl, rfl, rfl, rfl, rfl, rfl, rfl, rfl, rfl, rfl, rfl, rfl, rfl, rfl, rfl, rfl, rfl, rfl, rfl, rfl, rfl, rfl, rfl, rfl, rfl, rfl, rfl, rfl, rfl, rfl, rfl, fun _ => rfl, fun _ => rfl, fun _ => rfl, fun _ => rfl, fun _ => rfl, fun _ => rfl, fun _ => rfl, fun _ => rfl, fun _ => rfl, fun _ => rfl, fun _ => rfl, fun _ => rfl, fun _ => rfl, fun _ => rfl, fun _ => rfl, fun _ => rfl, fun _ => rfl, fun _ => rfl, fun _ => rfl, fun _ => rfl, fun _ => rfl, fun _ => rfl, fun _ => rfl⟩
@[simp] theorem modDrey_drey (k : Nat) (g : DreySt → DreySt) (s : State) : (modDrey k g s).drey = tmod s.drey k g := rfl
@[simp] theorem modDrey_dreyOf_self (k : Nat) (g : DreySt → DreySt) (s : State) : dreyOf (modDrey k g s) k = g (dreyOf s k) := tget_tmod_self _ _ _
theorem modDrey_dreyOf_ne (k : Nat) (g : DreySt → DreySt) (s : State) (m : Nat) (h : m ≠ k) : dreyOf (modDrey k g s) m = dreyOf s m := tget_tmod_ne _ _ _ _ h

/-- `modSrc` leaves the rest of the state alone. -/
@[simp] theorem modSrc_frame (k : Nat) (g : SicSrc → SicSrc) (s : State) :
    (modSrc k g s).pending = s.pending ∧ (modSrc k g s).dev = s.dev ∧ (modSrc k g s).ft = s.ft ∧ (modSrc k g s).io = s.io ∧ (modSrc k g s).hoard = s.hoard ∧ (modSrc k g s).dur = s.dur
    ∧ (modSrc k g s).hib = s.hib ∧ (modSrc k g s).journal = s.journal ∧ (modSrc k g s).log = s.log ∧ (modSrc k g s).errs = s.errs ∧ (modSrc k g s).ctr = s.ctr ∧ (modSrc k g s).hb = s.hb
    ∧ (modSrc k g s).grave = s.grave ∧ (modSrc k g s).mbx = s.mbx ∧ (modSrc k g s).i3c = s.i3c ∧ (modSrc k g s).cmd = s.cmd ∧ (modSrc k g s).sec = s.sec ∧ (modSrc k g s).fuses = s.fuses
    ∧ (modSrc k g s).ledger = s.ledger ∧ (modSrc k g s).start = s.start ∧ (modSrc k g s).disc = s.disc ∧ (modSrc k g s).net = s.net ∧ (modSrc k g s).sw = s.sw ∧ (modSrc k g s).tm = s.tm
    ∧ (modSrc k g s).slices = s.slices ∧ (modSrc k g s).coh = s.coh ∧ (modSrc k g s).drey = s.drey ∧ (modSrc k g s).scrubHours = s.scrubHours ∧ (modSrc k g s).ten = s.ten ∧ (modSrc k g s).pwr = s.pwr
    ∧ (modSrc k g s).cages = s.cages ∧ (modSrc k g s).therm = s.therm ∧ (modSrc k g s).pins = s.pins ∧ (modSrc k g s).free = s.free ∧ (modSrc k g s).outbox = s.outbox ∧ now (modSrc k g s) = now s
    ∧ ftCount (modSrc k g s) = ftCount s ∧ (∀ m, lpOf (modSrc k g s) m = lpOf s m) ∧ (∀ m, cfgOf (modSrc k g s) m = cfgOf s m) ∧ (∀ m, portOf (modSrc k g s) m = portOf s m) ∧ (∀ m, txOf (modSrc k g s) m = txOf s m) ∧ (∀ m, rxOf (modSrc k g s) m = rxOf s m)
    ∧ (∀ m, initOf (modSrc k g s) m = initOf s m) ∧ (∀ m, failOf (modSrc k g s) m = failOf s m) ∧ (∀ m, cxlOf (modSrc k g s) m = cxlOf s m) ∧ (∀ m, winOf (modSrc k g s) m = winOf s m) ∧ (∀ m, egressOf (modSrc k g s) m = egressOf s m) ∧ (∀ m, bindOf (modSrc k g s) m = bindOf s m)
    ∧ (∀ m, tgOf (modSrc k g s) m = tgOf s m) ∧ (∀ m, slOf (modSrc k g s) m = slOf s m) ∧ (∀ m, dreyOf (modSrc k g s) m = dreyOf s m) ∧ (∀ m, cageOf (modSrc k g s) m = cageOf s m) ∧ (∀ m, domOf (modSrc k g s) m = domOf s m) ∧ (∀ m, clkOf (modSrc k g s) m = clkOf s m)
    ∧ (∀ m, kOf (modSrc k g s) m = kOf s m) ∧ (∀ m, linkLive (modSrc k g s) m = linkLive s m) ∧ (∀ m, lpUp (modSrc k g s) m = lpUp s m) ∧ (∀ m, isDen (modSrc k g s) m = isDen s m) ∧ (∀ m, isCxl (modSrc k g s) m = isCxl s m) ∧ (∀ m, isHost (modSrc k g s) m = isHost s m)
    ∧ (∀ m, routeEntry (modSrc k g s) m = routeEntry s m) :=
  ⟨rfl, rfl, rfl, rfl, rfl, rfl, rfl, rfl, rfl, rfl, rfl, rfl, rfl, rfl, rfl, rfl, rfl, rfl, rfl, rfl, rfl, rfl, rfl, rfl, rfl, rfl, rfl, rfl, rfl, rfl, rfl, rfl, rfl, rfl, rfl, rfl, rfl, fun _ => rfl, fun _ => rfl, fun _ => rfl, fun _ => rfl, fun _ => rfl, fun _ => rfl, fun _ => rfl, fun _ => rfl, fun _ => rfl, fun _ => rfl, fun _ => rfl, fun _ => rfl, fun _ => rfl, fun _ => rfl, fun _ => rfl, fun _ => rfl, fun _ => rfl, fun _ => rfl, fun _ => rfl, fun _ => rfl, fun _ => rfl, fun _ => rfl, fun _ => rfl, fun _ => rfl⟩
@[simp] theorem modSrc_srcs (k : Nat) (g : SicSrc → SicSrc) (s : State) : (modSrc k g s).sic.srcs = tmod s.sic.srcs k g := rfl

/-- `modGroup` leaves the rest of the state alone. -/
@[simp] theorem modGroup_frame (k : Nat) (g : CtrGroup → CtrGroup) (s : State) :
    (modGroup k g s).pending = s.pending ∧ (modGroup k g s).dev = s.dev ∧ (modGroup k g s).ft = s.ft ∧ (modGroup k g s).io = s.io ∧ (modGroup k g s).hoard = s.hoard ∧ (modGroup k g s).dur = s.dur
    ∧ (modGroup k g s).hib = s.hib ∧ (modGroup k g s).journal = s.journal ∧ (modGroup k g s).log = s.log ∧ (modGroup k g s).errs = s.errs ∧ (modGroup k g s).sic = s.sic ∧ (modGroup k g s).hb = s.hb
    ∧ (modGroup k g s).grave = s.grave ∧ (modGroup k g s).mbx = s.mbx ∧ (modGroup k g s).i3c = s.i3c ∧ (modGroup k g s).cmd = s.cmd ∧ (modGroup k g s).sec = s.sec ∧ (modGroup k g s).fuses = s.fuses
    ∧ (modGroup k g s).ledger = s.ledger ∧ (modGroup k g s).start = s.start ∧ (modGroup k g s).disc = s.disc ∧ (modGroup k g s).net = s.net ∧ (modGroup k g s).sw = s.sw ∧ (modGroup k g s).tm = s.tm
    ∧ (modGroup k g s).slices = s.slices ∧ (modGroup k g s).coh = s.coh ∧ (modGroup k g s).drey = s.drey ∧ (modGroup k g s).scrubHours = s.scrubHours ∧ (modGroup k g s).ten = s.ten ∧ (modGroup k g s).pwr = s.pwr
    ∧ (modGroup k g s).cages = s.cages ∧ (modGroup k g s).therm = s.therm ∧ (modGroup k g s).pins = s.pins ∧ (modGroup k g s).free = s.free ∧ (modGroup k g s).outbox = s.outbox ∧ now (modGroup k g s) = now s
    ∧ ftCount (modGroup k g s) = ftCount s ∧ (∀ m, lpOf (modGroup k g s) m = lpOf s m) ∧ (∀ m, cfgOf (modGroup k g s) m = cfgOf s m) ∧ (∀ m, portOf (modGroup k g s) m = portOf s m) ∧ (∀ m, txOf (modGroup k g s) m = txOf s m) ∧ (∀ m, rxOf (modGroup k g s) m = rxOf s m)
    ∧ (∀ m, initOf (modGroup k g s) m = initOf s m) ∧ (∀ m, failOf (modGroup k g s) m = failOf s m) ∧ (∀ m, cxlOf (modGroup k g s) m = cxlOf s m) ∧ (∀ m, winOf (modGroup k g s) m = winOf s m) ∧ (∀ m, egressOf (modGroup k g s) m = egressOf s m) ∧ (∀ m, bindOf (modGroup k g s) m = bindOf s m)
    ∧ (∀ m, tgOf (modGroup k g s) m = tgOf s m) ∧ (∀ m, slOf (modGroup k g s) m = slOf s m) ∧ (∀ m, dreyOf (modGroup k g s) m = dreyOf s m) ∧ (∀ m, cageOf (modGroup k g s) m = cageOf s m) ∧ (∀ m, domOf (modGroup k g s) m = domOf s m) ∧ (∀ m, clkOf (modGroup k g s) m = clkOf s m)
    ∧ (∀ m, kOf (modGroup k g s) m = kOf s m) ∧ (∀ m, linkLive (modGroup k g s) m = linkLive s m) ∧ (∀ m, lpUp (modGroup k g s) m = lpUp s m) ∧ (∀ m, isDen (modGroup k g s) m = isDen s m) ∧ (∀ m, isCxl (modGroup k g s) m = isCxl s m) ∧ (∀ m, isHost (modGroup k g s) m = isHost s m)
    ∧ (∀ m, routeEntry (modGroup k g s) m = routeEntry s m) :=
  ⟨rfl, rfl, rfl, rfl, rfl, rfl, rfl, rfl, rfl, rfl, rfl, rfl, rfl, rfl, rfl, rfl, rfl, rfl, rfl, rfl, rfl, rfl, rfl, rfl, rfl, rfl, rfl, rfl, rfl, rfl, rfl, rfl, rfl, rfl, rfl, rfl, rfl, fun _ => rfl, fun _ => rfl, fun _ => rfl, fun _ => rfl, fun _ => rfl, fun _ => rfl, fun _ => rfl, fun _ => rfl, fun _ => rfl, fun _ => rfl, fun _ => rfl, fun _ => rfl, fun _ => rfl, fun _ => rfl, fun _ => rfl, fun _ => rfl, fun _ => rfl, fun _ => rfl, fun _ => rfl, fun _ => rfl, fun _ => rfl, fun _ => rfl, fun _ => rfl, fun _ => rfl⟩
@[simp] theorem modGroup_groups (k : Nat) (g : CtrGroup → CtrGroup) (s : State) : (modGroup k g s).ctr.groups = tmod s.ctr.groups k g := rfl

/-- `modMon` leaves the rest of the state alone. -/
@[simp] theorem modMon_frame (k : Nat) (g : BwMon → BwMon) (s : State) :
    (modMon k g s).pending = s.pending ∧ (modMon k g s).dev = s.dev ∧ (modMon k g s).ft = s.ft ∧ (modMon k g s).io = s.io ∧ (modMon k g s).hoard = s.hoard ∧ (modMon k g s).dur = s.dur
    ∧ (modMon k g s).hib = s.hib ∧ (modMon k g s).journal = s.journal ∧ (modMon k g s).log = s.log ∧ (modMon k g s).errs = s.errs ∧ (modMon k g s).sic = s.sic ∧ (modMon k g s).hb = s.hb
    ∧ (modMon k g s).grave = s.grave ∧ (modMon k g s).mbx = s.mbx ∧ (modMon k g s).i3c = s.i3c ∧ (modMon k g s).cmd = s.cmd ∧ (modMon k g s).sec = s.sec ∧ (modMon k g s).fuses = s.fuses
    ∧ (modMon k g s).ledger = s.ledger ∧ (modMon k g s).start = s.start ∧ (modMon k g s).disc = s.disc ∧ (modMon k g s).net = s.net ∧ (modMon k g s).sw = s.sw ∧ (modMon k g s).tm = s.tm
    ∧ (modMon k g s).slices = s.slices ∧ (modMon k g s).coh = s.coh ∧ (modMon k g s).drey = s.drey ∧ (modMon k g s).scrubHours = s.scrubHours ∧ (modMon k g s).ten = s.ten ∧ (modMon k g s).pwr = s.pwr
    ∧ (modMon k g s).cages = s.cages ∧ (modMon k g s).therm = s.therm ∧ (modMon k g s).pins = s.pins ∧ (modMon k g s).free = s.free ∧ (modMon k g s).outbox = s.outbox ∧ now (modMon k g s) = now s
    ∧ ftCount (modMon k g s) = ftCount s ∧ (∀ m, lpOf (modMon k g s) m = lpOf s m) ∧ (∀ m, cfgOf (modMon k g s) m = cfgOf s m) ∧ (∀ m, portOf (modMon k g s) m = portOf s m) ∧ (∀ m, txOf (modMon k g s) m = txOf s m) ∧ (∀ m, rxOf (modMon k g s) m = rxOf s m)
    ∧ (∀ m, initOf (modMon k g s) m = initOf s m) ∧ (∀ m, failOf (modMon k g s) m = failOf s m) ∧ (∀ m, cxlOf (modMon k g s) m = cxlOf s m) ∧ (∀ m, winOf (modMon k g s) m = winOf s m) ∧ (∀ m, egressOf (modMon k g s) m = egressOf s m) ∧ (∀ m, bindOf (modMon k g s) m = bindOf s m)
    ∧ (∀ m, tgOf (modMon k g s) m = tgOf s m) ∧ (∀ m, slOf (modMon k g s) m = slOf s m) ∧ (∀ m, dreyOf (modMon k g s) m = dreyOf s m) ∧ (∀ m, cageOf (modMon k g s) m = cageOf s m) ∧ (∀ m, domOf (modMon k g s) m = domOf s m) ∧ (∀ m, clkOf (modMon k g s) m = clkOf s m)
    ∧ (∀ m, kOf (modMon k g s) m = kOf s m) ∧ (∀ m, linkLive (modMon k g s) m = linkLive s m) ∧ (∀ m, lpUp (modMon k g s) m = lpUp s m) ∧ (∀ m, isDen (modMon k g s) m = isDen s m) ∧ (∀ m, isCxl (modMon k g s) m = isCxl s m) ∧ (∀ m, isHost (modMon k g s) m = isHost s m)
    ∧ (∀ m, routeEntry (modMon k g s) m = routeEntry s m) :=
  ⟨rfl, rfl, rfl, rfl, rfl, rfl, rfl, rfl, rfl, rfl, rfl, rfl, rfl, rfl, rfl, rfl, rfl, rfl, rfl, rfl, rfl, rfl, rfl, rfl, rfl, rfl, rfl, rfl, rfl, rfl, rfl, rfl, rfl, rfl, rfl, rfl, rfl, fun _ => rfl, fun _ => rfl, fun _ => rfl, fun _ => rfl, fun _ => rfl, fun _ => rfl, fun _ => rfl, fun _ => rfl, fun _ => rfl, fun _ => rfl, fun _ => rfl, fun _ => rfl, fun _ => rfl, fun _ => rfl, fun _ => rfl, fun _ => rfl, fun _ => rfl, fun _ => rfl, fun _ => rfl, fun _ => rfl, fun _ => rfl, fun _ => rfl, fun _ => rfl, fun _ => rfl⟩
@[simp] theorem modMon_mons (k : Nat) (g : BwMon → BwMon) (s : State) : (modMon k g s).ctr.mons = tmod s.ctr.mons k g := rfl

/-- `modCage` leaves the rest of the state alone. -/
@[simp] theorem modCage_frame (k : Nat) (g : CageSt → CageSt) (s : State) :
    (modCage k g s).pending = s.pending ∧ (modCage k g s).dev = s.dev ∧ (modCage k g s).ft = s.ft ∧ (modCage k g s).io = s.io ∧ (modCage k g s).hoard = s.hoard ∧ (modCage k g s).dur = s.dur
    ∧ (modCage k g s).hib = s.hib ∧ (modCage k g s).journal = s.journal ∧ (modCage k g s).log = s.log ∧ (modCage k g s).errs = s.errs ∧ (modCage k g s).sic = s.sic ∧ (modCage k g s).ctr = s.ctr
    ∧ (modCage k g s).hb = s.hb ∧ (modCage k g s).grave = s.grave ∧ (modCage k g s).mbx = s.mbx ∧ (modCage k g s).i3c = s.i3c ∧ (modCage k g s).cmd = s.cmd ∧ (modCage k g s).sec = s.sec
    ∧ (modCage k g s).fuses = s.fuses ∧ (modCage k g s).ledger = s.ledger ∧ (modCage k g s).start = s.start ∧ (modCage k g s).disc = s.disc ∧ (modCage k g s).net = s.net ∧ (modCage k g s).sw = s.sw
    ∧ (modCage k g s).tm = s.tm ∧ (modCage k g s).slices = s.slices ∧ (modCage k g s).coh = s.coh ∧ (modCage k g s).drey = s.drey ∧ (modCage k g s).scrubHours = s.scrubHours ∧ (modCage k g s).ten = s.ten
    ∧ (modCage k g s).pwr = s.pwr ∧ (modCage k g s).therm = s.therm ∧ (modCage k g s).pins = s.pins ∧ (modCage k g s).free = s.free ∧ (modCage k g s).outbox = s.outbox ∧ now (modCage k g s) = now s
    ∧ ftCount (modCage k g s) = ftCount s ∧ (∀ m, lpOf (modCage k g s) m = lpOf s m) ∧ (∀ m, cfgOf (modCage k g s) m = cfgOf s m) ∧ (∀ m, portOf (modCage k g s) m = portOf s m) ∧ (∀ m, txOf (modCage k g s) m = txOf s m) ∧ (∀ m, rxOf (modCage k g s) m = rxOf s m)
    ∧ (∀ m, initOf (modCage k g s) m = initOf s m) ∧ (∀ m, failOf (modCage k g s) m = failOf s m) ∧ (∀ m, cxlOf (modCage k g s) m = cxlOf s m) ∧ (∀ m, winOf (modCage k g s) m = winOf s m) ∧ (∀ m, egressOf (modCage k g s) m = egressOf s m) ∧ (∀ m, bindOf (modCage k g s) m = bindOf s m)
    ∧ (∀ m, tgOf (modCage k g s) m = tgOf s m) ∧ (∀ m, slOf (modCage k g s) m = slOf s m) ∧ (∀ m, dreyOf (modCage k g s) m = dreyOf s m) ∧ (∀ m, domOf (modCage k g s) m = domOf s m) ∧ (∀ m, clkOf (modCage k g s) m = clkOf s m) ∧ (∀ m, kOf (modCage k g s) m = kOf s m)
    ∧ (∀ m, linkLive (modCage k g s) m = linkLive s m) ∧ (∀ m, lpUp (modCage k g s) m = lpUp s m) ∧ (∀ m, isDen (modCage k g s) m = isDen s m) ∧ (∀ m, isCxl (modCage k g s) m = isCxl s m) ∧ (∀ m, isHost (modCage k g s) m = isHost s m) ∧ (∀ m, routeEntry (modCage k g s) m = routeEntry s m) :=
  ⟨rfl, rfl, rfl, rfl, rfl, rfl, rfl, rfl, rfl, rfl, rfl, rfl, rfl, rfl, rfl, rfl, rfl, rfl, rfl, rfl, rfl, rfl, rfl, rfl, rfl, rfl, rfl, rfl, rfl, rfl, rfl, rfl, rfl, rfl, rfl, rfl, rfl, fun _ => rfl, fun _ => rfl, fun _ => rfl, fun _ => rfl, fun _ => rfl, fun _ => rfl, fun _ => rfl, fun _ => rfl, fun _ => rfl, fun _ => rfl, fun _ => rfl, fun _ => rfl, fun _ => rfl, fun _ => rfl, fun _ => rfl, fun _ => rfl, fun _ => rfl, fun _ => rfl, fun _ => rfl, fun _ => rfl, fun _ => rfl, fun _ => rfl, fun _ => rfl⟩
@[simp] theorem modCage_cages (k : Nat) (g : CageSt → CageSt) (s : State) : (modCage k g s).cages.cages = tmod s.cages.cages k g := rfl
@[simp] theorem modCage_cageOf_self (k : Nat) (g : CageSt → CageSt) (s : State) : cageOf (modCage k g s) k = g (cageOf s k) := tget_tmod_self _ _ _
theorem modCage_cageOf_ne (k : Nat) (g : CageSt → CageSt) (s : State) (m : Nat) (h : m ≠ k) : cageOf (modCage k g s) m = cageOf s m := tget_tmod_ne _ _ _ _ h

/-- `modDom` leaves the rest of the state alone. -/
@[simp] theorem modDom_frame (k : Nat) (g : DomSt → DomSt) (s : State) :
    (modDom k g s).pending = s.pending ∧ (modDom k g s).dev = s.dev ∧ (modDom k g s).ft = s.ft ∧ (modDom k g s).io = s.io ∧ (modDom k g s).hoard = s.hoard ∧ (modDom k g s).dur = s.dur
    ∧ (modDom k g s).hib = s.hib ∧ (modDom k g s).journal = s.journal ∧ (modDom k g s).log = s.log ∧ (modDom k g s).errs = s.errs ∧ (modDom k g s).sic = s.sic ∧ (modDom k g s).ctr = s.ctr
    ∧ (modDom k g s).hb = s.hb ∧ (modDom k g s).grave = s.grave ∧ (modDom k g s).mbx = s.mbx ∧ (modDom k g s).i3c = s.i3c ∧ (modDom k g s).cmd = s.cmd ∧ (modDom k g s).sec = s.sec
    ∧ (modDom k g s).fuses = s.fuses ∧ (modDom k g s).ledger = s.ledger ∧ (modDom k g s).start = s.start ∧ (modDom k g s).disc = s.disc ∧ (modDom k g s).net = s.net ∧ (modDom k g s).sw = s.sw
    ∧ (modDom k g s).tm = s.tm ∧ (modDom k g s).slices = s.slices ∧ (modDom k g s).coh = s.coh ∧ (modDom k g s).drey = s.drey ∧ (modDom k g s).scrubHours = s.scrubHours ∧ (modDom k g s).ten = s.ten
    ∧ (modDom k g s).cages = s.cages ∧ (modDom k g s).therm = s.therm ∧ (modDom k g s).pins = s.pins ∧ (modDom k g s).free = s.free ∧ (modDom k g s).outbox = s.outbox ∧ now (modDom k g s) = now s
    ∧ ftCount (modDom k g s) = ftCount s ∧ (∀ m, lpOf (modDom k g s) m = lpOf s m) ∧ (∀ m, cfgOf (modDom k g s) m = cfgOf s m) ∧ (∀ m, portOf (modDom k g s) m = portOf s m) ∧ (∀ m, txOf (modDom k g s) m = txOf s m) ∧ (∀ m, rxOf (modDom k g s) m = rxOf s m)
    ∧ (∀ m, initOf (modDom k g s) m = initOf s m) ∧ (∀ m, failOf (modDom k g s) m = failOf s m) ∧ (∀ m, cxlOf (modDom k g s) m = cxlOf s m) ∧ (∀ m, winOf (modDom k g s) m = winOf s m) ∧ (∀ m, egressOf (modDom k g s) m = egressOf s m) ∧ (∀ m, bindOf (modDom k g s) m = bindOf s m)
    ∧ (∀ m, tgOf (modDom k g s) m = tgOf s m) ∧ (∀ m, slOf (modDom k g s) m = slOf s m) ∧ (∀ m, dreyOf (modDom k g s) m = dreyOf s m) ∧ (∀ m, cageOf (modDom k g s) m = cageOf s m) ∧ (∀ m, clkOf (modDom k g s) m = clkOf s m) ∧ (∀ m, kOf (modDom k g s) m = kOf s m)
    ∧ (∀ m, linkLive (modDom k g s) m = linkLive s m) ∧ (∀ m, lpUp (modDom k g s) m = lpUp s m) ∧ (∀ m, isDen (modDom k g s) m = isDen s m) ∧ (∀ m, isCxl (modDom k g s) m = isCxl s m) ∧ (∀ m, isHost (modDom k g s) m = isHost s m) ∧ (∀ m, routeEntry (modDom k g s) m = routeEntry s m) :=
  ⟨rfl, rfl, rfl, rfl, rfl, rfl, rfl, rfl, rfl, rfl, rfl, rfl, rfl, rfl, rfl, rfl, rfl, rfl, rfl, rfl, rfl, rfl, rfl, rfl, rfl, rfl, rfl, rfl, rfl, rfl, rfl, rfl, rfl, rfl, rfl, rfl, rfl, fun _ => rfl, fun _ => rfl, fun _ => rfl, fun _ => rfl, fun _ => rfl, fun _ => rfl, fun _ => rfl, fun _ => rfl, fun _ => rfl, fun _ => rfl, fun _ => rfl, fun _ => rfl, fun _ => rfl, fun _ => rfl, fun _ => rfl, fun _ => rfl, fun _ => rfl, fun _ => rfl, fun _ => rfl, fun _ => rfl, fun _ => rfl, fun _ => rfl, fun _ => rfl⟩
@[simp] theorem modDom_doms (k : Nat) (g : DomSt → DomSt) (s : State) : (modDom k g s).pwr.doms = tmod s.pwr.doms k g := rfl
@[simp] theorem modDom_domOf_self (k : Nat) (g : DomSt → DomSt) (s : State) : domOf (modDom k g s) k = g (domOf s k) := tget_tmod_self _ _ _
theorem modDom_domOf_ne (k : Nat) (g : DomSt → DomSt) (s : State) (m : Nat) (h : m ≠ k) : domOf (modDom k g s) m = domOf s m := tget_tmod_ne _ _ _ _ h

/-- `modClk` leaves the rest of the state alone. -/
@[simp] theorem modClk_frame (k : Nat) (g : ClkSt → ClkSt) (s : State) :
    (modClk k g s).pending = s.pending ∧ (modClk k g s).dev = s.dev ∧ (modClk k g s).ft = s.ft ∧ (modClk k g s).io = s.io ∧ (modClk k g s).hoard = s.hoard ∧ (modClk k g s).dur = s.dur
    ∧ (modClk k g s).hib = s.hib ∧ (modClk k g s).journal = s.journal ∧ (modClk k g s).log = s.log ∧ (modClk k g s).errs = s.errs ∧ (modClk k g s).sic = s.sic ∧ (modClk k g s).ctr = s.ctr
    ∧ (modClk k g s).hb = s.hb ∧ (modClk k g s).grave = s.grave ∧ (modClk k g s).mbx = s.mbx ∧ (modClk k g s).i3c = s.i3c ∧ (modClk k g s).cmd = s.cmd ∧ (modClk k g s).sec = s.sec
    ∧ (modClk k g s).fuses = s.fuses ∧ (modClk k g s).ledger = s.ledger ∧ (modClk k g s).start = s.start ∧ (modClk k g s).disc = s.disc ∧ (modClk k g s).net = s.net ∧ (modClk k g s).sw = s.sw
    ∧ (modClk k g s).tm = s.tm ∧ (modClk k g s).slices = s.slices ∧ (modClk k g s).coh = s.coh ∧ (modClk k g s).drey = s.drey ∧ (modClk k g s).scrubHours = s.scrubHours ∧ (modClk k g s).ten = s.ten
    ∧ (modClk k g s).cages = s.cages ∧ (modClk k g s).therm = s.therm ∧ (modClk k g s).pins = s.pins ∧ (modClk k g s).free = s.free ∧ (modClk k g s).outbox = s.outbox ∧ now (modClk k g s) = now s
    ∧ ftCount (modClk k g s) = ftCount s ∧ (∀ m, lpOf (modClk k g s) m = lpOf s m) ∧ (∀ m, cfgOf (modClk k g s) m = cfgOf s m) ∧ (∀ m, portOf (modClk k g s) m = portOf s m) ∧ (∀ m, txOf (modClk k g s) m = txOf s m) ∧ (∀ m, rxOf (modClk k g s) m = rxOf s m)
    ∧ (∀ m, initOf (modClk k g s) m = initOf s m) ∧ (∀ m, failOf (modClk k g s) m = failOf s m) ∧ (∀ m, cxlOf (modClk k g s) m = cxlOf s m) ∧ (∀ m, winOf (modClk k g s) m = winOf s m) ∧ (∀ m, egressOf (modClk k g s) m = egressOf s m) ∧ (∀ m, bindOf (modClk k g s) m = bindOf s m)
    ∧ (∀ m, tgOf (modClk k g s) m = tgOf s m) ∧ (∀ m, slOf (modClk k g s) m = slOf s m) ∧ (∀ m, dreyOf (modClk k g s) m = dreyOf s m) ∧ (∀ m, cageOf (modClk k g s) m = cageOf s m) ∧ (∀ m, domOf (modClk k g s) m = domOf s m) ∧ (∀ m, kOf (modClk k g s) m = kOf s m)
    ∧ (∀ m, linkLive (modClk k g s) m = linkLive s m) ∧ (∀ m, lpUp (modClk k g s) m = lpUp s m) ∧ (∀ m, isDen (modClk k g s) m = isDen s m) ∧ (∀ m, isCxl (modClk k g s) m = isCxl s m) ∧ (∀ m, isHost (modClk k g s) m = isHost s m) ∧ (∀ m, routeEntry (modClk k g s) m = routeEntry s m) :=
  ⟨rfl, rfl, rfl, rfl, rfl, rfl, rfl, rfl, rfl, rfl, rfl, rfl, rfl, rfl, rfl, rfl, rfl, rfl, rfl, rfl, rfl, rfl, rfl, rfl, rfl, rfl, rfl, rfl, rfl, rfl, rfl, rfl, rfl, rfl, rfl, rfl, rfl, fun _ => rfl, fun _ => rfl, fun _ => rfl, fun _ => rfl, fun _ => rfl, fun _ => rfl, fun _ => rfl, fun _ => rfl, fun _ => rfl, fun _ => rfl, fun _ => rfl, fun _ => rfl, fun _ => rfl, fun _ => rfl, fun _ => rfl, fun _ => rfl, fun _ => rfl, fun _ => rfl, fun _ => rfl, fun _ => rfl, fun _ => rfl, fun _ => rfl, fun _ => rfl⟩
@[simp] theorem modClk_clks (k : Nat) (g : ClkSt → ClkSt) (s : State) : (modClk k g s).pwr.clks = tmod s.pwr.clks k g := rfl
@[simp] theorem modClk_clkOf_self (k : Nat) (g : ClkSt → ClkSt) (s : State) : clkOf (modClk k g s) k = g (clkOf s k) := tget_tmod_self _ _ _
theorem modClk_clkOf_ne (k : Nat) (g : ClkSt → ClkSt) (s : State) (m : Nat) (h : m ≠ k) : clkOf (modClk k g s) m = clkOf s m := tget_tmod_ne _ _ _ _ h

/-- `modK` leaves the rest of the state alone. -/
@[simp] theorem modK_frame (k : Nat) (g : KStep → KStep) (s : State) :
    (modK k g s).pending = s.pending ∧ (modK k g s).dev = s.dev ∧ (modK k g s).ft = s.ft ∧ (modK k g s).io = s.io ∧ (modK k g s).hoard = s.hoard ∧ (modK k g s).dur = s.dur
    ∧ (modK k g s).hib = s.hib ∧ (modK k g s).journal = s.journal ∧ (modK k g s).log = s.log ∧ (modK k g s).errs = s.errs ∧ (modK k g s).sic = s.sic ∧ (modK k g s).ctr = s.ctr
    ∧ (modK k g s).hb = s.hb ∧ (modK k g s).grave = s.grave ∧ (modK k g s).mbx = s.mbx ∧ (modK k g s).i3c = s.i3c ∧ (modK k g s).cmd = s.cmd ∧ (modK k g s).sec = s.sec
    ∧ (modK k g s).fuses = s.fuses ∧ (modK k g s).ledger = s.ledger ∧ (modK k g s).disc = s.disc ∧ (modK k g s).net = s.net ∧ (modK k g s).sw = s.sw ∧ (modK k g s).tm = s.tm
    ∧ (modK k g s).slices = s.slices ∧ (modK k g s).coh = s.coh ∧ (modK k g s).drey = s.drey ∧ (modK k g s).scrubHours = s.scrubHours ∧ (modK k g s).ten = s.ten ∧ (modK k g s).pwr = s.pwr
    ∧ (modK k g s).cages = s.cages ∧ (modK k g s).therm = s.therm ∧ (modK k g s).pins = s.pins ∧ (modK k g s).free = s.free ∧ (modK k g s).outbox = s.outbox ∧ now (modK k g s) = now s
    ∧ ftCount (modK k g s) = ftCount s ∧ (∀ m, lpOf (modK k g s) m = lpOf s m) ∧ (∀ m, cfgOf (modK k g s) m = cfgOf s m) ∧ (∀ m, portOf (modK k g s) m = portOf s m) ∧ (∀ m, txOf (modK k g s) m = txOf s m) ∧ (∀ m, rxOf (modK k g s) m = rxOf s m)
    ∧ (∀ m, initOf (modK k g s) m = initOf s m) ∧ (∀ m, failOf (modK k g s) m = failOf s m) ∧ (∀ m, cxlOf (modK k g s) m = cxlOf s m) ∧ (∀ m, winOf (modK k g s) m = winOf s m) ∧ (∀ m, egressOf (modK k g s) m = egressOf s m) ∧ (∀ m, bindOf (modK k g s) m = bindOf s m)
    ∧ (∀ m, tgOf (modK k g s) m = tgOf s m) ∧ (∀ m, slOf (modK k g s) m = slOf s m) ∧ (∀ m, dreyOf (modK k g s) m = dreyOf s m) ∧ (∀ m, cageOf (modK k g s) m = cageOf s m) ∧ (∀ m, domOf (modK k g s) m = domOf s m) ∧ (∀ m, clkOf (modK k g s) m = clkOf s m)
    ∧ (∀ m, linkLive (modK k g s) m = linkLive s m) ∧ (∀ m, lpUp (modK k g s) m = lpUp s m) ∧ (∀ m, isDen (modK k g s) m = isDen s m) ∧ (∀ m, isCxl (modK k g s) m = isCxl s m) ∧ (∀ m, isHost (modK k g s) m = isHost s m) ∧ (∀ m, routeEntry (modK k g s) m = routeEntry s m) :=
  ⟨rfl, rfl, rfl, rfl, rfl, rfl, rfl, rfl, rfl, rfl, rfl, rfl, rfl, rfl, rfl, rfl, rfl, rfl, rfl, rfl, rfl, rfl, rfl, rfl, rfl, rfl, rfl, rfl, rfl, rfl, rfl, rfl, rfl, rfl, rfl, rfl, rfl, fun _ => rfl, fun _ => rfl, fun _ => rfl, fun _ => rfl, fun _ => rfl, fun _ => rfl, fun _ => rfl, fun _ => rfl, fun _ => rfl, fun _ => rfl, fun _ => rfl, fun _ => rfl, fun _ => rfl, fun _ => rfl, fun _ => rfl, fun _ => rfl, fun _ => rfl, fun _ => rfl, fun _ => rfl, fun _ => rfl, fun _ => rfl, fun _ => rfl, fun _ => rfl⟩
@[simp] theorem modK_steps (k : Nat) (g : KStep → KStep) (s : State) : (modK k g s).start.steps = tmod s.start.steps k g := rfl
@[simp] theorem modK_kOf_self (k : Nat) (g : KStep → KStep) (s : State) : kOf (modK k g s) k = g (kOf s k) := tget_tmod_self _ _ _
theorem modK_kOf_ne (k : Nat) (g : KStep → KStep) (s : State) (m : Nat) (h : m ≠ k) : kOf (modK k g s) m = kOf s m := tget_tmod_ne _ _ _ _ h

/-- A message to the outside is all that `emit` adds. -/
@[simp] theorem emit_frame (o : Out) (s : State) :
    (emit o s).pending = s.pending ∧ (emit o s).dev = s.dev ∧ (emit o s).ft = s.ft ∧ (emit o s).io = s.io ∧ (emit o s).hoard = s.hoard ∧ (emit o s).dur = s.dur
    ∧ (emit o s).hib = s.hib ∧ (emit o s).journal = s.journal ∧ (emit o s).log = s.log ∧ (emit o s).errs = s.errs ∧ (emit o s).sic = s.sic ∧ (emit o s).ctr = s.ctr
    ∧ (emit o s).hb = s.hb ∧ (emit o s).grave = s.grave ∧ (emit o s).mbx = s.mbx ∧ (emit o s).i3c = s.i3c ∧ (emit o s).cmd = s.cmd ∧ (emit o s).sec = s.sec
    ∧ (emit o s).fuses = s.fuses ∧ (emit o s).ledger = s.ledger ∧ (emit o s).start = s.start ∧ (emit o s).disc = s.disc ∧ (emit o s).net = s.net ∧ (emit o s).sw = s.sw
    ∧ (emit o s).tm = s.tm ∧ (emit o s).slices = s.slices ∧ (emit o s).coh = s.coh ∧ (emit o s).drey = s.drey ∧ (emit o s).scrubHours = s.scrubHours ∧ (emit o s).ten = s.ten
    ∧ (emit o s).pwr = s.pwr ∧ (emit o s).cages = s.cages ∧ (emit o s).therm = s.therm ∧ (emit o s).pins = s.pins ∧ (emit o s).free = s.free ∧ (emit o s).outbox = o :: s.outbox
    ∧ now (emit o s) = now s ∧ ftCount (emit o s) = ftCount s :=
  ⟨rfl, rfl, rfl, rfl, rfl, rfl, rfl, rfl, rfl, rfl, rfl, rfl, rfl, rfl, rfl, rfl, rfl, rfl, rfl, rfl, rfl, rfl, rfl, rfl, rfl, rfl, rfl, rfl, rfl, rfl, rfl, rfl, rfl, rfl, rfl, rfl, rfl, rfl⟩

/-- A free value drawn only advances the counter of draws. -/
@[simp] theorem drawFree_frame (s : State) :
    (drawFree s).2.pending = s.pending ∧ (drawFree s).2.dev = s.dev ∧ (drawFree s).2.ft = s.ft ∧ (drawFree s).2.io = s.io ∧ (drawFree s).2.hoard = s.hoard ∧ (drawFree s).2.dur = s.dur
    ∧ (drawFree s).2.hib = s.hib ∧ (drawFree s).2.journal = s.journal ∧ (drawFree s).2.log = s.log ∧ (drawFree s).2.errs = s.errs ∧ (drawFree s).2.sic = s.sic ∧ (drawFree s).2.ctr = s.ctr
    ∧ (drawFree s).2.hb = s.hb ∧ (drawFree s).2.grave = s.grave ∧ (drawFree s).2.mbx = s.mbx ∧ (drawFree s).2.i3c = s.i3c ∧ (drawFree s).2.cmd = s.cmd ∧ (drawFree s).2.sec = s.sec
    ∧ (drawFree s).2.fuses = s.fuses ∧ (drawFree s).2.ledger = s.ledger ∧ (drawFree s).2.start = s.start ∧ (drawFree s).2.disc = s.disc ∧ (drawFree s).2.net = s.net ∧ (drawFree s).2.sw = s.sw
    ∧ (drawFree s).2.tm = s.tm ∧ (drawFree s).2.slices = s.slices ∧ (drawFree s).2.coh = s.coh ∧ (drawFree s).2.drey = s.drey ∧ (drawFree s).2.scrubHours = s.scrubHours ∧ (drawFree s).2.ten = s.ten
    ∧ (drawFree s).2.pwr = s.pwr ∧ (drawFree s).2.cages = s.cages ∧ (drawFree s).2.therm = s.therm ∧ (drawFree s).2.pins = s.pins ∧ (drawFree s).2.outbox = s.outbox ∧ (drawFree s).2.free = s.free + 1
    ∧ (drawFree s).1 = Config.freeNat s.free :=
  ⟨rfl, rfl, rfl, rfl, rfl, rfl, rfl, rfl, rfl, rfl, rfl, rfl, rfl, rfl, rfl, rfl, rfl, rfl, rfl, rfl, rfl, rfl, rfl, rfl, rfl, rfl, rfl, rfl, rfl, rfl, rfl, rfl, rfl, rfl, rfl, rfl, rfl⟩

/-- The updates of one row of a table inside a part of the state reduce to the update of that part. -/
@[simp] theorem setTenant_eq (i : Nat) (t : Tenant) (s : State) : setTenant i t s = modTen (fun x => { x with tenants := tset x.tenants i t }) s := rfl
@[simp] theorem setSlice_eq (i : Nat) (r : SliceRec) (s : State) : setSlice i r s = modTen (fun x => { x with slices := tset x.slices i r }) s := rfl
@[simp] theorem modRules_eq (h : Handle) (g : RuleSet → RuleSet) (s : State) : modRules h g s = modTen (fun t => { t with ruleSets := tmod t.ruleSets (hIdx h) g }) s := rfl
@[simp] theorem modMeter_eq (h : Handle) (g : MeterSt → MeterSt) (s : State) : modMeter h g s = modTm (fun t => { t with meters := tmod t.meters (hIdx h) g }) s := rfl
@[simp] theorem setShaper_eq (k : Nat) (x : ShaperSt) (s : State) : setShaper k x s = modTm (fun t => { t with shapers := tset t.shapers k x }) s := rfl
@[simp] theorem setWay_eq (k set w : Nat) (v : DreyWay) (s : State) : setWay k set w v s = modDrey k (fun d => { d with ways := tset d.ways (set * 16 + w) v }) s := rfl
@[simp] theorem modTrk_eq (i k : Nat) (g : Trk → Trk) (s : State) : modTrk i k g s = modSl i (fun x => { x with trks := tmod x.trks k g }) s := rfl
theorem modTrk_trkOf_self (i k : Nat) (g : Trk → Trk) (s : State) : trkOf (modTrk i k g s) i k = g (trkOf s i k) := by
  simp only [trkOf, modTrk, modSl_slOf_self, tget_tmod_self]

end Sys2Proof.Machine
end

