-- ==== Sys2Proof/Laws/Ops.lean ====
section
/-! SUPPORT. What the shared operations can touch: a count, an event, a record, an interrupt, a first error, a state change and a cage leave everything else alone. -/

namespace Sys2Proof.Machine

/-- What one programmed slot does when its key counts: the slot's own step of `slotCount`. -/
def slotStep (key n block : Nat) (c : CtrCtx) (p : PerfSlot) (s : State) : State :=
  let raw := p.value + n
  let wraps := decide (raw ≥ 2 ^ 40)
  let crosses := p.period ≠ 0 && raw / p.period != p.value / p.period
  let upd := s.ctr.slots.map (fun q => if q.group == p.group && q.slot == p.slot && q.port == p.port then { q with value := raw % 2 ^ 40, wrap := q.wrap || wraps } else q)
  let s := { s with ctr := { s.ctr with slots := upd } }
  let s := if crosses then addSample p c s else s
  if wraps || crosses then sicEdge (8 * block + 2) s else s

/-- Counting in the slots is one step per slot that counts the key. -/
theorem slotCount_eq_fold (key n block : Nat) (c : CtrCtx) (s : State) :
    slotCount key n block c s = (s.ctr.slots.filter (fun p => p.key == some key && slotPasses p c)).foldl (fun s p => slotStep key n block c p s) s := rfl

/-- An MSI-X interrupt touches only the pending bits and the messages. -/
@[simp] theorem msix_frame (v : Nat) (s : State) :
    (msix v s).pending = s.pending ∧ (msix v s).dev = s.dev ∧ (msix v s).ft = s.ft ∧ (msix v s).io = s.io ∧ (msix v s).hoard = s.hoard ∧ (msix v s).dur = s.dur
    ∧ (msix v s).hib = s.hib ∧ (msix v s).journal = s.journal ∧ (msix v s).log = s.log ∧ (msix v s).errs = s.errs ∧ (msix v s).sic = s.sic ∧ (msix v s).ctr = s.ctr
    ∧ (msix v s).hb = s.hb ∧ (msix v s).grave = s.grave ∧ (msix v s).i3c = s.i3c ∧ (msix v s).cmd = s.cmd ∧ (msix v s).sec = s.sec ∧ (msix v s).fuses = s.fuses
    ∧ (msix v s).ledger = s.ledger ∧ (msix v s).start = s.start ∧ (msix v s).disc = s.disc ∧ (msix v s).net = s.net ∧ (msix v s).sw = s.sw ∧ (msix v s).tm = s.tm
    ∧ (msix v s).slices = s.slices ∧ (msix v s).coh = s.coh ∧ (msix v s).drey = s.drey ∧ (msix v s).scrubHours = s.scrubHours ∧ (msix v s).ten = s.ten ∧ (msix v s).pwr = s.pwr
    ∧ (msix v s).cages = s.cages ∧ (msix v s).therm = s.therm ∧ (msix v s).pins = s.pins ∧ (msix v s).free = s.free ∧ now (msix v s) = now s ∧ ftCount (msix v s) = ftCount s := by
  unfold msix; split <;> simp [now, ftCount, emit]

/-- A source that becomes pending touches only the interrupt controller and the MSI-X bits. -/
@[simp] theorem sicPend_frame (src n : Nat) (s : State) :
    (sicPend src n s).pending = s.pending ∧ (sicPend src n s).dev = s.dev ∧ (sicPend src n s).ft = s.ft ∧ (sicPend src n s).io = s.io ∧ (sicPend src n s).hoard = s.hoard ∧ (sicPend src n s).dur = s.dur
    ∧ (sicPend src n s).hib = s.hib ∧ (sicPend src n s).journal = s.journal ∧ (sicPend src n s).log = s.log ∧ (sicPend src n s).errs = s.errs ∧ (sicPend src n s).ctr = s.ctr ∧ (sicPend src n s).hb = s.hb
    ∧ (sicPend src n s).grave = s.grave ∧ (sicPend src n s).i3c = s.i3c ∧ (sicPend src n s).cmd = s.cmd ∧ (sicPend src n s).sec = s.sec ∧ (sicPend src n s).fuses = s.fuses ∧ (sicPend src n s).ledger = s.ledger
    ∧ (sicPend src n s).start = s.start ∧ (sicPend src n s).disc = s.disc ∧ (sicPend src n s).net = s.net ∧ (sicPend src n s).sw = s.sw ∧ (sicPend src n s).tm = s.tm ∧ (sicPend src n s).slices = s.slices
    ∧ (sicPend src n s).coh = s.coh ∧ (sicPend src n s).drey = s.drey ∧ (sicPend src n s).scrubHours = s.scrubHours ∧ (sicPend src n s).ten = s.ten ∧ (sicPend src n s).pwr = s.pwr ∧ (sicPend src n s).cages = s.cages
    ∧ (sicPend src n s).therm = s.therm ∧ (sicPend src n s).pins = s.pins ∧ (sicPend src n s).free = s.free ∧ now (sicPend src n s) = now s ∧ ftCount (sicPend src n s) = ftCount s := by
  unfold sicPend; dsimp only; split <;> simp

/-- An edge of a source touches only the interrupt controller and the MSI-X bits. -/
@[simp] theorem sicEdge_frame (src : Nat) (s : State) :
    (sicEdge src s).pending = s.pending ∧ (sicEdge src s).dev = s.dev ∧ (sicEdge src s).ft = s.ft ∧ (sicEdge src s).io = s.io ∧ (sicEdge src s).hoard = s.hoard ∧ (sicEdge src s).dur = s.dur
    ∧ (sicEdge src s).hib = s.hib ∧ (sicEdge src s).journal = s.journal ∧ (sicEdge src s).log = s.log ∧ (sicEdge src s).errs = s.errs ∧ (sicEdge src s).ctr = s.ctr ∧ (sicEdge src s).hb = s.hb
    ∧ (sicEdge src s).grave = s.grave ∧ (sicEdge src s).i3c = s.i3c ∧ (sicEdge src s).cmd = s.cmd ∧ (sicEdge src s).sec = s.sec ∧ (sicEdge src s).fuses = s.fuses ∧ (sicEdge src s).ledger = s.ledger
    ∧ (sicEdge src s).start = s.start ∧ (sicEdge src s).disc = s.disc ∧ (sicEdge src s).net = s.net ∧ (sicEdge src s).sw = s.sw ∧ (sicEdge src s).tm = s.tm ∧ (sicEdge src s).slices = s.slices
    ∧ (sicEdge src s).coh = s.coh ∧ (sicEdge src s).drey = s.drey ∧ (sicEdge src s).scrubHours = s.scrubHours ∧ (sicEdge src s).ten = s.ten ∧ (sicEdge src s).pwr = s.pwr ∧ (sicEdge src s).cages = s.cages
    ∧ (sicEdge src s).therm = s.therm ∧ (sicEdge src s).pins = s.pins ∧ (sicEdge src s).free = s.free ∧ now (sicEdge src s) = now s ∧ ftCount (sicEdge src s) = ftCount s := by
  unfold sicEdge; dsimp only; split <;> (try split) <;> simp

/-- A level of a source touches only the interrupt controller and the MSI-X bits. -/
@[simp] theorem sicLevel_frame (src : Nat) (on : Bool) (s : State) :
    (sicLevel src on s).pending = s.pending ∧ (sicLevel src on s).dev = s.dev ∧ (sicLevel src on s).ft = s.ft ∧ (sicLevel src on s).io = s.io ∧ (sicLevel src on s).hoard = s.hoard ∧ (sicLevel src on s).dur = s.dur
    ∧ (sicLevel src on s).hib = s.hib ∧ (sicLevel src on s).journal = s.journal ∧ (sicLevel src on s).log = s.log ∧ (sicLevel src on s).errs = s.errs ∧ (sicLevel src on s).ctr = s.ctr ∧ (sicLevel src on s).hb = s.hb
    ∧ (sicLevel src on s).grave = s.grave ∧ (sicLevel src on s).i3c = s.i3c ∧ (sicLevel src on s).cmd = s.cmd ∧ (sicLevel src on s).sec = s.sec ∧ (sicLevel src on s).fuses = s.fuses ∧ (sicLevel src on s).ledger = s.ledger
    ∧ (sicLevel src on s).start = s.start ∧ (sicLevel src on s).disc = s.disc ∧ (sicLevel src on s).net = s.net ∧ (sicLevel src on s).sw = s.sw ∧ (sicLevel src on s).tm = s.tm ∧ (sicLevel src on s).slices = s.slices
    ∧ (sicLevel src on s).coh = s.coh ∧ (sicLevel src on s).drey = s.drey ∧ (sicLevel src on s).scrubHours = s.scrubHours ∧ (sicLevel src on s).ten = s.ten ∧ (sicLevel src on s).pwr = s.pwr ∧ (sicLevel src on s).cages = s.cages
    ∧ (sicLevel src on s).therm = s.therm ∧ (sicLevel src on s).pins = s.pins ∧ (sicLevel src on s).free = s.free ∧ now (sicLevel src on s) = now s ∧ ftCount (sicLevel src on s) = ftCount s := by
  unfold sicLevel; dsimp only; split <;> simp

/-- A sample is kept by the counters only. -/
@[simp] theorem addSample_frame (p : PerfSlot) (c : CtrCtx) (s : State) :
    (addSample p c s).pending = s.pending ∧ (addSample p c s).dev = s.dev ∧ (addSample p c s).ft = s.ft ∧ (addSample p c s).io = s.io ∧ (addSample p c s).hoard = s.hoard ∧ (addSample p c s).dur = s.dur
    ∧ (addSample p c s).hib = s.hib ∧ (addSample p c s).journal = s.journal ∧ (addSample p c s).log = s.log ∧ (addSample p c s).errs = s.errs ∧ (addSample p c s).hb = s.hb ∧ (addSample p c s).grave = s.grave
    ∧ (addSample p c s).i3c = s.i3c ∧ (addSample p c s).cmd = s.cmd ∧ (addSample p c s).sec = s.sec ∧ (addSample p c s).fuses = s.fuses ∧ (addSample p c s).ledger = s.ledger ∧ (addSample p c s).start = s.start
    ∧ (addSample p c s).disc = s.disc ∧ (addSample p c s).net = s.net ∧ (addSample p c s).sw = s.sw ∧ (addSample p c s).tm = s.tm ∧ (addSample p c s).slices = s.slices ∧ (addSample p c s).coh = s.coh
    ∧ (addSample p c s).drey = s.drey ∧ (addSample p c s).scrubHours = s.scrubHours ∧ (addSample p c s).ten = s.ten ∧ (addSample p c s).pwr = s.pwr ∧ (addSample p c s).cages = s.cages ∧ (addSample p c s).therm = s.therm
    ∧ (addSample p c s).pins = s.pins ∧ (addSample p c s).free = s.free ∧ now (addSample p c s) = now s ∧ ftCount (addSample p c s) = ftCount s := by
  unfold addSample; simp [modGroup, now, ftCount]

/-- One programmed slot counts in the counters, and wakes its source when it wraps. -/
@[simp] theorem slotStep_frame (key n block : Nat) (c : CtrCtx) (p : PerfSlot) (s : State) :
    (slotStep key n block c p s).pending = s.pending ∧ (slotStep key n block c p s).dev = s.dev ∧ (slotStep key n block c p s).ft = s.ft ∧ (slotStep key n block c p s).io = s.io ∧ (slotStep key n block c p s).hoard = s.hoard ∧ (slotStep key n block c p s).dur = s.dur
    ∧ (slotStep key n block c p s).hib = s.hib ∧ (slotStep key n block c p s).journal = s.journal ∧ (slotStep key n block c p s).log = s.log ∧ (slotStep key n block c p s).errs = s.errs ∧ (slotStep key n block c p s).hb = s.hb ∧ (slotStep key n block c p s).grave = s.grave
    ∧ (slotStep key n block c p s).i3c = s.i3c ∧ (slotStep key n block c p s).cmd = s.cmd ∧ (slotStep key n block c p s).sec = s.sec ∧ (slotStep key n block c p s).fuses = s.fuses ∧ (slotStep key n block c p s).ledger = s.ledger ∧ (slotStep key n block c p s).start = s.start
    ∧ (slotStep key n block c p s).disc = s.disc ∧ (slotStep key n block c p s).net = s.net ∧ (slotStep key n block c p s).sw = s.sw ∧ (slotStep key n block c p s).tm = s.tm ∧ (slotStep key n block c p s).slices = s.slices ∧ (slotStep key n block c p s).coh = s.coh
    ∧ (slotStep key n block c p s).drey = s.drey ∧ (slotStep key n block c p s).scrubHours = s.scrubHours ∧ (slotStep key n block c p s).ten = s.ten ∧ (slotStep key n block c p s).pwr = s.pwr ∧ (slotStep key n block c p s).cages = s.cages ∧ (slotStep key n block c p s).therm = s.therm
    ∧ (slotStep key n block c p s).pins = s.pins ∧ (slotStep key n block c p s).free = s.free ∧ now (slotStep key n block c p s) = now s ∧ ftCount (slotStep key n block c p s) = ftCount s := by
  unfold slotStep; dsimp only; (split <;> split) <;> simp [now, ftCount]

/-- The programmed slots count in the counters and wake their sources. -/
@[simp] theorem slotCount_frame (key n block : Nat) (c : CtrCtx) (s : State) :
    (slotCount key n block c s).pending = s.pending ∧ (slotCount key n block c s).dev = s.dev ∧ (slotCount key n block c s).ft = s.ft ∧ (slotCount key n block c s).io = s.io ∧ (slotCount key n block c s).hoard = s.hoard ∧ (slotCount key n block c s).dur = s.dur
    ∧ (slotCount key n block c s).hib = s.hib ∧ (slotCount key n block c s).journal = s.journal ∧ (slotCount key n block c s).log = s.log ∧ (slotCount key n block c s).errs = s.errs ∧ (slotCount key n block c s).hb = s.hb ∧ (slotCount key n block c s).grave = s.grave
    ∧ (slotCount key n block c s).i3c = s.i3c ∧ (slotCount key n block c s).cmd = s.cmd ∧ (slotCount key n block c s).sec = s.sec ∧ (slotCount key n block c s).fuses = s.fuses ∧ (slotCount key n block c s).ledger = s.ledger ∧ (slotCount key n block c s).start = s.start
    ∧ (slotCount key n block c s).disc = s.disc ∧ (slotCount key n block c s).net = s.net ∧ (slotCount key n block c s).sw = s.sw ∧ (slotCount key n block c s).tm = s.tm ∧ (slotCount key n block c s).slices = s.slices ∧ (slotCount key n block c s).coh = s.coh
    ∧ (slotCount key n block c s).drey = s.drey ∧ (slotCount key n block c s).scrubHours = s.scrubHours ∧ (slotCount key n block c s).ten = s.ten ∧ (slotCount key n block c s).pwr = s.pwr ∧ (slotCount key n block c s).cages = s.cages ∧ (slotCount key n block c s).therm = s.therm
    ∧ (slotCount key n block c s).pins = s.pins ∧ (slotCount key n block c s).free = s.free ∧ now (slotCount key n block c s) = now s ∧ ftCount (slotCount key n block c s) = ftCount s := by
  suffices h : ∀ (l : List PerfSlot) (s : State), (l.foldl (fun s p => slotStep key n block c p s) s).pending = s.pending ∧ (l.foldl (fun s p => slotStep key n block c p s) s).dev = s.dev ∧ (l.foldl (fun s p => slotStep key n block c p s) s).ft = s.ft ∧ (l.foldl (fun s p => slotStep key n block c p s) s).io = s.io ∧ (l.foldl (fun s p => slotStep key n block c p s) s).hoard = s.hoard ∧ (l.foldl (fun s p => slotStep key n block c p s) s).dur = s.dur ∧ (l.foldl (fun s p => slotStep key n block c p s) s).hib = s.hib ∧ (l.foldl (fun s p => slotStep key n block c p s) s).journal = s.journal ∧ (l.foldl (fun s p => slotStep key n block c p s) s).log = s.log ∧ (l.foldl (fun s p => slotStep key n block c p s) s).errs = s.errs ∧ (l.foldl (fun s p => slotStep key n block c p s) s).hb = s.hb ∧ (l.foldl (fun s p => slotStep key n block c p s) s).grave = s.grave ∧ (l.foldl (fun s p => slotStep key n block c p s) s).i3c = s.i3c ∧ (l.foldl (fun s p => slotStep key n block c p s) s).cmd = s.cmd ∧ (l.foldl (fun s p => slotStep key n block c p s) s).sec = s.sec ∧ (l.foldl (fun s p => slotStep key n block c p s) s).fuses = s.fuses ∧ (l.foldl (fun s p => slotStep key n block c p s) s).ledger = s.ledger ∧ (l.foldl (fun s p => slotStep key n block c p s) s).start = s.start ∧ (l.foldl (fun s p => slotStep key n block c p s) s).disc = s.disc ∧ (l.foldl (fun s p => slotStep key n block c p s) s).net = s.net ∧ (l.foldl (fun s p => slotStep key n block c p s) s).sw = s.sw ∧ (l.foldl (fun s p => slotStep key n block c p s) s).tm = s.tm ∧ (l.foldl (fun s p => slotStep key n block c p s) s).slices = s.slices ∧ (l.foldl (fun s p => slotStep key n block c p s) s).coh = s.coh ∧ (l.foldl (fun s p => slotStep key n block c p s) s).drey = s.drey ∧ (l.foldl (fun s p => slotStep key n block c p s) s).scrubHours = s.scrubHours ∧ (l.foldl (fun s p => slotStep key n block c p s) s).ten = s.ten ∧ (l.foldl (fun s p => slotStep key n block c p s) s).pwr = s.pwr ∧ (l.foldl (fun s p => slotStep key n block c p s) s).cages = s.cages ∧ (l.foldl (fun s p => slotStep key n block c p s) s).therm = s.therm ∧ (l.foldl (fun s p => slotStep key n block c p s) s).pins = s.pins ∧ (l.foldl (fun s p => slotStep key n block c p s) s).free = s.free ∧ now (l.foldl (fun s p => slotStep key n block c p s) s) = now s ∧ ftCount (l.foldl (fun s p => slotStep key n block c p s) s) = ftCount s by
    rw [slotCount_eq_fold]; exact h _ s
  intro l
  induction l with
  | nil => intro s; simp
  | cons p l ih => intro s; simp only [List.foldl_cons]; simpa using ih (slotStep key n block c p s)

/-- A count touches only the counters, and the interrupt controller when it wraps. -/
@[simp] theorem bumpC_frame (k : Ctr) (unit idx n : Nat) (c : CtrCtx) (s : State) :
    (bumpC k unit idx n c s).pending = s.pending ∧ (bumpC k unit idx n c s).dev = s.dev ∧ (bumpC k unit idx n c s).ft = s.ft ∧ (bumpC k unit idx n c s).io = s.io ∧ (bumpC k unit idx n c s).hoard = s.hoard ∧ (bumpC k unit idx n c s).dur = s.dur
    ∧ (bumpC k unit idx n c s).hib = s.hib ∧ (bumpC k unit idx n c s).journal = s.journal ∧ (bumpC k unit idx n c s).log = s.log ∧ (bumpC k unit idx n c s).errs = s.errs ∧ (bumpC k unit idx n c s).hb = s.hb ∧ (bumpC k unit idx n c s).grave = s.grave
    ∧ (bumpC k unit idx n c s).i3c = s.i3c ∧ (bumpC k unit idx n c s).cmd = s.cmd ∧ (bumpC k unit idx n c s).sec = s.sec ∧ (bumpC k unit idx n c s).fuses = s.fuses ∧ (bumpC k unit idx n c s).ledger = s.ledger ∧ (bumpC k unit idx n c s).start = s.start
    ∧ (bumpC k unit idx n c s).disc = s.disc ∧ (bumpC k unit idx n c s).net = s.net ∧ (bumpC k unit idx n c s).sw = s.sw ∧ (bumpC k unit idx n c s).tm = s.tm ∧ (bumpC k unit idx n c s).slices = s.slices ∧ (bumpC k unit idx n c s).coh = s.coh
    ∧ (bumpC k unit idx n c s).drey = s.drey ∧ (bumpC k unit idx n c s).scrubHours = s.scrubHours ∧ (bumpC k unit idx n c s).ten = s.ten ∧ (bumpC k unit idx n c s).pwr = s.pwr ∧ (bumpC k unit idx n c s).cages = s.cages ∧ (bumpC k unit idx n c s).therm = s.therm
    ∧ (bumpC k unit idx n c s).pins = s.pins ∧ (bumpC k unit idx n c s).free = s.free ∧ now (bumpC k unit idx n c s) = now s ∧ ftCount (bumpC k unit idx n c s) = ftCount s := by
  unfold bumpC; dsimp only; (split <;> split) <;> simp [now, ftCount]

/-- A count of one touches only the counters, and the interrupt controller when it wraps. -/
@[simp] theorem bump_frame (k : Ctr) (unit : Nat) (s : State) :
    (bump k unit s).pending = s.pending ∧ (bump k unit s).dev = s.dev ∧ (bump k unit s).ft = s.ft ∧ (bump k unit s).io = s.io ∧ (bump k unit s).hoard = s.hoard ∧ (bump k unit s).dur = s.dur
    ∧ (bump k unit s).hib = s.hib ∧ (bump k unit s).journal = s.journal ∧ (bump k unit s).log = s.log ∧ (bump k unit s).errs = s.errs ∧ (bump k unit s).hb = s.hb ∧ (bump k unit s).grave = s.grave
    ∧ (bump k unit s).i3c = s.i3c ∧ (bump k unit s).cmd = s.cmd ∧ (bump k unit s).sec = s.sec ∧ (bump k unit s).fuses = s.fuses ∧ (bump k unit s).ledger = s.ledger ∧ (bump k unit s).start = s.start
    ∧ (bump k unit s).disc = s.disc ∧ (bump k unit s).net = s.net ∧ (bump k unit s).sw = s.sw ∧ (bump k unit s).tm = s.tm ∧ (bump k unit s).slices = s.slices ∧ (bump k unit s).coh = s.coh
    ∧ (bump k unit s).drey = s.drey ∧ (bump k unit s).scrubHours = s.scrubHours ∧ (bump k unit s).ten = s.ten ∧ (bump k unit s).pwr = s.pwr ∧ (bump k unit s).cages = s.cages ∧ (bump k unit s).therm = s.therm
    ∧ (bump k unit s).pins = s.pins ∧ (bump k unit s).free = s.free ∧ now (bump k unit s) = now s ∧ ftCount (bump k unit s) = ftCount s := by
  simp [bump]

/-- A seal touches only the log, the counters and the counter of free values. -/
@[simp] theorem writeSeal_frame (s : State) :
    (writeSeal s).pending = s.pending ∧ (writeSeal s).dev = s.dev ∧ (writeSeal s).ft = s.ft ∧ (writeSeal s).io = s.io ∧ (writeSeal s).hoard = s.hoard ∧ (writeSeal s).dur = s.dur
    ∧ (writeSeal s).hib = s.hib ∧ (writeSeal s).journal = s.journal ∧ (writeSeal s).errs = s.errs ∧ (writeSeal s).hb = s.hb ∧ (writeSeal s).grave = s.grave ∧ (writeSeal s).i3c = s.i3c
    ∧ (writeSeal s).cmd = s.cmd ∧ (writeSeal s).sec = s.sec ∧ (writeSeal s).fuses = s.fuses ∧ (writeSeal s).ledger = s.ledger ∧ (writeSeal s).start = s.start ∧ (writeSeal s).disc = s.disc
    ∧ (writeSeal s).net = s.net ∧ (writeSeal s).sw = s.sw ∧ (writeSeal s).tm = s.tm ∧ (writeSeal s).slices = s.slices ∧ (writeSeal s).coh = s.coh ∧ (writeSeal s).drey = s.drey
    ∧ (writeSeal s).scrubHours = s.scrubHours ∧ (writeSeal s).ten = s.ten ∧ (writeSeal s).pwr = s.pwr ∧ (writeSeal s).cages = s.cages ∧ (writeSeal s).therm = s.therm ∧ (writeSeal s).pins = s.pins
    ∧ now (writeSeal s) = now s ∧ ftCount (writeSeal s) = ftCount s := by
  simp [writeSeal, aliasSign, now, ftCount]

/-- A Spoor record touches only the log, the counters and the counter of free values. -/
@[simp] theorem writeSpoor_frame (r : SpoorRec) (s : State) :
    (writeSpoor r s).pending = s.pending ∧ (writeSpoor r s).dev = s.dev ∧ (writeSpoor r s).ft = s.ft ∧ (writeSpoor r s).io = s.io ∧ (writeSpoor r s).hoard = s.hoard ∧ (writeSpoor r s).dur = s.dur
    ∧ (writeSpoor r s).hib = s.hib ∧ (writeSpoor r s).journal = s.journal ∧ (writeSpoor r s).errs = s.errs ∧ (writeSpoor r s).hb = s.hb ∧ (writeSpoor r s).grave = s.grave ∧ (writeSpoor r s).i3c = s.i3c
    ∧ (writeSpoor r s).cmd = s.cmd ∧ (writeSpoor r s).sec = s.sec ∧ (writeSpoor r s).fuses = s.fuses ∧ (writeSpoor r s).ledger = s.ledger ∧ (writeSpoor r s).start = s.start ∧ (writeSpoor r s).disc = s.disc
    ∧ (writeSpoor r s).net = s.net ∧ (writeSpoor r s).sw = s.sw ∧ (writeSpoor r s).tm = s.tm ∧ (writeSpoor r s).slices = s.slices ∧ (writeSpoor r s).coh = s.coh ∧ (writeSpoor r s).drey = s.drey
    ∧ (writeSpoor r s).scrubHours = s.scrubHours ∧ (writeSpoor r s).ten = s.ten ∧ (writeSpoor r s).pwr = s.pwr ∧ (writeSpoor r s).cages = s.cages ∧ (writeSpoor r s).therm = s.therm ∧ (writeSpoor r s).pins = s.pins
    ∧ now (writeSpoor r s) = now s ∧ ftCount (writeSpoor r s) = ftCount s := by
  unfold writeSpoor; dsimp only; split <;> simp

/-- Recording touches only the log, the counters and the counter of free values. -/
@[simp] theorem record_frame (r : SpoorRec) (s : State) :
    (record r s).pending = s.pending ∧ (record r s).dev = s.dev ∧ (record r s).ft = s.ft ∧ (record r s).io = s.io ∧ (record r s).hoard = s.hoard ∧ (record r s).dur = s.dur
    ∧ (record r s).hib = s.hib ∧ (record r s).journal = s.journal ∧ (record r s).errs = s.errs ∧ (record r s).hb = s.hb ∧ (record r s).grave = s.grave ∧ (record r s).i3c = s.i3c
    ∧ (record r s).cmd = s.cmd ∧ (record r s).sec = s.sec ∧ (record r s).fuses = s.fuses ∧ (record r s).ledger = s.ledger ∧ (record r s).start = s.start ∧ (record r s).disc = s.disc
    ∧ (record r s).net = s.net ∧ (record r s).sw = s.sw ∧ (record r s).tm = s.tm ∧ (record r s).slices = s.slices ∧ (record r s).coh = s.coh ∧ (record r s).drey = s.drey
    ∧ (record r s).scrubHours = s.scrubHours ∧ (record r s).ten = s.ten ∧ (record r s).pwr = s.pwr ∧ (record r s).cages = s.cages ∧ (record r s).therm = s.therm ∧ (record r s).pins = s.pins
    ∧ now (record r s) = now s ∧ ftCount (record r s) = ftCount s := by
  unfold record; dsimp only; split <;> simp [now, ftCount]

/-- A security record touches only the log, the counters and the counter of free values. -/
@[simp] theorem recordSecurity_frame (code detail arg : Nat) (s : State) :
    (recordSecurity code detail arg s).pending = s.pending ∧ (recordSecurity code detail arg s).dev = s.dev ∧ (recordSecurity code detail arg s).ft = s.ft ∧ (recordSecurity code detail arg s).io = s.io ∧ (recordSecurity code detail arg s).hoard = s.hoard ∧ (recordSecurity code detail arg s).dur = s.dur
    ∧ (recordSecurity code detail arg s).hib = s.hib ∧ (recordSecurity code detail arg s).journal = s.journal ∧ (recordSecurity code detail arg s).errs = s.errs ∧ (recordSecurity code detail arg s).hb = s.hb ∧ (recordSecurity code detail arg s).grave = s.grave ∧ (recordSecurity code detail arg s).i3c = s.i3c
    ∧ (recordSecurity code detail arg s).cmd = s.cmd ∧ (recordSecurity code detail arg s).sec = s.sec ∧ (recordSecurity code detail arg s).fuses = s.fuses ∧ (recordSecurity code detail arg s).ledger = s.ledger ∧ (recordSecurity code detail arg s).start = s.start ∧ (recordSecurity code detail arg s).disc = s.disc
    ∧ (recordSecurity code detail arg s).net = s.net ∧ (recordSecurity code detail arg s).sw = s.sw ∧ (recordSecurity code detail arg s).tm = s.tm ∧ (recordSecurity code detail arg s).slices = s.slices ∧ (recordSecurity code detail arg s).coh = s.coh ∧ (recordSecurity code detail arg s).drey = s.drey
    ∧ (recordSecurity code detail arg s).scrubHours = s.scrubHours ∧ (recordSecurity code detail arg s).ten = s.ten ∧ (recordSecurity code detail arg s).pwr = s.pwr ∧ (recordSecurity code detail arg s).cages = s.cages ∧ (recordSecurity code detail arg s).therm = s.therm ∧ (recordSecurity code detail arg s).pins = s.pins
    ∧ now (recordSecurity code detail arg s) = now s ∧ ftCount (recordSecurity code detail arg s) = ftCount s := by
  simp [recordSecurity]

/-- The copy of an event for its subscribers touches only the log, the mailbox and the management bus. -/
@[simp] theorem ringCopy_frame (cls : EvClass) (s : State) :
    (ringCopy cls s).pending = s.pending ∧ (ringCopy cls s).dev = s.dev ∧ (ringCopy cls s).ft = s.ft ∧ (ringCopy cls s).io = s.io ∧ (ringCopy cls s).hoard = s.hoard ∧ (ringCopy cls s).dur = s.dur
    ∧ (ringCopy cls s).hib = s.hib ∧ (ringCopy cls s).journal = s.journal ∧ (ringCopy cls s).errs = s.errs ∧ (ringCopy cls s).sic = s.sic ∧ (ringCopy cls s).ctr = s.ctr ∧ (ringCopy cls s).hb = s.hb
    ∧ (ringCopy cls s).grave = s.grave ∧ (ringCopy cls s).cmd = s.cmd ∧ (ringCopy cls s).sec = s.sec ∧ (ringCopy cls s).fuses = s.fuses ∧ (ringCopy cls s).ledger = s.ledger ∧ (ringCopy cls s).start = s.start
    ∧ (ringCopy cls s).disc = s.disc ∧ (ringCopy cls s).net = s.net ∧ (ringCopy cls s).sw = s.sw ∧ (ringCopy cls s).tm = s.tm ∧ (ringCopy cls s).slices = s.slices ∧ (ringCopy cls s).coh = s.coh
    ∧ (ringCopy cls s).drey = s.drey ∧ (ringCopy cls s).scrubHours = s.scrubHours ∧ (ringCopy cls s).ten = s.ten ∧ (ringCopy cls s).pwr = s.pwr ∧ (ringCopy cls s).cages = s.cages ∧ (ringCopy cls s).therm = s.therm
    ∧ (ringCopy cls s).pins = s.pins ∧ (ringCopy cls s).free = s.free ∧ now (ringCopy cls s) = now s ∧ ftCount (ringCopy cls s) = ftCount s := by
  unfold ringCopy
  split
  · simp
  · dsimp only; repeat' split
    all_goals simp [now, ftCount]

/-- An event touches only the log, the counters, the interrupt controller, the mailbox and the management bus. -/
@[simp] theorem raise_frame (e : Event) (s : State) :
    (raise e s).pending = s.pending ∧ (raise e s).dev = s.dev ∧ (raise e s).ft = s.ft ∧ (raise e s).io = s.io ∧ (raise e s).hoard = s.hoard ∧ (raise e s).dur = s.dur
    ∧ (raise e s).hib = s.hib ∧ (raise e s).journal = s.journal ∧ (raise e s).errs = s.errs ∧ (raise e s).hb = s.hb ∧ (raise e s).grave = s.grave ∧ (raise e s).cmd = s.cmd
    ∧ (raise e s).sec = s.sec ∧ (raise e s).fuses = s.fuses ∧ (raise e s).ledger = s.ledger ∧ (raise e s).start = s.start ∧ (raise e s).disc = s.disc ∧ (raise e s).net = s.net
    ∧ (raise e s).sw = s.sw ∧ (raise e s).tm = s.tm ∧ (raise e s).slices = s.slices ∧ (raise e s).coh = s.coh ∧ (raise e s).drey = s.drey ∧ (raise e s).scrubHours = s.scrubHours
    ∧ (raise e s).ten = s.ten ∧ (raise e s).pwr = s.pwr ∧ (raise e s).cages = s.cages ∧ (raise e s).therm = s.therm ∧ (raise e s).pins = s.pins ∧ now (raise e s) = now s
    ∧ ftCount (raise e s) = ftCount s := by
  unfold raise; dsimp only; repeat' split
  all_goals simp

/-- A first-error register touches only itself and its source. -/
@[simp] theorem capture_frame (block code mk access master addr : Nat) (s : State) :
    (capture block code mk access master addr s).pending = s.pending ∧ (capture block code mk access master addr s).dev = s.dev ∧ (capture block code mk access master addr s).ft = s.ft ∧ (capture block code mk access master addr s).io = s.io ∧ (capture block code mk access master addr s).hoard = s.hoard ∧ (capture block code mk access master addr s).dur = s.dur
    ∧ (capture block code mk access master addr s).hib = s.hib ∧ (capture block code mk access master addr s).journal = s.journal ∧ (capture block code mk access master addr s).log = s.log ∧ (capture block code mk access master addr s).ctr = s.ctr ∧ (capture block code mk access master addr s).hb = s.hb ∧ (capture block code mk access master addr s).grave = s.grave
    ∧ (capture block code mk access master addr s).i3c = s.i3c ∧ (capture block code mk access master addr s).cmd = s.cmd ∧ (capture block code mk access master addr s).sec = s.sec ∧ (capture block code mk access master addr s).fuses = s.fuses ∧ (capture block code mk access master addr s).ledger = s.ledger ∧ (capture block code mk access master addr s).start = s.start
    ∧ (capture block code mk access master addr s).disc = s.disc ∧ (capture block code mk access master addr s).net = s.net ∧ (capture block code mk access master addr s).sw = s.sw ∧ (capture block code mk access master addr s).tm = s.tm ∧ (capture block code mk access master addr s).slices = s.slices ∧ (capture block code mk access master addr s).coh = s.coh
    ∧ (capture block code mk access master addr s).drey = s.drey ∧ (capture block code mk access master addr s).scrubHours = s.scrubHours ∧ (capture block code mk access master addr s).ten = s.ten ∧ (capture block code mk access master addr s).pwr = s.pwr ∧ (capture block code mk access master addr s).cages = s.cages ∧ (capture block code mk access master addr s).therm = s.therm
    ∧ (capture block code mk access master addr s).pins = s.pins ∧ (capture block code mk access master addr s).free = s.free ∧ now (capture block code mk access master addr s) = now s ∧ ftCount (capture block code mk access master addr s) = ftCount s := by
  unfold capture; dsimp only; repeat' split
  all_goals simp

/-- A change of the device state touches only the state and its record. -/
@[simp] theorem changeState_frame (nw : DevState) (c : Cause) (s : State) :
    (changeState nw c s).pending = s.pending ∧ (changeState nw c s).ft = s.ft ∧ (changeState nw c s).io = s.io ∧ (changeState nw c s).hoard = s.hoard ∧ (changeState nw c s).dur = s.dur ∧ (changeState nw c s).hib = s.hib
    ∧ (changeState nw c s).journal = s.journal ∧ (changeState nw c s).errs = s.errs ∧ (changeState nw c s).hb = s.hb ∧ (changeState nw c s).grave = s.grave ∧ (changeState nw c s).i3c = s.i3c ∧ (changeState nw c s).cmd = s.cmd
    ∧ (changeState nw c s).sec = s.sec ∧ (changeState nw c s).fuses = s.fuses ∧ (changeState nw c s).ledger = s.ledger ∧ (changeState nw c s).start = s.start ∧ (changeState nw c s).disc = s.disc ∧ (changeState nw c s).net = s.net
    ∧ (changeState nw c s).sw = s.sw ∧ (changeState nw c s).tm = s.tm ∧ (changeState nw c s).slices = s.slices ∧ (changeState nw c s).coh = s.coh ∧ (changeState nw c s).drey = s.drey ∧ (changeState nw c s).scrubHours = s.scrubHours
    ∧ (changeState nw c s).ten = s.ten ∧ (changeState nw c s).pwr = s.pwr ∧ (changeState nw c s).cages = s.cages ∧ (changeState nw c s).therm = s.therm ∧ (changeState nw c s).pins = s.pins ∧ now (changeState nw c s) = now s
    ∧ ftCount (changeState nw c s) = ftCount s := by
  simp [changeState, now, ftCount]

/-- Writing the summary to flash touches only the log and its count. -/
@[simp] theorem flashWrite_frame (s : State) :
    (flashWrite s).pending = s.pending ∧ (flashWrite s).dev = s.dev ∧ (flashWrite s).ft = s.ft ∧ (flashWrite s).io = s.io ∧ (flashWrite s).hoard = s.hoard ∧ (flashWrite s).dur = s.dur
    ∧ (flashWrite s).hib = s.hib ∧ (flashWrite s).journal = s.journal ∧ (flashWrite s).errs = s.errs ∧ (flashWrite s).hb = s.hb ∧ (flashWrite s).grave = s.grave ∧ (flashWrite s).i3c = s.i3c
    ∧ (flashWrite s).cmd = s.cmd ∧ (flashWrite s).sec = s.sec ∧ (flashWrite s).fuses = s.fuses ∧ (flashWrite s).ledger = s.ledger ∧ (flashWrite s).start = s.start ∧ (flashWrite s).disc = s.disc
    ∧ (flashWrite s).net = s.net ∧ (flashWrite s).sw = s.sw ∧ (flashWrite s).tm = s.tm ∧ (flashWrite s).slices = s.slices ∧ (flashWrite s).coh = s.coh ∧ (flashWrite s).drey = s.drey
    ∧ (flashWrite s).scrubHours = s.scrubHours ∧ (flashWrite s).ten = s.ten ∧ (flashWrite s).pwr = s.pwr ∧ (flashWrite s).cages = s.cages ∧ (flashWrite s).therm = s.therm ∧ (flashWrite s).pins = s.pins
    ∧ (flashWrite s).free = s.free ∧ now (flashWrite s) = now s ∧ ftCount (flashWrite s) = ftCount s := by
  simp [flashWrite]

/-- A write of the ledger touches only the ledger. -/
@[simp] theorem ledgerWrite_frame (g : Block → Block) (s : State) :
    (ledgerWrite g s).pending = s.pending ∧ (ledgerWrite g s).dev = s.dev ∧ (ledgerWrite g s).ft = s.ft ∧ (ledgerWrite g s).io = s.io ∧ (ledgerWrite g s).hoard = s.hoard ∧ (ledgerWrite g s).dur = s.dur
    ∧ (ledgerWrite g s).hib = s.hib ∧ (ledgerWrite g s).journal = s.journal ∧ (ledgerWrite g s).log = s.log ∧ (ledgerWrite g s).errs = s.errs ∧ (ledgerWrite g s).sic = s.sic ∧ (ledgerWrite g s).ctr = s.ctr
    ∧ (ledgerWrite g s).hb = s.hb ∧ (ledgerWrite g s).grave = s.grave ∧ (ledgerWrite g s).mbx = s.mbx ∧ (ledgerWrite g s).i3c = s.i3c ∧ (ledgerWrite g s).cmd = s.cmd ∧ (ledgerWrite g s).sec = s.sec
    ∧ (ledgerWrite g s).fuses = s.fuses ∧ (ledgerWrite g s).start = s.start ∧ (ledgerWrite g s).disc = s.disc ∧ (ledgerWrite g s).net = s.net ∧ (ledgerWrite g s).sw = s.sw ∧ (ledgerWrite g s).tm = s.tm
    ∧ (ledgerWrite g s).slices = s.slices ∧ (ledgerWrite g s).coh = s.coh ∧ (ledgerWrite g s).drey = s.drey ∧ (ledgerWrite g s).scrubHours = s.scrubHours ∧ (ledgerWrite g s).ten = s.ten ∧ (ledgerWrite g s).pwr = s.pwr
    ∧ (ledgerWrite g s).cages = s.cages ∧ (ledgerWrite g s).therm = s.therm ∧ (ledgerWrite g s).pins = s.pins ∧ (ledgerWrite g s).free = s.free ∧ (ledgerWrite g s).outbox = s.outbox ∧ now (ledgerWrite g s) = now s
    ∧ ftCount (ledgerWrite g s) = ftCount s := by
  simp [ledgerWrite, now, ftCount]

/-- A header check that fails is counted, kept and told. -/
@[simp] theorem hchkFailure_frame (lp block : Nat) (f : Frame) (s : State) :
    (hchkFailure lp block f s).pending = s.pending ∧ (hchkFailure lp block f s).dev = s.dev ∧ (hchkFailure lp block f s).ft = s.ft ∧ (hchkFailure lp block f s).io = s.io ∧ (hchkFailure lp block f s).hoard = s.hoard ∧ (hchkFailure lp block f s).dur = s.dur
    ∧ (hchkFailure lp block f s).hib = s.hib ∧ (hchkFailure lp block f s).journal = s.journal ∧ (hchkFailure lp block f s).hb = s.hb ∧ (hchkFailure lp block f s).grave = s.grave ∧ (hchkFailure lp block f s).cmd = s.cmd ∧ (hchkFailure lp block f s).sec = s.sec
    ∧ (hchkFailure lp block f s).fuses = s.fuses ∧ (hchkFailure lp block f s).ledger = s.ledger ∧ (hchkFailure lp block f s).start = s.start ∧ (hchkFailure lp block f s).disc = s.disc ∧ (hchkFailure lp block f s).net = s.net ∧ (hchkFailure lp block f s).sw = s.sw
    ∧ (hchkFailure lp block f s).tm = s.tm ∧ (hchkFailure lp block f s).slices = s.slices ∧ (hchkFailure lp block f s).coh = s.coh ∧ (hchkFailure lp block f s).drey = s.drey ∧ (hchkFailure lp block f s).scrubHours = s.scrubHours ∧ (hchkFailure lp block f s).ten = s.ten
    ∧ (hchkFailure lp block f s).pwr = s.pwr ∧ (hchkFailure lp block f s).cages = s.cages ∧ (hchkFailure lp block f s).therm = s.therm ∧ (hchkFailure lp block f s).pins = s.pins ∧ now (hchkFailure lp block f s) = now s ∧ ftCount (hchkFailure lp block f s) = ftCount s := by
  simp [hchkFailure]

/-- The end of a cage limit is counted. -/
@[simp] theorem endLimit_frame (c : Nat) (s : State) :
    (endLimit c s).pending = s.pending ∧ (endLimit c s).dev = s.dev ∧ (endLimit c s).ft = s.ft ∧ (endLimit c s).io = s.io ∧ (endLimit c s).hoard = s.hoard ∧ (endLimit c s).dur = s.dur
    ∧ (endLimit c s).hib = s.hib ∧ (endLimit c s).journal = s.journal ∧ (endLimit c s).log = s.log ∧ (endLimit c s).errs = s.errs ∧ (endLimit c s).hb = s.hb ∧ (endLimit c s).grave = s.grave
    ∧ (endLimit c s).i3c = s.i3c ∧ (endLimit c s).cmd = s.cmd ∧ (endLimit c s).sec = s.sec ∧ (endLimit c s).fuses = s.fuses ∧ (endLimit c s).ledger = s.ledger ∧ (endLimit c s).start = s.start
    ∧ (endLimit c s).disc = s.disc ∧ (endLimit c s).net = s.net ∧ (endLimit c s).sw = s.sw ∧ (endLimit c s).tm = s.tm ∧ (endLimit c s).slices = s.slices ∧ (endLimit c s).coh = s.coh
    ∧ (endLimit c s).drey = s.drey ∧ (endLimit c s).scrubHours = s.scrubHours ∧ (endLimit c s).ten = s.ten ∧ (endLimit c s).pwr = s.pwr ∧ (endLimit c s).cages = s.cages ∧ (endLimit c s).therm = s.therm
    ∧ (endLimit c s).pins = s.pins ∧ (endLimit c s).free = s.free ∧ now (endLimit c s) = now s ∧ ftCount (endLimit c s) = ftCount s := by
  unfold endLimit; split <;> simp

/-- A change of a cage touches only the cages and their source. -/
@[simp] theorem cageTo_frame (c : Nat) (m : CageMode) (s : State) :
    (cageTo c m s).pending = s.pending ∧ (cageTo c m s).dev = s.dev ∧ (cageTo c m s).ft = s.ft ∧ (cageTo c m s).io = s.io ∧ (cageTo c m s).hoard = s.hoard ∧ (cageTo c m s).dur = s.dur
    ∧ (cageTo c m s).hib = s.hib ∧ (cageTo c m s).journal = s.journal ∧ (cageTo c m s).log = s.log ∧ (cageTo c m s).errs = s.errs ∧ (cageTo c m s).ctr = s.ctr ∧ (cageTo c m s).hb = s.hb
    ∧ (cageTo c m s).grave = s.grave ∧ (cageTo c m s).i3c = s.i3c ∧ (cageTo c m s).cmd = s.cmd ∧ (cageTo c m s).sec = s.sec ∧ (cageTo c m s).fuses = s.fuses ∧ (cageTo c m s).ledger = s.ledger
    ∧ (cageTo c m s).start = s.start ∧ (cageTo c m s).disc = s.disc ∧ (cageTo c m s).net = s.net ∧ (cageTo c m s).sw = s.sw ∧ (cageTo c m s).tm = s.tm ∧ (cageTo c m s).slices = s.slices
    ∧ (cageTo c m s).coh = s.coh ∧ (cageTo c m s).drey = s.drey ∧ (cageTo c m s).scrubHours = s.scrubHours ∧ (cageTo c m s).ten = s.ten ∧ (cageTo c m s).pwr = s.pwr ∧ (cageTo c m s).therm = s.therm
    ∧ (cageTo c m s).pins = s.pins ∧ (cageTo c m s).free = s.free ∧ now (cageTo c m s) = now s ∧ ftCount (cageTo c m s) = ftCount s := by
  unfold cageTo; split <;> simp

/-- Taking the gate of a cage low touches only the cages, their source and the counters. -/
@[simp] theorem gateLow_frame (c : Nat) (m : CageMode) (s : State) :
    (gateLow c m s).pending = s.pending ∧ (gateLow c m s).dev = s.dev ∧ (gateLow c m s).ft = s.ft ∧ (gateLow c m s).io = s.io ∧ (gateLow c m s).hoard = s.hoard ∧ (gateLow c m s).dur = s.dur
    ∧ (gateLow c m s).hib = s.hib ∧ (gateLow c m s).journal = s.journal ∧ (gateLow c m s).log = s.log ∧ (gateLow c m s).errs = s.errs ∧ (gateLow c m s).hb = s.hb ∧ (gateLow c m s).grave = s.grave
    ∧ (gateLow c m s).i3c = s.i3c ∧ (gateLow c m s).cmd = s.cmd ∧ (gateLow c m s).sec = s.sec ∧ (gateLow c m s).fuses = s.fuses ∧ (gateLow c m s).ledger = s.ledger ∧ (gateLow c m s).start = s.start
    ∧ (gateLow c m s).disc = s.disc ∧ (gateLow c m s).net = s.net ∧ (gateLow c m s).sw = s.sw ∧ (gateLow c m s).tm = s.tm ∧ (gateLow c m s).slices = s.slices ∧ (gateLow c m s).coh = s.coh
    ∧ (gateLow c m s).drey = s.drey ∧ (gateLow c m s).scrubHours = s.scrubHours ∧ (gateLow c m s).ten = s.ten ∧ (gateLow c m s).pwr = s.pwr ∧ (gateLow c m s).therm = s.therm ∧ (gateLow c m s).pins = s.pins
    ∧ (gateLow c m s).free = s.free ∧ now (gateLow c m s) = now s ∧ ftCount (gateLow c m s) = ftCount s := by
  simp [gateLow]

end Sys2Proof.Machine
end

