-- ==== Sys2Proof/Laws/Gates.lean ====
section
/-! SUPPORT. What a gate's check can do. -/

namespace Sys2Proof.Machine

/-- A fold keeps what each of its steps keeps. -/
theorem foldl_keeps {α β : Type} (p : State → β) (step : State → α → State) (h : ∀ s x, p (step s x) = p s) (l : List α) (s : State) : p (l.foldl step s) = p s := by
  induction l generalizing s with
  | nil => rfl
  | cons x l ih => rw [List.foldl_cons, ih, h]

/-- Counting an access at a gate touches only the counters, and, where a stored rule fails its check, the log, the interrupt controller, the mailbox and the management bus. -/
@[simp] theorem gateCount_frame (g : Nat) (f : Frame) (s : State) :
    (gateCount g f s).pending = s.pending ∧ (gateCount g f s).dev = s.dev ∧ (gateCount g f s).ft = s.ft ∧ (gateCount g f s).io = s.io ∧ (gateCount g f s).hoard = s.hoard ∧ (gateCount g f s).dur = s.dur ∧ (gateCount g f s).hib = s.hib
    ∧ (gateCount g f s).journal = s.journal ∧ (gateCount g f s).errs = s.errs ∧ (gateCount g f s).hb = s.hb ∧ (gateCount g f s).grave = s.grave ∧ (gateCount g f s).cmd = s.cmd ∧ (gateCount g f s).sec = s.sec ∧ (gateCount g f s).fuses = s.fuses
    ∧ (gateCount g f s).ledger = s.ledger ∧ (gateCount g f s).start = s.start ∧ (gateCount g f s).disc = s.disc ∧ (gateCount g f s).net = s.net ∧ (gateCount g f s).sw = s.sw ∧ (gateCount g f s).tm = s.tm ∧ (gateCount g f s).slices = s.slices
    ∧ (gateCount g f s).coh = s.coh ∧ (gateCount g f s).drey = s.drey ∧ (gateCount g f s).scrubHours = s.scrubHours ∧ (gateCount g f s).ten = s.ten ∧ (gateCount g f s).pwr = s.pwr ∧ (gateCount g f s).cages = s.cages ∧ (gateCount g f s).therm = s.therm
    ∧ (gateCount g f s).pins = s.pins ∧ now (gateCount g f s) = now s ∧ ftCount (gateCount g f s) = ftCount s := by
  unfold gateCount; dsimp only
  refine ⟨(foldl_keeps (fun s => s.pending) _ (fun s x => ?_) _ _).trans ?_,
    (foldl_keeps (fun s => s.dev) _ (fun s x => ?_) _ _).trans ?_,
    (foldl_keeps (fun s => s.ft) _ (fun s x => ?_) _ _).trans ?_,
    (foldl_keeps (fun s => s.io) _ (fun s x => ?_) _ _).trans ?_,
    (foldl_keeps (fun s => s.hoard) _ (fun s x => ?_) _ _).trans ?_,
    (foldl_keeps (fun s => s.dur) _ (fun s x => ?_) _ _).trans ?_,
    (foldl_keeps (fun s => s.hib) _ (fun s x => ?_) _ _).trans ?_,
    (foldl_keeps (fun s => s.journal) _ (fun s x => ?_) _ _).trans ?_,
    (foldl_keeps (fun s => s.errs) _ (fun s x => ?_) _ _).trans ?_,
    (foldl_keeps (fun s => s.hb) _ (fun s x => ?_) _ _).trans ?_,
    (foldl_keeps (fun s => s.grave) _ (fun s x => ?_) _ _).trans ?_,
    (foldl_keeps (fun s => s.cmd) _ (fun s x => ?_) _ _).trans ?_,
    (foldl_keeps (fun s => s.sec) _ (fun s x => ?_) _ _).trans ?_,
    (foldl_keeps (fun s => s.fuses) _ (fun s x => ?_) _ _).trans ?_,
    (foldl_keeps (fun s => s.ledger) _ (fun s x => ?_) _ _).trans ?_,
    (foldl_keeps (fun s => s.start) _ (fun s x => ?_) _ _).trans ?_,
    (foldl_keeps (fun s => s.disc) _ (fun s x => ?_) _ _).trans ?_,
    (foldl_keeps (fun s => s.net) _ (fun s x => ?_) _ _).trans ?_,
    (foldl_keeps (fun s => s.sw) _ (fun s x => ?_) _ _).trans ?_,
    (foldl_keeps (fun s => s.tm) _ (fun s x => ?_) _ _).trans ?_,
    (foldl_keeps (fun s => s.slices) _ (fun s x => ?_) _ _).trans ?_,
    (foldl_keeps (fun s => s.coh) _ (fun s x => ?_) _ _).trans ?_,
    (foldl_keeps (fun s => s.drey) _ (fun s x => ?_) _ _).trans ?_,
    (foldl_keeps (fun s => s.scrubHours) _ (fun s x => ?_) _ _).trans ?_,
    (foldl_keeps (fun s => s.ten) _ (fun s x => ?_) _ _).trans ?_,
    (foldl_keeps (fun s => s.pwr) _ (fun s x => ?_) _ _).trans ?_,
    (foldl_keeps (fun s => s.cages) _ (fun s x => ?_) _ _).trans ?_,
    (foldl_keeps (fun s => s.therm) _ (fun s x => ?_) _ _).trans ?_,
    (foldl_keeps (fun s => s.pins) _ (fun s x => ?_) _ _).trans ?_,
    (foldl_keeps (fun s => now s) _ (fun s x => ?_) _ _).trans ?_,
    (foldl_keeps (fun s => ftCount s) _ (fun s x => ?_) _ _).trans ?_⟩
  all_goals (repeat' split)
  all_goals simp

/-- A gate's check answers its decision and touches what counting touches. -/
@[simp] theorem gateCheck_frame (g : Nat) (f : Frame) (s : State) :
    (gateCheck g f s).1 = gateDecide s g f
   ∧ ((gateCheck g f s).2).pending = s.pending ∧ ((gateCheck g f s).2).dev = s.dev ∧ ((gateCheck g f s).2).ft = s.ft ∧ ((gateCheck g f s).2).io = s.io ∧ ((gateCheck g f s).2).hoard = s.hoard ∧ ((gateCheck g f s).2).dur = s.dur ∧ ((gateCheck g f s).2).hib = s.hib
    ∧ ((gateCheck g f s).2).journal = s.journal ∧ ((gateCheck g f s).2).errs = s.errs ∧ ((gateCheck g f s).2).hb = s.hb ∧ ((gateCheck g f s).2).grave = s.grave ∧ ((gateCheck g f s).2).cmd = s.cmd ∧ ((gateCheck g f s).2).sec = s.sec
    ∧ ((gateCheck g f s).2).fuses = s.fuses ∧ ((gateCheck g f s).2).ledger = s.ledger ∧ ((gateCheck g f s).2).start = s.start ∧ ((gateCheck g f s).2).disc = s.disc ∧ ((gateCheck g f s).2).net = s.net ∧ ((gateCheck g f s).2).sw = s.sw
    ∧ ((gateCheck g f s).2).tm = s.tm ∧ ((gateCheck g f s).2).slices = s.slices ∧ ((gateCheck g f s).2).coh = s.coh ∧ ((gateCheck g f s).2).drey = s.drey ∧ ((gateCheck g f s).2).scrubHours = s.scrubHours ∧ ((gateCheck g f s).2).ten = s.ten
    ∧ ((gateCheck g f s).2).pwr = s.pwr ∧ ((gateCheck g f s).2).cages = s.cages ∧ ((gateCheck g f s).2).therm = s.therm ∧ ((gateCheck g f s).2).pins = s.pins ∧ now ((gateCheck g f s).2) = now s ∧ ftCount ((gateCheck g f s).2) = ftCount s := by
  unfold gateCheck; dsimp only
  split <;> simp [*]

end Sys2Proof.Machine
end

