-- ==== Sys2Proof/Machine/Bar0.lean ====
section
/-! DEFINITION. What each register of BAR0 reads as (R5, R378, R501, R502, R646, R647, R682). -/

namespace Sys2Proof.Machine

/-- A register with one bit for each item that a test passes. -/
def bitsWhere (n : Nat) (p : Nat → Bool) : Nat := (List.range n).foldl (fun w k => if p k then w + 2 ^ k else w) 0

/-- The PE_, HB_ and MBX_ registers (R502). -/
def peRead (s : State) (off : Nat) : Nat :=
  let slots := fun (x : SlotState) => bitsWhere 16 (fun k => tget s.mbx.slots k == x)
  if off = 0x000 then s.fuses.vendor.toNat + 2 ^ 16 * 0x1024
  else if off = 0x004 then 0xB1 + 2 ^ 8 * 0x01
  else if off = 0x008 then s.fuses.serial.toNat % 2 ^ 32
  else if off = 0x00C then s.fuses.serial.toNat / 2 ^ 32
  else if off = 0x010 then 0x10 + 2 ^ 8 * 0x40
  else if off = 0x014 then s.dev.st.code + 2 ^ 4 * b2n s.sec.tableOk + 2 ^ 5 * b2n (s.journal.set_ && !s.journal.absent) + 2 ^ 6 * b2n s.ten.mediated
  else if off = 0x018 then s.sec.fwActive.toNat
  else if off = 0x01C then s.sec.fwStandby.toNat
  else if off = 0x020 then s.hb.activePair.val + 2 * b2n s.sec.updating + 2 ^ 2 * b2n s.sec.paused + 2 ^ 3 * s.sec.activeBank
  else if off = 0x100 then s.hb.count.toNat
  else if off = 0x104 then b2n s.hb.running + 2 * b2n s.hb.standbyHealthy + 2 ^ 2 * b2n s.hb.stallSeen
  else if off = 0x200 then slots .posted
  else if off = 0x204 then slots .running
  else if off = 0x208 then slots .done
  else if off = 0x20C then s.mbx.irqEn.toNat
  else if off = 0x210 then s.mbx.ignored.toNat
  else if off = 0x220 then s.mbx.evtProd.toNat
  else if off = 0x224 then s.mbx.evtCons.toNat
  else if off = 0x228 then s.mbx.evtLost.toNat
  else 0

/-- The source that a configuration word forwards to a vector (R680). -/
def forwarded (s : State) (v : Nat) : Option Nat := (s.sic.srcs.find? (fun e => sicField e.2.word 40 6 == v)).map (·.1)

/-- The SIC_ registers (R656, R682). -/
def sicRead (s : State) (off : Nat) : Nat :=
  if off < 0x420 then bitsWhere 32 (fun j => (tget s.errs (8 * (off - 0x400) + j)).valid)
  else if off = 0x420 then s.grave.code.toNat + 2 ^ 16 * s.grave.block.toNat + 2 ^ 31 * b2n s.grave.valid
  else if off = 0x424 then s.grave.time.toNat % 2 ^ 32
  else if off = 0x428 then s.grave.latched.toNat / 2 ^ 32
  else if 0x500 ≤ off && off < 0x5F0 then match forwarded s (4 + (off - 0x500) / 4) with
    | some src => src + 2 ^ 11
    | none => 0
  else 0

/-- The FT_ registers (R378). -/
def ftRead (s : State) (off : Nat) : Nat :=
  if off = 0x800 then ftCount s % 2 ^ 32
  else if off = 0x804 then s.io.nowHi.toNat
  else if off = 0x808 then s.ft.mode.code + 2 ^ 3 * b2n s.ft.gm + 2 ^ 4 * b2n s.ft.traceable + 2 ^ 5 * (s.ft.steps % 16) + 2 ^ 9 * b2n s.ft.stepped
  else if off = 0x80C then ((s.ft.offset / 1024).emod (2 ^ 32 : Nat)).toNat
  else if off = 0x810 then s.hoard.epoch % 2 ^ 32
  else if off = 0x814 then s.io.epochHi.toNat
  else if off = 0x818 then s.io.durLo.toNat
  else if off = 0x81C then s.io.durHi.toNat
  else 0

/-- The PMU_ and CLK_ registers (R647). -/
def pmuRead (s : State) (off : Nat) : Nat :=
  if off < 0x1000 + 157 * 16 then
    let d := (off - 0x1000) / 16
    if off % 16 = 0 then domStatWord s d
    else if off % 16 = 4 then clockEnables d
    else if off % 16 = 8 then (domOf s d).errs % 4
    else 0
  else if off = 0x1A00 then s.pwr.mode0.toNat + 2 ^ 2 * s.pwr.mode1.toNat + 2 ^ 4 * b2n (pairAsleep s 0) + 2 ^ 5 * b2n (pairAsleep s 1)
  else if off = 0x2000 then bitsWhere 25 (fun c => (clkOf s c).running)
  else if off = 0x2004 then bitsWhere 25 (fun c => (clkOf s c).loss)
  else if off = 0x2008 then bitsWhere 25 (fun c => (clkOf s c).hung)
  else if 0x2040 ≤ off && off < 0x2040 + 25 * 4 then
    let c := (off - 0x2040) / 4
    b2n (!hasMux c || (clkOf s c).primary) + 2 * b2n (clkOf s c).switching
  else if off = 0x2100 then s.pwr.obsClk + 2 ^ 8 * s.pwr.obsN + 2 ^ 13 * s.pwr.obsOut + 2 ^ 15 * b2n s.pwr.obsStopped
  else 0

/-- The MSI-X table and pending bits (R501, R505): bit 0 of an entry's last word masks its vector. -/
def msixRead (s : State) (off : Nat) : Nat :=
  if 0xE000 ≤ off && off < 0xE400 then
    if off % 16 = 12 then b2n (s.mbx.masked.getLsbD ((off - 0xE000) / 16)) else fieldAt (memRead s.mbx.msixTable (off - 0xE000) 4) 0 4
  else if off = 0xF000 then s.mbx.pba.toNat % 2 ^ 32
  else if off = 0xF004 then s.mbx.pba.toNat / 2 ^ 32
  else 0

/-- What 32 bits of BAR0 at an aligned offset read as, from one instant (R501, R646); an offset that no table lists reads 0. The three latches and MBX_IGNORED_READ have their own rows (DEDUCED, assumption 103). -/
def bar0Read (s : State) (off : Nat) : BitVec 32 :=
  BitVec.ofNat 32
    (if off % 4 ≠ 0 then 0
     else if off < 0x400 then peRead s off
     else if off < 0x800 then sicRead s off
     else if off < 0x900 then ftRead s off
     else if 0x1000 ≤ off && off < 0x3000 then pmuRead s off
     else msixRead s off)

end Sys2Proof.Machine
end

