-- ==== Sys2Proof/WellFormed.lean ====
section
/-! DEFINITION. Which commands are well formed: the bounds that the manual puts on their operands. -/

namespace Sys2Proof

/-- The largest request payload of a route (R497). -/
def routeLimit : Route → Nat
  | .pe _ => 1048512
  | .i3c _ _ => 4096
  | .tenant _ => 1856
  | .firmware _ => 1048512

/-- A Ubind command's payload is within its route's limit (R497). -/
def wfUbind (q : Req) (p : Bytes) : Bool := decide (p.length ≤ routeLimit q.route)

/-- A frame's payload is 0 to 4,096 bytes (R183). -/
def wfFrame (f : Frame) : Bool := decide (f.data.length ≤ 4096)

/-- An INIT message carries eight credit fields (R109). -/
def wfInit (m : InitMsg) : Bool := m.credits.length == 8 && m.credits.all (fun c => decide (c < 65536))

/-- Well-formedness of a command. -/
def WellFormed : Instr → Bool
  | .hello _ m | .echo _ m | .done _ m => wfInit m
  | .flitReceive _ a l => (l.length == 3 || l.length == 7) && (a :: l).all (fun b => b.length * (l.length + 1) == 256)
  | .requestClassify _ f _ | .responseIngress _ f | .throttle f => wfFrame f
  | .brockRequest _ _ f | .wbM _ _ f | .evictE _ _ f | .evictS _ _ f | .snoopAnswer _ _ f => wfFrame f
  | .registerWrite bar2 off _ => off % 4 == 0 && decide (off < if bar2 then 33554432 else 65536)
  | .messageWindowWrite r data => decide (r.page < 1024) && decide (data.length ≤ 4096)
  | .bindingPageAccess r _ => decide (r.page < 1024)
  | .durableEpochBlockRead r off => decide (r.page < 1024) && decide (off < 64)
  | .mbxNtcConsWrite r _ | .mbxTenDbWrite r _ | .mbxTenDoneClear r _ => decide (r.page < 1024)
  | .thermalSample j l h => decide (0 < j.length) && l.length == 8 && h.length == 4
  | .cxlLinkTrained _ _ t => (t.lanes == 4 || t.lanes == 8) && t.asks.all (fun q => decide (q.1 < 8))
  | .mctpRequest _ _ body => decide (body.length ≤ 2 + 64 + 4096)
  | .deviceIdentify q p | .deviceStatus q p | .deviceTransition q p | .deviceReset q p | .deviceGpio q p => wfUbind q p
  | .portConfigure q p | .portEnable q p | .portDisable q p | .portStatus q p | .portRetrain q p => wfUbind q p
  | .portPower q p | .portFreeze q p | .portRouteSet q p | .portMcastCreate q p | .portMcastUpdate q p => wfUbind q p
  | .portMcastDestroy q p | .bindTenantCreate q p | .bindTenantSet q p | .bindTenantDestroy q p => wfUbind q p
  | .bindTenantRead q p | .bindCreate q p | .bindDestroy q p | .bindRead q p | .bindMode q p => wfUbind q p
  | .bindApprove q p | .bindRefuse q p | .bindReinstate q p | .sliceCreate q p | .sliceSet q p => wfUbind q p
  | .sliceDestroy q p | .sliceRead q p | .gateSetCreate q p | .gateSetDestroy q p | .gateRuleWrite q p => wfUbind q p
  | .gateCommit q p | .gateConfigure q p | .gateDefaultSet q p | .gateStatus q p | .gateLeaseTake q p => wfUbind q p
  | .gateLeaseCommit q p | .gateLeaseRelease q p | .trafficQueueMap q p | .trafficBufferSet q p => wfUbind q p
  | .trafficRedSet q p | .trafficMeterCreate q p | .trafficMeterSet q p | .trafficMeterDestroy q p => wfUbind q p
  | .trafficMeterAttach q p | .trafficShaperSet q p | .trafficShaperClear q p | .trafficGateWrite q p => wfUbind q p
  | .trafficGateCommit q p | .cohConfigure q p | .cohEntryRead q p | .cohDreyPolicy q p | .cohDreyFlush q p => wfUbind q p
  | .cohHbmScrub q p | .cohHbmStatus q p | .cohRegionRetire q p | .hoardConfigure q p | .hoardStatus q p => wfUbind q p
  | .hoardDirtyCap q p | .hoardJournalSet q p | .hoardJournalRead q p | .timeConfigure q p | .timeSet q p => wfUbind q p
  | .timeStatus q p | .powerDomainSet q p | .powerDomainStatus q p | .powerClkobs q p | .logRead q p => wfUbind q p
  | .logStatus q p | .logSubscribe q p | .counterGroupCreate q p | .counterGroupDestroy q p => wfUbind q p
  | .counterRead q p | .secureTableLoad q p | .secureFwStage q p | .secureFwActivate q p | .secureAttest q p => wfUbind q p
  | .secureUnlock q p | .secureOwnerKey q p | .diagPrbs q p | .diagPrbsStop q p | .diagEyescan q p => wfUbind q p
  | .diagSurvey q p | .diagSurveyRead q p | .cageSet q p | .cageStatus q p => wfUbind q p
  | _ => true

end Sys2Proof
end

