-- ==== Sys2Proof/Tests/Slice0.lean ====
section
/-! SUPPORT. Tests: ill-formed terms, the manual's worked examples, one-step tests of commands, and states and operands that meet the hypotheses of every statement. -/

set_option maxRecDepth 20000

namespace Sys2Proof.Tests

set_option Elab.async false

open Sys2Proof Sys2Proof.Machine

/-- Every check of `Admitted` as one Bool. -/
def admitted (c : CmdSpec) (q : Req) (p : Bytes) (s : State) : Bool :=
  commandsRun s && q.lease == 0 && q.deadline == 0 && (checkCmd c q p s).isNone && (c.op != 0x0103 || !pfailHeld s)

theorem admits {c : CmdSpec} {q : Req} {p : Bytes} {s : State} (h : admitted c q p s = true) : Admitted c q p s := by
  simp only [admitted, Bool.and_eq_true, beq_iff_eq, Option.isNone_iff_eq_none] at h
  obtain ⟨⟨⟨⟨a, b⟩, d⟩, e⟩, f⟩ := h
  refine ⟨a, b, d, e, fun k => ?_⟩
  rcases Bool.or_eq_true _ _ ▸ f with g | g
  · simp [k] at g
  · simpa using g

/-- Every part of `Quiet` as one Bool. -/
def quiet (s : State) : Bool :=
  s.net.fallen.isEmpty && s.sw.reqs.isEmpty && s.dur.failedTo.isEmpty && (startingPorts s).isEmpty && s.hoard.flushing.isNone && s.dev.drainStep == 0 && s.dur.holdup == 0 && s.ten.sessions.isEmpty
    && s.cmd.running.isEmpty && s.ten.pageReads.isEmpty && s.dev.graveReq.isNone

theorem isQuiet {s : State} (h : quiet s = true) : Quiet s := by
  simp only [quiet, Bool.and_eq_true, beq_iff_eq, Option.isNone_iff_eq_none, List.isEmpty_iff] at h
  obtain ⟨⟨⟨⟨⟨⟨⟨⟨⟨⟨a, r⟩, w⟩, b⟩, c⟩, d⟩, y⟩, e⟩, f⟩, g⟩, i⟩ := h
  exact ⟨a, by simp [r], w, b, c, d, .inl y, e, f, g, i⟩

theorem fstIs {α β : Type} {x : α × β} {a : α} (h : x.1 = a) : x = (a, x.2) := by subst h; rfl

theorem noneIs {α : Type} {x : Option α} {P : α → Prop} (h : x = none) : ∀ r, x = some r → P r := by subst h; intro _ e; cases e

theorem someIs {α : Type} {x : Option α} {P : α → Prop} (a : α) (h : x = some a) (p : P a) : ∀ r, x = some r → P r := by subst h; intro _ e; cases e; exact p

theorem isSomeOr {α : Type} {x : Option α} (d : α) (h : x.isSome = true) : x = some (x.getD d) := by cases x <;> simp_all

/-- What holds of the default and of every entry of a table holds of every read. -/
theorem everyRead {α : Type} [Inhabited α] {P : α → Prop} (t : Tab α) (hd : P default) (h : ∀ e ∈ t, P e.2) : ∀ k, P (tget t k) := by
  intro k
  induction t with
  | nil => exact hd
  | cons a r ih =>
    obtain ⟨j, v⟩ := a
    simp only [tget]
    split
    · exact h (j, v) (by simp)
    · exact ih (fun e m => h e (List.mem_cons_of_mem _ m))

/-- A gate's answer is to pass. -/
def passes : Verdict → Bool
  | .pass => true
  | _ => false

/-- Who a gate's refusal names. -/
def refusal : Verdict → Option Handle
  | .refuse r => some r
  | _ => none

theorem isRefusal {v : Verdict} {r : Handle} (h : refusal v = some r) : v = .refuse r := by cases v <;> simp_all [refusal]

theorem isPass {v : Verdict} (h : passes v = true) : v = .pass := by cases v <;> first | rfl | cases h

/-- Every power domain On, the debug domains included. -/
def onDoms : Tab DomSt := (List.range 157).map (fun d => (d, ({ st := .on, ready := 7, masked := false } : DomSt)))

/-- Every start step done. -/
def doneSteps : Tab KStep := (List.range 14).map (fun k => (k, ({ st := .done } : KStep)))

/-- A logical port that is up, with a mode and a role. -/
def upLp (mode role : Nat) : LpSt := { cfg := { mode := mode, role := role }, link := .up }

/-- A module in Service: Den port 10 leads to a host, 96 and 98 to devices, 20 to another module; CXL port 30 leads to a host and 32 to a device; 40 and 42 are untouched. -/
def svc : State :=
  { dev := { st := .service }, log := { open_ := true }, pins := { porstN := true }, pwr := { doms := onDoms, clks := (List.range 25).map (fun c => (c, ({ running := true, primary := true } : ClkSt))) }, sec := { tableOk := true },
    ft := { acc := 0x2540BE40000000000, mode := .free, gm := true, acquired := true }, hb := { running := true, standbyHealthy := true },
    start := { kind := 1, steps := doneSteps },
    net := { lps := [(10, upLp 1 1), (20, upLp 1 3), (30, upLp 2 1), (32, upLp 2 2), (96, upLp 1 2), (98, upLp 1 2)] },
    sw := { routes := [(0x10, 1 + 4 * 10), (0x100, 1 + 4 * 96), (0x101, 1 + 4 * 98), (0xBFE, 2)] } }

/-- The module with a tenant, a slice behind port 96, a rule set and a binding of host port 10, one of each. -/
def owned : State :=
  modTen (fun t => { t with
    objs := [(2 ^ 20, { live := true, used := true }), (2 * 2 ^ 20, { live := true, used := true }), (7 * 2 ^ 20, { live := true, used := true }), (8 * 2 ^ 20, { live := true, used := true })],
    tenants := [(0, { live := true })],
    slices := [(0, { live := true, owner := 0x80000000, base := 0x40000000, len := 0x40000000, target := 0x100 })],
    bindings := [(0, { live := true, tenant := 0x80000000, slice := 0x20000000, lp := 10, wbase := 0x1000000000, len := 0x40000000 })],
    ruleSets := [(0, { live := true, owner := 0x80000000 })] }) svc

/-- A request from mailbox slot 0. -/
def pe : Req := { route := .pe 0 }

/-- A request from a tenant's mailbox. -/
def ten : Req := { route := .tenant 0x10000000 }

/-- The first page of port 10's window and its last. -/
def page0 : PageRef := { lp := 10, pasid := 0, page := 0 }

def pageEnd : PageRef := { lp := 10, pasid := 0, page := 1023 }

/-- The state at another time, in nanoseconds. -/
def atNs (t : Nat) (s : State) : State := { s with ft := { s.ft with acc := BitVec.ofNat 80 (t * 2 ^ 32) } }

/-- The state with the device in another state. -/
def inSt (d : DevState) (s : State) : State := { s with dev := { s.dev with st := d } }

/-- The state with one session, of a kind, held by mailbox slot 0's origin. -/
def sess (r : SessRes) (s : State) : State :=
  modTen (fun t => { t with objs := tset t.objs (6 * 2 ^ 20) { live := true, used := true }, sessions := [(0, { live := true, owner := .pe 0, res := r })] }) s

/-- The state with a live object of a type at index 0. -/
def obj (ty : Nat) (s : State) : State := modTen (fun t => { t with objs := tset t.objs (ty * 2 ^ 20) { live := true, used := true } }) s

/-- A configure payload that leaves every limit at its default. -/
def cfgb (lp mode width role flags : Byte) : Bytes := [lp, mode, width, role, 0, flags, 0, 0] ++ zeros 56

/-- Port 5 split into two Den halves, both up. -/
def split : State :=
  modLp 11 (fun _ => { cfg := { width := 4, failback := false }, link := .up }) (modLp 10 (fun _ => { cfg := { width := 4, failback := false }, link := .up }) svc)

/-- The state with signed equaliser settings in force for the lanes of logical port 0. -/
def withTable (s : State) : State :=
  { s with sec := { s.sec with tables := [(0, { bytes := zeros 128 ++ (List.replicate 8 ([0, 0, 12, 0] ++ zeros 396)).flatten, complete := true })] } }

/-- A tenant's record as the payload of a tenant command. -/
def tenPay (h : Nat) (prio strict : Byte) : Bytes := leBytes 4 h ++ [prio, strict] ++ zeros 26

/-- A binding of slice 0 to host port 10 as the payload of `bind.create`. -/
def bindPay (wb : Nat) : Bytes :=
  leBytes 4 0 ++ leBytes 4 0x80000000 ++ leBytes 4 0x20000000 ++ [10] ++ zeros 3 ++ leBytes 8 wb ++ leBytes 8 0x200000 ++ zeros 24

/-- The module of `owned` without its binding. -/
def unbound : State := modTen (fun t => { t with objs := t.objs.drop 1, bindings := [] }) owned

/-- The module of `owned` with its rule set changed. -/
def rset (g : RuleSet → RuleSet) : State := modRules 0x70000000 g owned

/-- A rule over slice 0 for every tenant, with a priority. -/
def aRule (prio : Nat) : Nat :=
  let v := 0x40000 + 0x7FFFF * 2 ^ 40 + 2 ^ 92 + 2 ^ 94 + 15 * 2 ^ 96 + prio * 2 ^ 104
  v + (crc16 112 v).toNat * 2 ^ 112

/-- The module of `owned` with a lease over slice 0. -/
def leased (r : Route) (g : Lease → Lease) : State :=
  modTen (fun t => { t with leases := [(0, g { live := true, owner := r, objects := [0x20000000], named := 10000000000 })] }) (obj 10 owned)

/-- A request under the lease of `leased`. -/
def under : Req := { route := .pe 0, lease := 0xA0000000 }

/-- The module of `owned` with one mediated request that waits, event 5. -/
def asked : State := modTen (fun t => { t with mediated := true, medReqs := [{ ev := 5, tenant := 0x80000000, deadline := 20000000000, payload := bindPay 0x2000000000 }] }) owned

theorem oneRule : ruleList (leBytes 4 0x70000000 ++ [1, 0, 0, 0] ++ leBytes 16 (aRule 127)) = [BitVec.ofNat 128 (aRule 127)] := by decide +kernel

/-- The module with a persistent journal region behind each device port. -/
def jset : State :=
  modTen (fun t => { t with slices := [(0, { live := true, persistent := true, len := 2 ^ 28, target := 0x100 }), (1, { live := true, persistent := true, len := 2 ^ 28, target := 0x101 })] }) svc

/-- No table is signed by a known key while no owner key is programmed. -/
theorem noTable (b : Bytes) : tableAuth svc.fuses b = false := by
  have h : ∀ d, ownerKnown svc.fuses d = false := fun d => rfl
  simp [tableAuth, h]

/-- The module with parts of the standby bank complete and valid. -/
def staged2 : State := modSec (fun y => { y with parts := [(2, { complete := true, valid := true }), (3, { complete := true, valid := true })] }) svc

/-- The module with a request in mailbox slot 3 that carries a Deadline. -/
def posted (d : Nat) : State :=
  modCmd (fun c => { c with peQueue := [3] }) (modMbx (fun m => { m with bar2 := memWrite [] (3 * 0x200000 + 16) (leBytes 8 d) }) svc)

/-- The module during a hibernation step. -/
def hibAt (k : Nat) : State := { inSt .hibernate svc with hib := { step := k, t0 := 10000000000 } }

/-- Port 10 training, at an initialisation step. -/
def training (g : DenInit → DenInit) : State := modInit 10 (fun x => g { x with began := 10000000000 }) (modLp 10 (fun l => { l with link := .training }) svc)

/-- Ports 10 and 12 are twins of each other and both up. -/
def twinned : State :=
  modLp 12 (fun _ => { cfg := { twin := 10, twinNamed := true }, link := .up }) (modLp 10 (fun _ => { cfg := { twin := 12, twinNamed := true }, link := .up }) svc)

/-- Port 10's lanes locked, each with its own number. -/
def laned (s : State) : State := (List.range 8).foldl (fun s k => modLane (40 + k) (fun l => { l with locked := true, num := k }) s) s

/-- What lanes 1 to 7 carry of a flit. -/
def others (b : Bytes) : List Bytes := (List.range 7).map (fun m => stripe 8 (m + 1) b)

/-- A flit of a type with a right check. -/
def flitOf (ty : Nat) : Bytes :=
  let b := leBytes 8 (ty * 2 ^ 48) ++ zeros 240
  b ++ leBytes 8 (crc64 b).toNat

/-- Port 20 carries fabric time. -/
def timed : State := modIo (fun i => { i with entries := [(20, { en := true })] }) svc

/-- The module follows port 20. -/
def following (g : FtSt → FtSt) : State := modFt (fun f => g { f with gm := false, parent := some 20 }) timed

/-- Two interrupt sources that wait for core pair 0. -/
def raisedSrcs : State := { svc with sic := { svc.sic with srcs := [(1, { pend := true, word := 0x1F }), (2, { pend := true, word := 0x12 })] } }

/-- The module of `owned` with credits to give on port 10, 20 and 96. -/
def credited : State :=
  [10, 20, 96].foldl (fun s n => modTx n (fun t => { t with credits := List.replicate 8 640 }) (modRx n (fun r => { r with open_ := List.replicate 8 640 }) s)) owned

/-- One request of host port 10 that has arrived for device port 96. -/
def crossing1 : XReq := { id := 1, f := { opcode := 1, cls := 1, chan := 4, did := 0x100, sid := 0x10 }, src := .port 10, dst := .lp 96, arrived := 32 }

/-- The module with that request waiting at the crossbar. -/
def crossing : State := modSw (fun w => { w with reqs := [crossing1], nextId := 2 }) svc

/-- The module of `owned` with a coherent slice and a rule that admits its tenant. -/
def coh : State :=
  modRules 0x70000000 (fun r => { r with committed := [BitVec.ofNat 128 (aRule 64)] })
    (modTen (fun t => { t with slices := [(0, { live := true, owner := 0x80000000, base := 0x40000000, len := 0x40000000, target := 0x100, coherent := true })] }) owned)

/-- A coherent frame with its header sealed. -/
def cmf (op len : Nat) : Frame :=
  sealHdr { opcode := BitVec.ofNat 8 op, sid := 0x10, did := 0x100, binding := 0x10000000, addr := 0x40000000, length := BitVec.ofNat 16 len, data := zeros len }

/-- The coherent module whose directory records port 10 as a line's owner or as one of its sharers. -/
def held (st : Nat) : State := putDir 1 (16 * dirSet 0x1000000) { la := 0x1000000, st := st, nptr := 1, shr := 10 } coh

/-- The coherent module with every tracker of home slice 1 in use. -/
def taken : State := { coh with slices := [(1, { trks := (List.range 2048).map (fun k => (k, ({ used := true } : Trk))) })] }

theorem noTrk (f : Frame) : freeTrk (gateCheck 1 f (bumpC .lookups 1 0 1 (ctxOf taken f) taken)).2 1 = none := by
  have h : ∀ (l : List Nat) (k : Nat), k ∈ l → (tget (l.map (fun k => (k, ({ used := true } : Trk)))) k).used = true := by
    intro l k hk
    induction l with
    | nil => cases hk
    | cons j l ih =>
      simp only [List.map_cons, tget]
      split
      · rfl
      · rcases List.mem_cons.1 hk with e | e
        · exact absurd e.symm ‹_›
        · exact ih e
  simp only [freeTrk, firstBelow, List.find?_eq_none, trkOf, slOf]
  intro k hk
  have e : (gateCheck 1 f (bumpC .lookups 1 0 1 (ctxOf taken f) taken)).2.slices = taken.slices := by simp
  rw [e]
  show ¬(!(tget ((List.range 2048).map (fun k => (k, ({ used := true } : Trk)))) k).used) = true
  rw [h _ k hk]
  decide

/-- The module with many dirty persistent ways in one controller. -/
def manyDirty (n : Nat) (hold : Bool) : State :=
  { svc with dur := { svc.dur with dirtyCap := 1 }, drey := [(0, { capHold := hold, ways := (List.range n).map (fun k => (k, ({ v := true, d := true, p := true } : DreyWay))) })] }

theorem dirtyCount_manyDirty (n : Nat) (h : Bool) : dirtyCount (manyDirty n h) 0 = n := by
  simp [dirtyCount, dreyOf, manyDirty, tget, List.filter_map, Function.comp_def]

/-- The state after one command, or reset where it gave none. -/
def after (i : Instr) (s : State) : State :=
  match exec i s with
  | .next t => t
  | _ => State.reset

/-! Ill-formed terms: one for each check of `WellFormed`. -/

theorem test_illformed_payload : WellFormed (.bindRead { route := .tenant 0x10000000 } (List.replicate 1857 0)) = false := by decide +kernel

theorem test_wellformed_payload : WellFormed (.bindRead { route := .tenant 0x10000000 } (List.replicate 1856 0)) = true := by decide +kernel

theorem test_illformed_frame : WellFormed (.throttle { data := List.replicate 4097 0 }) = false := by decide +kernel

theorem test_illformed_init_credits : WellFormed (.hello 0 { subtype := 1, credits := [1, 2, 3] }) = false := by decide +kernel

theorem test_illformed_init_credit_value : WellFormed (.done 0 { subtype := 3, credits := List.replicate 8 65536 }) = false := by decide +kernel

theorem test_illformed_flit : WellFormed (.flitReceive 0 (List.replicate 31 0) (List.replicate 7 (List.replicate 32 0))) = false ∧ WellFormed (.flitReceive 0 (List.replicate 64 0) (List.replicate 3 (List.replicate 64 0))) = true := by decide +kernel

theorem test_illformed_register_alignment : WellFormed (.registerWrite false 2 0) = false := by decide +kernel

theorem test_illformed_register_range : WellFormed (.registerWrite true 33554432 0) = false ∧ WellFormed (.registerWrite false 65536 0) = false := by decide +kernel

theorem test_illformed_page : WellFormed (.mbxTenDbWrite { lp := 0, pasid := 0, page := 1024 } 1) = false
    ∧ WellFormed (.mbxNtcConsWrite { lp := 0, pasid := 0, page := 1024 } 1) = false
    ∧ WellFormed (.mbxTenDoneClear { lp := 0, pasid := 0, page := 1024 } 1) = false
    ∧ WellFormed (.bindingPageAccess { lp := 0, pasid := 0, page := 1024 } (.read 0 4)) = false := by decide +kernel

theorem test_illformed_message : WellFormed (.messageWindowWrite page0 (List.replicate 4097 0)) = false
    ∧ WellFormed (.messageWindowWrite { page0 with page := 1024 } []) = false := by decide +kernel

theorem test_illformed_epoch_block : WellFormed (.durableEpochBlockRead page0 64) = false
    ∧ WellFormed (.durableEpochBlockRead { page0 with page := 1024 } 0) = false := by decide +kernel

theorem test_illformed_sensors : WellFormed (.thermalSample [] (List.replicate 8 0) [0, 0, 0, 0]) = false
    ∧ WellFormed (.thermalSample [0] (List.replicate 7 0) [0, 0, 0, 0]) = false
    ∧ WellFormed (.thermalSample [0] (List.replicate 8 0) [0, 0, 0]) = false := by decide +kernel

theorem test_illformed_cxl_lanes : WellFormed (.cxlLinkTrained 0 .r64 { lanes := 2 }) = false := by decide +kernel

theorem test_illformed_mctp : WellFormed (.mctpRequest 1 0 (List.replicate 4163 0)) = false := by decide +kernel

/-! The manual's worked examples. -/

/-- Chapter 7: address 0x0123_4567_89C0 has line 0x4_8D15_9E27, home slice 7 and set 0x15_973D. -/
theorem test_example_home : lineOf 0x0123456789C0 = 0x48D159E27 ∧ homeSlice 0x48D159E27 = 7 ∧ dirSet 0x48D159E27 = 0x15973D := by decide +kernel

/-- Chapter 8: the same line has tag 0x533 and set 0x75_973D of controller 1, in region 61 of its stack; its directory set lies in region 25. -/
theorem test_example_drey : dreyCtl 0x48D159E27 = 1 ∧ dreyTag 0x48D159E27 = 0x533 ∧ dreySet 0x48D159E27 = 0x75973D ∧ dreyRegion 0x75973D = 61 ∧ dirRegion 7 0x15973D = 25 := by
  decide +kernel

/-- Chapter 8: the default cap gives each controller 33,554,432 lines. -/
theorem test_example_quota : quota State.reset = 33554432 := by decide +kernel

/-- Chapter 2: lane 341 belongs to LP085 of the split port 42, on IOD2. -/
theorem test_example_lane : lpOfLane (modLp 84 (fun _ => { cfg := { width := 4 } }) svc) 341 = 85 ∧ dieOf 85 = 2 := by decide +kernel

/-- Chapter 2: the settings at 60 °C between the points of 35 °C and 80 °C. -/
theorem test_example_settings : interp (-10) (-14) 350 800 600 = -12 ∧ interp 18 22 350 800 600 = 20 ∧ interp (-1200) (-1560) 350 800 600 = -1400 := by decide +kernel

/-- Chapter 3: after 0xFFFE is lost across the wrap, SNAK is 0x0001. -/
theorem test_example_snak : snakOf { ack := 0xFFFD, known := 1, held := [{ seq := 0xFFFF }, { seq := 0 }, { seq := 1 }] } = 1 := by decide +kernel

/-- Chapter 3: the reverse flit's header is 0x0001_0001_FFFD_0230; its bytes are 30 02 FD FF 01 00 01 00. -/
theorem test_example_flit_header : (flitBytes 1 0x230 0xFFFD 1 false []).take 8 = [0x30, 0x02, 0xFD, 0xFF, 0x01, 0x00, 0x01, 0x00] := by decide +kernel

/-- Chapter 4: the fifteenth violation comes when the first has left the window, so the count stays at 14. -/
theorem test_example_window : (slide 1050000 1000000 ([980000, 980000] ++ List.replicate 10 410000 ++ [130000, 0])).length + 1 = 14 := by decide +kernel

/-- Chapter 6: the average of Q3 before and after a yellow frame, in units of 1/65,536 of a cell. -/
theorem test_example_red : redAverage { avg := 1100 * 65536, frames := [{}] } 1300 0 = 72115200 ∧ 64 * 256 * (72115200 - 512 * 65536) / (1024 * 65536) = 9414 := by decide +kernel

/-- The meter of chapter 6, with its buckets in bytes. -/
def exMeter (tc tp t : Nat) : MeterSt := { cir := 10000000, pir := 20000000, cbs := 8192, pbs := 16384, tc := tc * 2 ^ 24, tp := tp * 2 ^ 24, last := t }

/-- Chapter 6: frames 1 to 3 of the meter's example are green, green and yellow. -/
theorem test_example_meter_green : meterStep (exMeter 8192 16384 0) false 0 4128 0 = (0, exMeter 4064 12256 0)
    ∧ meterStep (exMeter 4064 12256 0) false 0 4128 100 = (0, exMeter 61 8378 100)
    ∧ meterStep (exMeter 61 8378 100) false 0 4128 200 = (1, exMeter 186 4500 200) := by decide +kernel

/-- Chapter 6: frames 4 to 7, the last pre-coloured yellow. -/
theorem test_example_meter_red : meterStep (exMeter 186 4500 200) false 0 4128 300 = (1, exMeter 311 622 300)
    ∧ meterStep (exMeter 311 622 300) false 0 4128 400 = (2, exMeter 436 872 400)
    ∧ meterStep (exMeter 436 872 400) false 0 4128 3400 = (0, exMeter 58 4244 3400)
    ∧ meterStep (exMeter 58 4244 3400) true 1 4128 3500 = (1, exMeter 183 366 3500) := by decide +kernel

/-- A binding shaper of 200 Gbit/s at a rate, with the time of its last decrease. -/
def exShaper (re : Nat) (last : Option Nat) : State :=
  modTm (fun t => { t with shapers := [(0, { configured := true, started := true, par := { rate := 200000000 }, re := re, lastDec := last })] }) owned

/-- Chapter 6: a throttle notice takes Re from 200 to 175 Gbit/s, and one 3 µs after the last is not applied. -/
theorem test_example_throttle : (shaperOf (throttleNotice 0x10000000 false (exShaper (200000000 * 2 ^ 24) none)) 0).re = 175000000 * 2 ^ 24
    ∧ (shaperOf (throttleNotice 0x10000000 false (exShaper (175000000 * 2 ^ 24) (some 9999997000))) 0).re = 175000000 * 2 ^ 24 := by decide +kernel

/-- Chapter 6: after a quiet interval Re rises by 6.25 Gbit/s. -/
theorem test_example_recovery : (shaperOf (throttleRecover 0x10000000 (exShaper (133984375 * 2 ^ 24) none)) 0).re = 140234375 * 2 ^ 24 := by decide +kernel

/-- Chapter 6: a commit at 5,000,300 ns swaps at 5,100,000 ns. -/
theorem test_example_gate_swap : swapInstant { live := true, copy0 := { slots := [(100000, 255)] } } 5000300 = 5100000 := by decide +kernel

/-- Chapter 6: at position 19,970 ns 30 ns of Q0's window remain, which 4,128 bytes do not fit and 2,080 do. -/
theorem test_example_gate_window : windowLeft { slots := [(20000, 0x81), (60000, 0xFE), (20000, 0xFF)] } 0 19970 = some 30
    ∧ wireTime svc 10 4128 = 42 ∧ wireTime svc 10 2080 = 21 := by decide +kernel

/-- Chapter 7: five sharers in groups 5, 6, 7, 8 and 10 make the coarse word 0x0000_05E0. -/
theorem test_example_coarse : ([40, 50, 60, 70, 80].foldl (fun e r => addSharer e r true) { st := 1 }).shr = 0x5E0
    ∧ ([40, 50, 60, 70, 80].foldl (fun e r => addSharer e r true) { st := 1 }).coarse = true := by decide +kernel

/-- Chapter 9: the exchange measures a delay of 600 ns and an offset of 250 ns. -/
theorem test_example_delay :
    let s := after (.delayRsp 20 { subtype := 3, exchange := 7, t1 := 1000000 * 65536, t2 := 1000850 * 65536, sendTime := 1002850 * 65536 }) (atNs 1003200 (following (fun f => { f with waiting := some (7, 1000000) })))
    s.ft.delay = 600 * 65536 ∧ s.ft.offset = 250 * 65536 := by decide +kernel

/-- Chapter 10's gate: slice 0x2000_1405, tenants 7 and 9, and the rules A and B. -/
def exGate (first : Bool) : State :=
  let rule := fun (base last tenant mtch perm prio : Nat) => BitVec.ofNat 128 (let v := base + last * 2 ^ 40 + tenant * 2 ^ 80 + mtch * 2 ^ 92 + 2 ^ 94 + perm * 2 ^ 96 + prio * 2 ^ 104; v + (crc16 112 v).toNat * 2 ^ 112)
  modTen (fun t => { t with
    objs := [(2 ^ 20, { live := true, used := true }), (2 ^ 20 + 1, { live := true, used := true }), (2 * 2 ^ 20 + 20, { live := true, used := true, gen := 5 }), (7 * 2 ^ 20 + 3, { live := true, used := true, gen := 1 }), (7 * 2 ^ 20 + 9, { live := true, used := true, gen := 2 }), (8 * 2 ^ 20 + 7, { live := true, used := true, gen := 1 }), (8 * 2 ^ 20 + 9, { live := true, used := true })],
    tenants := [(7, { live := true }), (9, { live := true })],
    slices := [(20, { live := true, owner := 0x80000701, base := 0x40000000, len := 0x40000000, target := 0x100 })],
    bindings := [(0, { live := true, tenant := 0x80000701, slice := 0x20001405, lp := 10, len := 0x40000000 }), (1, { live := true, tenant := 0x80000900, slice := 0x20001405, lp := 12, len := 0x40000000 })],
    gates := [(112, { firstByte := first })],
    ruleSets := [(3, { live := true, committed := [rule 0x40000 0x7FFFF 7 0 3 64] }), (9, { live := true, owner := 0x80000701, committed := [rule 0x40100 0x40100 0 1 1 100] })] }) svc

/-- An access of 4,096 bytes at 0x400F_F800 by a binding. -/
def exAccess (op : Byte) (b : Handle) : Frame := { opcode := op, cls := 1, chan := 4, binding := b, addr := 0x400FF800, length := 4096, data := if op = 1 then [] else zeros 4096 }

/-- What a gate answers, as data. -/
def answerOf : Verdict → Option (Handle × List (Nat × Nat))
  | .pass => none
  | .refuse h => some (h, [])
  | .parts l h => some (h, l)

/-- Chapter 10: tenant 7's BWRITE passes for its first page only, and the refusal names 0x7000_0902; its BREAD passes. -/
theorem test_example_gate_parts : answerOf (gateDecide (exGate false) 112 (exAccess 2 0x10000000)) = some (0x70000902, [(0, 2048)])
    ∧ answerOf (gateDecide (exGate false) 112 (exAccess 1 0x10000000)) = none := by decide +kernel

/-- Chapter 10: tenant 9's BREAD fails whole, and in first-byte mode tenant 7's BWRITE passes whole. -/
theorem test_example_gate_whole : answerOf (gateDecide (exGate false) 112 (exAccess 1 0x10000100)) = some (0, [])
    ∧ answerOf (gateDecide (exGate true) 112 (exAccess 2 0x10000000)) = none := by decide +kernel

/-- Chapter 15's source 337: PRIO 6, enabled, edge, the active pair, FBK pair 1, NOWAKE 1, CCNT 4, CTIME 20 and FWD 9. -/
def ex337 (c : SicSrc) : State :=
  let w := 6 + 2 ^ 4 + 2 * 2 ^ 6 + 1 * 2 ^ 8 + 2 ^ 10 + 4 * 2 ^ 16 + 20 * 2 ^ 24 + 9 * 2 ^ 40
  { svc with sic := { svc.sic with srcs := [(337, { c with word := BitVec.ofNat 64 w })] } }

/-- Chapter 15: the third edge is held; 20 µs after the first the source is pending with three merged. -/
theorem test_example_coalesce : (tget (after (.sicSourceEdge 337) (ex337 { held := 2, firstHeld := 9999995000 })).sic.srcs 337).held = 3
    ∧ (tget (after (.sicCoalesceTimeout 337) (ex337 { held := 3, firstHeld := 9999980000, due := 10000000000 })).sic.srcs 337).pend = true
    ∧ (tget (after (.sicCoalesceTimeout 337) (ex337 { held := 3, firstHeld := 9999980000, due := 10000000000 })).sic.srcs 337).merged = 3 := by decide +kernel

/-- Chapter 15: it is committed to pair 0, and with pair 0 in Sleep and NOWAKE set to pair 1. -/
theorem test_example_route : (after .sicArbitration (ex337 { pend := true, merged := 3 })).sic.pair0.committed = some 337
    ∧ (after .sicArbitration (modDom 148 (fun x => { x with st := .sleep }) (ex337 { pend := true, merged := 3 }))).sic.pair1.committed = some 337 := by decide +kernel

/-- Chapter 15: a second completion of a source is ignored and counted. -/
theorem test_example_spurious : (after (.sicComplete 0 337) (ex337 {})).sic.spurious = 1 := by decide +kernel

/-- Cage 42 of chapter 16, in a state. -/
def cage42 (g : CageSt → CageSt) : State := modCage 42 g (modPort 42 (fun x => { x with prsntHigh := false, present := true }) svc)

/-- Chapter 16: 6.8 A takes the cage to LIMIT, 5.1 A takes it back to ON, and power-good stays. -/
theorem test_example_cage_limit : (cageOf (after (.cageSample 42 6800 12000) (cage42 (fun x => { x with st := .on, pg := true }))) 42).st = .limit
    ∧ (cageOf (after (.cageSample 42 5100 12000) (cage42 (fun x => { x with st := .limit, pg := true, timer := some 9998000000 }))) 42).st = .on
    ∧ (cageOf (after (.cageSample 42 6800 12000) (cage42 (fun x => { x with st := .on, pg := true }))) 42).pg = true := by decide +kernel

/-- Chapter 16: a current past 15.0 A is a hard trip, and a retry falls due 5 s later. -/
theorem test_example_cage_trip : (cageOf (after (.cageHardTrip 42 15100) (cage42 (fun x => { x with st := .on, pg := true }))) 42).st = .tripped
    ∧ (cageOf (after (.cageRetry 42) (cage42 (fun x => { x with st := .tripped, lastTrip := 5000000000 }))) 42).st = .ramp := by decide +kernel

/-! One step each on a small state. -/

/-- The empty queue: one tick advances fabric time by the increment (R379, DESIGN CHOICE, assumption 1). -/
theorem test_tick : (match step svc with | .next t => decide (t.ft.acc = svc.ft.acc + 0x100000000#80) | _ => false) = true := by decide +kernel

/-- R507: a free slot becomes posted. -/
theorem test_doorbell : tget (after (.mbxDoorbellWrite 0x0030) svc).mbx.slots 5 = .posted ∧ tget (after (.mbxDoorbellWrite 0x0030) svc).mbx.slots 3 = .free := by decide +kernel

/-- R378: reading the low half latches the high half. -/
theorem test_ft_now : (after .ftNowLoRead svc).io.nowHi = 0x2540B := by decide +kernel

/-- R220: `port.freeze` sets its port's freeze bit. -/
theorem test_freeze : (portOf (after (.portFreeze pe [10, 1, 0, 0]) svc) 5).freeze = true := by decide +kernel

/-- R513: an origin that may not issue a command is refused before anything else. -/
theorem test_denied : (checkCmd specReset ten (zeros 4) owned).map (·.1) = some .denied := by decide +kernel

/-- R439: a tenant's record takes the defaults of the zero fields. -/
theorem test_tenant_create : (tenantOf (after (.bindTenantCreate pe (tenPay 0 3 1)) svc) 0x80000000).prio = 3
    ∧ (tenantOf (after (.bindTenantCreate pe (tenPay 0 3 1)) svc) 0x80000000).strict = true
    ∧ (tenantOf (after (.bindTenantCreate pe (tenPay 0 3 1)) svc) 0x80000000).bindQuota = 64 := by decide +kernel

/-- R447: a binding's window, length and page. -/
theorem test_bind_create : (bindOf (after (.bindCreate pe (bindPay 0x2000000000)) owned) 1).wbase = 0x2000000000
    ∧ (bindOf (after (.bindCreate pe (bindPay 0x2000000000)) owned) 1).len = 0x200000
    ∧ (bindOf (after (.bindCreate pe (bindPay 0x2000000000)) owned) 1).page = 1 := by decide +kernel

/-- R252: a queue shaper's handle names its queue. -/
theorem test_shaper_set : (tget (after (.trafficShaperSet pe (leBytes 4 0x41005000 ++ leBytes 4 1000 ++ leBytes 4 4128 ++ [0, 3, 6, 0] ++ leBytes 4 50000)) svc).tm.shapers 65616).par.rate = 1000 := by
  decide +kernel

/-- R665: a watchdog kick restarts the watchdog's interval. -/
theorem test_kick : (after .heartbeatKick (modHb (fun h => { h with lastKick := 9999000001 }) svc)).hb.lastKick = 10000000000 := by decide +kernel

/-- R293, R295: a read of an uncached coherent line takes a tracker and its line. -/
theorem test_brock : (trkOf (after (.brockRequest 1 10 (cmf 1 0)) coh) 1 0).used = true ∧ (trkOf (after (.brockRequest 1 10 (cmf 1 0)) coh) 1 0).line = 0x1000000 := by decide +kernel

/-- R123: an acknowledgement that stands still for 1 ms takes the link down. -/
theorem test_ack_stall : linkLive (after (.ackStallTimeout 10) (modTx 10 (fun t => { t with next := 1, lastAdv := 9999000000 }) svc)) 10 = false := by decide +kernel

/-- R183: a sealed header checks, and a changed one does not. -/
theorem test_hchk : hchkOk (cmf 1 0) = true ∧ hchkOk { cmf 1 0 with tag := 1 } = false := by decide +kernel

/-- R184: the CRC-32C of the nine bytes "123456789" is its published check value. -/
theorem test_crc32c : crc32c [0x31, 0x32, 0x33, 0x34, 0x35, 0x36, 0x37, 0x38, 0x39] = 0xE3069283#32 := by decide +kernel

/-- The Reset column of R502, R378, R647 and R682, in Boot. -/
theorem test_bar0_reset_values :
    let s : State := { State.reset with dev := { st := .boot } }
    [0x000, 0x004, 0x010, 0x014, 0x018, 0x020, 0x104, 0x200, 0x20C, 0x220, 0x400, 0x420, 0x500, 0x808, 0x1000, 0x1A00, 0x2000, 0x2004, 0x2040, 0x2100].map (fun o => (bar0Read s o).toNat)
      = [0x10241F5B, 0x01B1, 0x4010, 0x1, 0, 0, 0, 0, 0xFFFF, 0, 0, 0, 0, 0, 0x1000, 0, 0x4, 0, 1, 0] := by decide +kernel

/-- R378: a read of FT_NOW_LO latches the high half that FT_NOW_HI then reads. -/
theorem test_ft_now_latch :
    let s : State := { svc with ft := { svc.ft with acc := BitVec.ofNat 80 (0x123456789 * 65536) } }
    bar0Read s 0x800 = 0x23456789#32 ∧ bar0Read (nowRead s) 0x804 = 0x1#32 := by decide +kernel

/-- The table gives no row any bits, so no word spells a command. -/
theorem test_no_words : decodeTableWord 32 0 = none ∧ (State.reset.withFetchWord 32 0).pending = [] := by decide +kernel

/-! States and operands that meet the hypotheses of every statement, clause by clause; where a clause bounds a value, at the bound. -/

/-- The module with two images in both banks. -/
def exImages (b1 b2 : Bytes) : State :=
  modSec (fun y => { y with parts := [(0, { bytes := b1 }), (1, { bytes := b2 }), (2, { bytes := b1 }), (3, { bytes := b2 })] }) svc

/-- The hypotheses of the `secure.fw_activate` clause for the rollback value hold of every four images that pass the checks of R558; whether any does rests on the signatures, which the model leaves opaque. -/
theorem test_hyps_SecureCommands_images (b1 b2 : Bytes) (h1 : imageFails svc.fuses 1 b1 = none) (h2 : imageFails svc.fuses 2 b2 = none) :
    ∃ (q : Req) (p : Bytes) (s u : State), u = counted q s ∧ Admitted specFwActivate q p s ∧ fieldAt p 0 1 = 2 := by
  refine ⟨pe, [2, 0, 0, 0], exImages b1 b2, _, rfl, ⟨rfl, rfl, rfl, ?_, fun h => absurd h (by decide)⟩, rfl⟩
  have e : specFwActivate.state (exImages b1 b2) pe.route [2, 0, 0, 0] = true := by
    show (updateState svc && [(1, b1), (2, b2), (1, b1), (2, b2)].all (fun i => (imageFails svc.fuses i.1 i.2).isNone)) = true
    simp only [List.all_cons, List.all_nil, h1, h2]
    decide +kernel
  simp only [checkCmd, e, show specFwActivate.who (exImages b1 b2) pe.route [2, 0, 0, 0] = true from rfl,
    show originWait (exImages b1 b2) pe.route = 0 from rfl,
    show firstBad ((3, decide (pe.flags.toNat < 2)) :: specFwActivate.args (exImages b1 b2) [2, 0, 0, 0]) = none from rfl,
    show firstHandle (exImages b1 b2) ((pe.lease, [10], true) :: specFwActivate.handles [2, 0, 0, 0]) = none from rfl,
    show lockedBy (exImages b1 b2) pe.route (specFwActivate.names (exImages b1 b2) [2, 0, 0, 0]) = none from rfl,
    show stateServes (exImages b1 b2) specFwActivate pe.route [2, 0, 0, 0] = true from rfl,
    show specFwActivate.held (exImages b1 b2) pe.route [2, 0, 0, 0] = none from rfl,
    show specFwActivate.cap (exImages b1 b2) pe.route [2, 0, 0, 0] = true from rfl]
  rfl

theorem test_hyps_StepRunsTheFrontCommand :
    ∃ (c : Instr) (rest : List Instr) (s : State), s.pending = c :: rest :=
  ⟨.heartbeatKick, [], { svc with pending := [.heartbeatKick] }, by decide +kernel⟩

theorem test_hyps_EmptyQueueTicks :
    (∃ (s : State), s.pending = [])
    ∧ (∃ (s : State), s.pending = [] ∧ s.pins.vaon = false)
    ∧ (∃ (s : State), s.pending = [] ∧ s.pins.vaon = true) :=
  ⟨⟨svc, by decide +kernel⟩,
   ⟨{ svc with pins := { svc.pins with vaon := false } }, by decide +kernel⟩,
   ⟨svc, by decide +kernel⟩⟩

theorem test_hyps_QuietStatesSettle :
    ∃ (s : State), Quiet s :=
  ⟨svc, isQuiet (by decide +kernel)⟩

theorem test_hyps_NoGraveCauseOutlivesAStep :
    ∃ (s : State) (t : State), step s = .next t ∧ s.dev.graveReq = none :=
  ⟨svc, tick svc, rfl, by decide +kernel⟩

theorem test_hyps_GraveStopsTheDevice :
    (∃ (s : State), s.dev.st ≠ .off ∧ s.dev.st ≠ .grave)
    ∧ (∃ (s : State) (d : _), s.dev.st ≠ .off ∧ s.dev.st ≠ .grave ∧ d < 148)
    ∧ (∃ (s : State), s.dev.st ≠ .off ∧ s.dev.st ≠ .grave ∧ s.grave.valid = false)
    ∧ (∃ (s : State), s.dev.st ≠ .off ∧ s.dev.st ≠ .grave ∧ s.grave.valid = true)
    ∧ (∃ (s : State), Quiet s ∧ settRuns s = true) :=
  ⟨⟨svc, by decide +kernel⟩,
   ⟨svc, 147, by decide +kernel⟩,
   ⟨svc, by decide +kernel⟩,
   ⟨{ svc with grave := { svc.grave with valid := true } }, by decide +kernel⟩,
   ⟨svc, isQuiet (by decide +kernel), by decide +kernel⟩⟩

theorem test_hyps_ChecksDecideInOrder :
    (∃ (c : CmdSpec) (q : Req) (p : Bytes) (s : State), c.who s q.route p = false)
    ∧ (∃ (c : CmdSpec) (q : Req) (p : Bytes) (s : State), c.who s q.route p = true ∧ originWait s q.route ≠ 0)
    ∧ (∃ (c : CmdSpec) (q : Req) (p : Bytes) (s : State) (off : _), c.who s q.route p = true ∧ originWait s q.route = 0 ∧ (2 ≤ q.flags.toNat ∧ off = 3 ∨ q.flags.toNat < 2 ∧ firstBad (c.args s p) = some off))
    ∧ (∃ (c : CmdSpec) (q : Req) (p : Bytes) (s : State) (st : _), c.who s q.route p = true ∧ originWait s q.route = 0 ∧ q.flags.toNat < 2 ∧ firstBad (c.args s p) = none ∧ firstHandle s ((q.lease, [10], true) :: c.handles p) = some st)
    ∧ (∃ (c : CmdSpec) (q : Req) (p : Bytes) (s : State) (h : _), c.who s q.route p = true ∧ originWait s q.route = 0 ∧ q.flags.toNat < 2 ∧ firstBad (c.args s p) = none ∧ firstHandle s ((q.lease, [10], true) :: c.handles p) = none ∧ lockedBy s q.route (c.names s p) = some h)
    ∧ (∃ (c : CmdSpec) (q : Req) (p : Bytes) (s : State), c.who s q.route p = true ∧ originWait s q.route = 0 ∧ q.flags.toNat < 2 ∧ firstBad (c.args s p) = none ∧ firstHandle s ((q.lease, [10], true) :: c.handles p) = none ∧ lockedBy s q.route (c.names s p) = none ∧ q.lease ≠ 0 ∧ leaseMine s (tget s.ten.leases (hIdx q.lease)) q.route = false)
    ∧ (∃ (c : CmdSpec) (q : Req) (p : Bytes) (s : State), c.who s q.route p = true ∧ originWait s q.route = 0 ∧ q.flags.toNat < 2 ∧ firstBad (c.args s p) = none ∧ firstHandle s ((q.lease, [10], true) :: c.handles p) = none ∧ lockedBy s q.route (c.names s p) = none ∧ (q.lease = 0 ∨ leaseMine s (tget s.ten.leases (hIdx q.lease)) q.route = true) ∧ c.state s q.route p = false)
    ∧ (∃ (c : CmdSpec) (q : Req) (p : Bytes) (s : State), c.who s q.route p = true ∧ originWait s q.route = 0 ∧ q.flags.toNat < 2 ∧ firstBad (c.args s p) = none ∧ firstHandle s ((q.lease, [10], true) :: c.handles p) = none ∧ lockedBy s q.route (c.names s p) = none ∧ (q.lease = 0 ∨ leaseMine s (tget s.ten.leases (hIdx q.lease)) q.route = true) ∧ stateServes s c q.route p = false)
    ∧ (∃ (c : CmdSpec) (q : Req) (p : Bytes) (s : State) (h : _), c.who s q.route p = true ∧ originWait s q.route = 0 ∧ q.flags.toNat < 2 ∧ firstBad (c.args s p) = none ∧ firstHandle s ((q.lease, [10], true) :: c.handles p) = none ∧ lockedBy s q.route (c.names s p) = none ∧ (q.lease = 0 ∨ leaseMine s (tget s.ten.leases (hIdx q.lease)) q.route = true) ∧ stateServes s c q.route p = true ∧ c.state s q.route p = true ∧ c.held s q.route p = some h)
    ∧ (∃ (c : CmdSpec) (q : Req) (p : Bytes) (s : State), c.who s q.route p = true ∧ originWait s q.route = 0 ∧ q.flags.toNat < 2 ∧ firstBad (c.args s p) = none ∧ firstHandle s ((q.lease, [10], true) :: c.handles p) = none ∧ lockedBy s q.route (c.names s p) = none ∧ (q.lease = 0 ∨ leaseMine s (tget s.ten.leases (hIdx q.lease)) q.route = true) ∧ stateServes s c q.route p = true ∧ c.state s q.route p = true ∧ c.held s q.route p = none ∧ c.cap s q.route p = false)
    ∧ (∃ (c : CmdSpec) (q : Req) (p : Bytes) (s : State), c.who s q.route p = true ∧ originWait s q.route = 0 ∧ q.flags.toNat < 2 ∧ firstBad (c.args s p) = none ∧ firstHandle s ((q.lease, [10], true) :: c.handles p) = none ∧ lockedBy s q.route (c.names s p) = none ∧ (q.lease = 0 ∨ leaseMine s (tget s.ten.leases (hIdx q.lease)) q.route = true) ∧ stateServes s c q.route p = true ∧ c.state s q.route p = true ∧ c.held s q.route p = none ∧ c.cap s q.route p = true) :=
  ⟨⟨specReset, ten, zeros 4, svc, by decide +kernel⟩,
   ⟨specDeviceStatus, { route := .i3c 1 1 }, [], { svc with i3c := { svc.i3c with times := List.replicate 50 10000000000 } }, by decide +kernel⟩,
   ⟨specDeviceStatus, { route := .pe 0, flags := 2 }, [], svc, 3, by decide +kernel⟩,
   ⟨specSliceRead, pe, zeros 4, svc, .badHandle, by decide +kernel⟩,
   ⟨specSliceDestroy, pe, leBytes 4 0x20000000, leased (.firmware 1) id, (lockedBy (leased (.firmware 1) id) pe.route (specSliceDestroy.names (leased (.firmware 1) id) (leBytes 4 0x20000000))).getD default, by decide +kernel⟩,
   ⟨specDeviceStatus, under, [], leased (.tenant 0x10000000) id, by decide +kernel⟩,
   ⟨specReset, pe, zeros 4, inSt .hibernate svc, by decide +kernel⟩,
   ⟨specReset, pe, zeros 4, inSt .boot svc, by decide +kernel⟩,
   ⟨specGpio, pe, zeros 4 ++ [3, 2, 1, 0], sess (.gpio 3) svc, (specGpio.held (sess (.gpio 3) svc) pe.route (zeros 4 ++ [3, 2, 1, 0])).getD default, by decide +kernel⟩,
   ⟨specPortConfigure, pe, [10, 1, 8, 1, 0, 0, 0, 0] ++ zeros 36 ++ List.replicate 16 0xFF ++ zeros 4, svc, by decide +kernel⟩,
   ⟨specDeviceStatus, pe, [], svc, by decide +kernel⟩⟩

theorem test_hyps_RefusedCommandsHaveNoEffect :
    ∃ (c : CmdSpec) (q : Req) (p : Bytes) (s : State) (st : Status) (d : Nat) (h : Handle), commandsRun s = true ∧ (c.op = 0x0103 → pfailHeld s = false) ∧ checkCmd c q p s = some (st, d, h) :=
  ⟨specReset, ten, zeros 4, svc, .denied, 0, 0, by decide +kernel⟩

theorem test_hyps_EncodingsRoundTrip :
    (∃ (m : InitMsg), m.credits.length = 8 ∧ (∀ c ∈ m.credits, c < 65536))
    ∧ (∃ (m : TimeMsg), m.steps < 256 ∧ m.gmPrio < 256 ∧ m.exchange < 65536 ∧ m.gmSerial < 2 ^ 64 ∧ m.senderSerial < 2 ^ 64 ∧ m.sendTime < 2 ^ 64 ∧ m.t1 < 2 ^ 64 ∧ m.t2 < 2 ^ 64 ∧ m.epoch < 2 ^ 64 ∧ m.epochStart < 2 ^ 48 ∧ m.period < 2 ^ 32 ∧ m.pendingPeriod < 2 ^ 32 ∧ m.base < 2 ^ 48 ∧ m.changeTime < 2 ^ 48 ∧ m.durable < 2 ^ 64 ∧ m.subtree < 2 ^ 64 ∧ m.floor < 2 ^ 64)
    ∧ (∃ (ty : Nat) (idx : Nat) (gen : Nat), ty < 16 ∧ idx < 2 ^ 20 ∧ gen < 256)
    ∧ (∃ (e : DirEntry), e.la < 2 ^ 46 ∧ e.st < 16 ∧ e.nptr < 8 ∧ e.fidx < 4 ∧ e.trk < 2 ^ 12) :=
  ⟨⟨{ subtype := 1, credits := List.replicate 8 65535 }, by decide +kernel⟩,
   ⟨{ subtype := 1, steps := 255, gmPrio := 255, exchange := 65535, gmSerial := 2 ^ 64 - 1, senderSerial := 2 ^ 64 - 1, sendTime := 2 ^ 64 - 1, t1 := 2 ^ 64 - 1, t2 := 2 ^ 64 - 1, epoch := 2 ^ 64 - 1, epochStart := 2 ^ 48 - 1, period := 2 ^ 32 - 1, pendingPeriod := 2 ^ 32 - 1, base := 2 ^ 48 - 1, changeTime := 2 ^ 48 - 1, durable := 2 ^ 64 - 1, subtree := 2 ^ 64 - 1, floor := 2 ^ 64 - 1 }, by decide +kernel⟩,
   ⟨15, 2 ^ 20 - 1, 255, by decide +kernel⟩,
   ⟨{ la := 2 ^ 46 - 1, st := 15, nptr := 7, fidx := 3, trk := 4095 }, by decide +kernel⟩⟩

theorem test_hyps_BuffersReadWhatWasWritten :
    ∃ (a : Nat) (p : Bytes) (b : _), (b < a ∨ a + p.length ≤ b) :=
  ⟨4096, [1, 2], 4098, by decide +kernel⟩

theorem test_hyps_DeviceLogAndCounterCommands :
    (∃ (q : Req) (p : Bytes) (s : State), Admitted specIdentify q p s)
    ∧ (∃ (q : Req) (p : Bytes) (s : State), Admitted specDeviceStatus q p s)
    ∧ (∃ (q : Req) (p : Bytes) (s : State) (u : State), u = counted q s ∧ Admitted specTransition q p s ∧ fieldAt p 0 1 = 0 ∧ u.dev.drainDone = true)
    ∧ (∃ (q : Req) (p : Bytes) (s : State) (u : State), u = counted q s ∧ Admitted specTransition q p s ∧ fieldAt p 0 1 = 0 ∧ u.dev.drainDone = false)
    ∧ (∃ (q : Req) (p : Bytes) (s : State), Admitted specTransition q p s ∧ fieldAt p 0 1 = 2)
    ∧ (∃ (q : Req) (p : Bytes) (s : State), Admitted specTransition q p s ∧ fieldAt p 0 1 = 4)
    ∧ (∃ (q : Req) (p : Bytes) (s : State) (u : State), u = counted q s ∧ Admitted specTransition q p s ∧ fieldAt p 0 1 = 5 ∧ u.sec.updating = false)
    ∧ (∃ (q : Req) (p : Bytes) (s : State) (u : State), u = counted q s ∧ Admitted specReset q p s ∧ u.dev.drainStep = 0)
    ∧ (∃ (s : State), s.dev.st = .hibernate)
    ∧ (∃ (q : Req) (p : Bytes) (s : State), Admitted specGpio q p s ∧ handleAt p 0 ≠ 0 ∧ fieldAt p 5 1 = 2)
    ∧ (∃ (q : Req) (p : Bytes) (s : State) (start : _), Admitted specLogRead q p s ∧ fieldAt p 8 8 = start ∧ start ≠ 2 ^ 64 - 1)
    ∧ (∃ (q : Req) (p : Bytes) (s : State), Admitted specLogStatus q p s ∧ fieldAt p 0 2 = 0xFFFF)
    ∧ (∃ (q : Req) (p : Bytes) (s : State) (u : State) (b : _), u = counted q s ∧ Admitted specLogStatus q p s ∧ fieldAt p 0 2 = b ∧ b ≠ 0xFFFF ∧ bitOf (fieldAt p 2 1) 0 = true ∧ ((tget u.errs b).valid = false ∨ (tget u.errs b).stamp ≠ ftCount u))
    ∧ (∃ (q : Req) (p : Bytes) (s : State), Admitted specSubscribe q p s ∧ fieldAt p 0 1 = 1)
    ∧ (∃ (q : Req) (p : Bytes) (s : State), Admitted specSubscribe q p s ∧ fieldAt p 0 1 = 0 ∧ fieldAt p 1 1 = 1)
    ∧ (∃ (q : Req) (p : Bytes) (s : State), Admitted specSubscribe q p s ∧ fieldAt p 0 1 = 0 ∧ fieldAt p 1 1 = 2)
    ∧ (∃ (q : Req) (p : Bytes) (s : State) (u : State) (h : _) (v : _), u = counted q s ∧ Admitted specGroupCreate q p s ∧ openSession q.route .group 0 u = (some h, v) ∧ fieldAt p 0 1 ≠ 2)
    ∧ (∃ (q : Req) (p : Bytes) (s : State), Admitted specGroupDestroy q p s)
    ∧ (∃ (q : Req) (p : Bytes) (s : State), Admitted specCounterRead q p s ∧ fieldAt p 4 1 = 2 ∧ fieldAt p 6 1 = 1) :=
  ⟨⟨pe, [], svc, admits (by decide +kernel)⟩,
   ⟨pe, [], svc, admits (by decide +kernel)⟩,
   ⟨pe, zeros 4, { svc with dev := { st := .drain, drainDone := true } }, counted pe ({ svc with dev := { st := .drain, drainDone := true } }), rfl, admits (by decide +kernel), by decide +kernel⟩,
   ⟨pe, zeros 4, inSt .drain svc, counted pe (inSt .drain svc), rfl, admits (by decide +kernel), by decide +kernel⟩,
   ⟨pe, [2, 0, 0, 0], svc, admits (by decide +kernel), by decide +kernel⟩,
   ⟨pe, [4, 0, 0, 0], inSt .recovery svc, admits (by decide +kernel), by decide +kernel⟩,
   ⟨pe, [5, 0, 0, 0], svc, counted pe svc, rfl, admits (by decide +kernel), by decide +kernel⟩,
   ⟨pe, zeros 4, svc, counted pe svc, rfl, admits (by decide +kernel), by decide +kernel⟩,
   ⟨inSt .hibernate svc, by decide +kernel⟩,
   ⟨pe, leBytes 4 0x60000000 ++ [3, 2, 1, 0], sess (.gpio 3) svc, admits (by decide +kernel), by decide +kernel⟩,
   ⟨pe, zeros 16, svc, 0, admits (by decide +kernel), by decide +kernel⟩,
   ⟨pe, [0xFF, 0xFF, 0, 0], svc, admits (by decide +kernel), by decide +kernel⟩,
   ⟨pe, [160, 0, 1, 0], svc, counted pe svc, 160, rfl, admits (by decide +kernel), by decide +kernel⟩,
   ⟨pe, [1, 4, 0, 0, 7, 0, 0, 0], svc, admits (by decide +kernel), by decide +kernel⟩,
   ⟨pe, [0, 1, 3, 0, 0, 0, 0, 0], svc, admits (by decide +kernel), by decide +kernel⟩,
   ⟨{ route := .i3c 0x20 1 }, [0, 2, 3, 0, 0, 0, 0, 0], svc, admits (by decide +kernel), by decide +kernel⟩,
   ⟨pe, [0, 5, 1, 0, 0, 0, 0, 0] ++ zeros 24, svc, counted pe svc, (openSession pe.route .group 0 (counted pe svc)).1.getD 0, (openSession pe.route .group 0 (counted pe svc)).2, rfl, admits (by decide +kernel), fstIs (by decide +kernel), by decide +kernel⟩,
   ⟨pe, leBytes 4 0x60000000, sess .group svc, admits (by decide +kernel)⟩,
   ⟨pe, [0, 0, 0, 0, 2, 160, 1, 0], svc, admits (by decide +kernel), by decide +kernel⟩⟩

theorem test_hyps_PortAndLaneCommands :
    (∃ (q : Req) (p : Bytes) (s : State) (u : State) (n : Nat) (c : _) (v : _) (w : _), u = counted q s ∧ n = fieldAt p 0 1 ∧ Admitted specPortConfigure q p s ∧ c = cfgFrom p ∧ v = storeCfg n c (setOddHalf n (cfgOf u n) c u) ∧ (w = (if c.mode = 1 ∧ n % 2 = 0 then modPort (n / 2) (fun x => { x with clkreqOut := false }) v else v)) ∧ (c.failback = false ∨ (cfgOf u n).failback = true ∨ linkLive w n = false))
    ∧ (∃ (q : Req) (p : Bytes) (s : State) (u : State) (n : Nat) (c : _) (v : _) (w : _), u = counted q s ∧ n = fieldAt p 0 1 ∧ Admitted specPortConfigure q p s ∧ c = cfgFrom p ∧ v = storeCfg n c (setOddHalf n (cfgOf u n) c u) ∧ (w = (if c.mode = 1 ∧ n % 2 = 0 then modPort (n / 2) (fun x => { x with clkreqOut := false }) v else v)) ∧ c.failback = true ∧ (cfgOf u n).failback = false ∧ linkLive w n = true)
    ∧ (∃ (q : Req) (p : Bytes) (s : State) (u : State) (n : Nat), u = counted q s ∧ n = fieldAt p 0 1 ∧ Admitted specPortEnable q p s ∧ linkStopped u n = true)
    ∧ (∃ (q : Req) (p : Bytes) (s : State) (u : State) (n : Nat), u = counted q s ∧ n = fieldAt p 0 1 ∧ Admitted specPortEnable q p s ∧ linkStopped u n = false)
    ∧ (∃ (q : Req) (p : Bytes) (s : State) (u : State) (n : Nat) (t : _), u = counted q s ∧ n = fieldAt p 0 1 ∧ Admitted specPortDisable q p s ∧ t = discardMasked (portPins (n / 2) (disableLp n u)) ∧ (lpDisabled t (n - n % 2) && lpDisabled t (n - n % 2 + 1)) = false)
    ∧ (∃ (q : Req) (p : Bytes) (s : State) (u : State) (n : Nat) (t : _), u = counted q s ∧ n = fieldAt p 0 1 ∧ Admitted specPortDisable q p s ∧ t = discardMasked (portPins (n / 2) (disableLp n u)) ∧ (lpDisabled t (n - n % 2) && lpDisabled t (n - n % 2 + 1)) = true)
    ∧ (∃ (q : Req) (p : Bytes) (s : State), Admitted specPortStatus q p s)
    ∧ (∃ (q : Req) (p : Bytes) (s : State) (u : State) (n : Nat), u = counted q s ∧ n = fieldAt p 0 1 ∧ Admitted specPortRetrain q p s ∧ ((initOf u n).retrain ≠ 0 ∨ (initOf u n).held = true))
    ∧ (∃ (q : Req) (p : Bytes) (s : State) (u : State) (n : Nat), u = counted q s ∧ n = fieldAt p 0 1 ∧ Admitted specPortRetrain q p s ∧ (initOf u n).retrain = 0 ∧ (initOf u n).held = false ∧ (lpOf u n).link = .quarantined)
    ∧ (∃ (q : Req) (p : Bytes) (s : State) (u : State) (n : Nat), u = counted q s ∧ n = fieldAt p 0 1 ∧ Admitted specPortRetrain q p s ∧ (initOf u n).retrain = 0 ∧ (initOf u n).held = false ∧ (lpOf u n).link = .up ∧ isDen u n = false)
    ∧ (∃ (q : Req) (p : Bytes) (s : State) (u : State) (n : Nat), u = counted q s ∧ n = fieldAt p 0 1 ∧ Admitted specPortRetrain q p s ∧ (initOf u n).retrain = 0 ∧ (initOf u n).held = false ∧ (lpOf u n).link = .up ∧ isDen u n = true)
    ∧ (∃ (q : Req) (p : Bytes) (s : State) (u : State) (n : Nat), u = counted q s ∧ n = fieldAt p 0 1 ∧ Admitted specPortPower q p s ∧ fieldAt p 1 1 ≠ 2 ∧ (lpOf u n).dl = .dl0)
    ∧ (∃ (q : Req) (p : Bytes) (s : State) (u : State) (n : Nat), u = counted q s ∧ n = fieldAt p 0 1 ∧ Admitted specPortPower q p s ∧ fieldAt p 1 1 = 2 ∧ (lpOf u n).dl = .dl0)
    ∧ (∃ (q : Req) (p : Bytes) (s : State), Admitted specFreeze q p s)
    ∧ (∃ (q : Req) (p : Bytes) (s : State) (u : State) (d : _) (w : _), u = counted q s ∧ Admitted specRouteSet q p s ∧ d = fieldAt p 0 2 ∧ (tget u.sw.holds d).why = some w ∧ w ≠ .route)
    ∧ (∃ (q : Req) (p : Bytes) (s : State) (u : State) (d : _), u = counted q s ∧ Admitted specRouteSet q p s ∧ d = fieldAt p 0 2 ∧ ((tget u.sw.holds d).why = none ∨ (tget u.sw.holds d).why = some .route) ∧ bitOf (fieldAt p 2 1) 0 = false)
    ∧ (∃ (q : Req) (p : Bytes) (s : State) (u : State) (d : _), u = counted q s ∧ Admitted specRouteSet q p s ∧ d = fieldAt p 0 2 ∧ ((tget u.sw.holds d).why = none ∨ (tget u.sw.holds d).why = some .route) ∧ bitOf (fieldAt p 2 1) 0 = true ∧ rKind (routeEntry u d) = 1 ∧ routeEntry u d ≠ fieldAt p 4 4)
    ∧ (∃ (q : Req) (p : Bytes) (s : State) (u : State) (i : _), u = counted q s ∧ Admitted specMcastCreate q p s ∧ lowestFree u 9 = some i)
    ∧ (∃ (q : Req) (p : Bytes) (s : State), Admitted specMcastUpdate q p s)
    ∧ (∃ (q : Req) (p : Bytes) (s : State), Admitted specMcastDestroy q p s)
    ∧ (∃ (q : Req) (p : Bytes) (s : State) (u : State) (n : Nat) (h : _) (v : _), u = counted q s ∧ n = fieldAt p 0 1 ∧ Admitted specPrbs q p s ∧ openSession q.route (.prbs n (fieldAt p 1 1) (fieldAt p 2 1) (bitOf (fieldAt p 3 1) 0) (bitOf (fieldAt p 3 1) 1)) (now u) u = (some h, v))
    ∧ (∃ (q : Req) (p : Bytes) (s : State) (u : State) (m : _) (k : _) (pat : _) (g : _) (chk : _), u = counted q s ∧ Admitted specPrbsStop q p s ∧ (tget u.ten.sessions (hIdx (handleAt p 0))).res = .prbs m k pat g chk)
    ∧ (∃ (q : Req) (p : Bytes) (s : State) (u : State) (h : _) (v : _), u = counted q s ∧ Admitted specEyescan q p s ∧ openSession q.route (.eyescan (fieldAt p 0 2 / 128)) (now u + (scanTime 400000000 u).1) (scanTime 400000000 u).2 = (some h, v))
    ∧ (∃ (q : Req) (p : Bytes) (s : State) (u : State) (n : Nat) (h : _) (v : _), u = counted q s ∧ n = fieldAt p 0 1 ∧ Admitted specSurvey q p s ∧ openSession q.route (.eyescan (dieOf n)) (now u + (scanTime 12000000000 u).1) (scanTime 12000000000 u).2 = (some h, v) ∧ nearPoint (lidOf u n) = none)
    ∧ (∃ (q : Req) (p : Bytes) (s : State), Admitted specSurveyRead q p s) :=
  ⟨⟨pe, cfgb 30 2 8 1 0, svc, counted pe svc, fieldAt (cfgb 30 2 8 1 0) 0 1, cfgFrom (cfgb 30 2 8 1 0), storeCfg (fieldAt (cfgb 30 2 8 1 0) 0 1) (cfgFrom (cfgb 30 2 8 1 0)) (setOddHalf (fieldAt (cfgb 30 2 8 1 0) 0 1) (cfgOf (counted pe svc) (fieldAt (cfgb 30 2 8 1 0) 0 1)) (cfgFrom (cfgb 30 2 8 1 0)) (counted pe svc)), (if (cfgFrom (cfgb 30 2 8 1 0)).mode = 1 ∧ (fieldAt (cfgb 30 2 8 1 0) 0 1) % 2 = 0 then modPort ((fieldAt (cfgb 30 2 8 1 0) 0 1) / 2) (fun x => { x with clkreqOut := false }) (storeCfg (fieldAt (cfgb 30 2 8 1 0) 0 1) (cfgFrom (cfgb 30 2 8 1 0)) (setOddHalf (fieldAt (cfgb 30 2 8 1 0) 0 1) (cfgOf (counted pe svc) (fieldAt (cfgb 30 2 8 1 0) 0 1)) (cfgFrom (cfgb 30 2 8 1 0)) (counted pe svc))) else (storeCfg (fieldAt (cfgb 30 2 8 1 0) 0 1) (cfgFrom (cfgb 30 2 8 1 0)) (setOddHalf (fieldAt (cfgb 30 2 8 1 0) 0 1) (cfgOf (counted pe svc) (fieldAt (cfgb 30 2 8 1 0) 0 1)) (cfgFrom (cfgb 30 2 8 1 0)) (counted pe svc)))), rfl, rfl, admits (by decide +kernel), rfl, rfl, rfl, by decide +kernel⟩,
   ⟨pe, cfgb 11 1 4 1 1, split, counted pe split, fieldAt (cfgb 11 1 4 1 1) 0 1, cfgFrom (cfgb 11 1 4 1 1), storeCfg (fieldAt (cfgb 11 1 4 1 1) 0 1) (cfgFrom (cfgb 11 1 4 1 1)) (setOddHalf (fieldAt (cfgb 11 1 4 1 1) 0 1) (cfgOf (counted pe split) (fieldAt (cfgb 11 1 4 1 1) 0 1)) (cfgFrom (cfgb 11 1 4 1 1)) (counted pe split)), (if (cfgFrom (cfgb 11 1 4 1 1)).mode = 1 ∧ (fieldAt (cfgb 11 1 4 1 1) 0 1) % 2 = 0 then modPort ((fieldAt (cfgb 11 1 4 1 1) 0 1) / 2) (fun x => { x with clkreqOut := false }) (storeCfg (fieldAt (cfgb 11 1 4 1 1) 0 1) (cfgFrom (cfgb 11 1 4 1 1)) (setOddHalf (fieldAt (cfgb 11 1 4 1 1) 0 1) (cfgOf (counted pe split) (fieldAt (cfgb 11 1 4 1 1) 0 1)) (cfgFrom (cfgb 11 1 4 1 1)) (counted pe split))) else (storeCfg (fieldAt (cfgb 11 1 4 1 1) 0 1) (cfgFrom (cfgb 11 1 4 1 1)) (setOddHalf (fieldAt (cfgb 11 1 4 1 1) 0 1) (cfgOf (counted pe split) (fieldAt (cfgb 11 1 4 1 1) 0 1)) (cfgFrom (cfgb 11 1 4 1 1)) (counted pe split)))), rfl, rfl, admits (by decide +kernel), rfl, rfl, rfl, by decide +kernel⟩,
   ⟨pe, [0, 0, 0, 0], modLp 0 (fun _ => { cfg := { ignorePresent := true } }) (withTable svc), counted pe (modLp 0 (fun _ => { cfg := { ignorePresent := true } }) (withTable svc)), fieldAt ([0, 0, 0, 0]) 0 1, rfl, rfl, admits (by decide +kernel), by decide +kernel⟩,
   ⟨pe, [0, 0, 0, 0], modLp 0 (fun _ => { cfg := { ignorePresent := true }, link := .up }) (withTable svc), counted pe (modLp 0 (fun _ => { cfg := { ignorePresent := true }, link := .up }) (withTable svc)), fieldAt ([0, 0, 0, 0]) 0 1, rfl, rfl, admits (by decide +kernel), by decide +kernel⟩,
   ⟨pe, [10, 0, 0, 0], split, counted pe split, fieldAt ([10, 0, 0, 0]) 0 1, discardMasked (portPins ((fieldAt ([10, 0, 0, 0]) 0 1) / 2) (disableLp (fieldAt ([10, 0, 0, 0]) 0 1) (counted pe split))), rfl, rfl, admits (by decide +kernel), rfl, by decide +kernel⟩,
   ⟨pe, [10, 0, 0, 0], svc, counted pe svc, fieldAt ([10, 0, 0, 0]) 0 1, discardMasked (portPins ((fieldAt ([10, 0, 0, 0]) 0 1) / 2) (disableLp (fieldAt ([10, 0, 0, 0]) 0 1) (counted pe svc))), rfl, rfl, admits (by decide +kernel), rfl, by decide +kernel⟩,
   ⟨pe, [10, 0, 0, 0], svc, admits (by decide +kernel)⟩,
   ⟨pe, [10, 0, 0, 0], modInit 10 (fun x => { x with retrain := 1 }) svc, counted pe (modInit 10 (fun x => { x with retrain := 1 }) svc), fieldAt ([10, 0, 0, 0]) 0 1, rfl, rfl, admits (by decide +kernel), by decide +kernel⟩,
   ⟨pe, [10, 0, 0, 0], modLp 10 (fun l => { l with link := .quarantined }) svc, counted pe (modLp 10 (fun l => { l with link := .quarantined }) svc), fieldAt ([10, 0, 0, 0]) 0 1, rfl, rfl, admits (by decide +kernel), by decide +kernel⟩,
   ⟨pe, [30, 0, 0, 0], svc, counted pe svc, fieldAt ([30, 0, 0, 0]) 0 1, rfl, rfl, admits (by decide +kernel), by decide +kernel⟩,
   ⟨pe, [10, 0, 0, 0], svc, counted pe svc, fieldAt ([10, 0, 0, 0]) 0 1, rfl, rfl, admits (by decide +kernel), by decide +kernel⟩,
   ⟨pe, [10, 1, 0, 0] ++ zeros 4, svc, counted pe svc, fieldAt ([10, 1, 0, 0] ++ zeros 4) 0 1, rfl, rfl, admits (by decide +kernel), by decide +kernel⟩,
   ⟨pe, [10, 2, 0, 0] ++ zeros 4, svc, counted pe svc, fieldAt ([10, 2, 0, 0] ++ zeros 4) 0 1, rfl, rfl, admits (by decide +kernel), by decide +kernel⟩,
   ⟨pe, [10, 1, 0, 0], svc, admits (by decide +kernel)⟩,
   ⟨pe, [0x10, 0, 0, 0] ++ zeros 4, modSw (fun w => { w with holds := [(0x10, { why := some .failover })] }) svc, counted pe (modSw (fun w => { w with holds := [(0x10, { why := some .failover })] }) svc), fieldAt ([0x10, 0, 0, 0] ++ zeros 4) 0 2, .failover, rfl, admits (by decide +kernel), rfl, by decide +kernel⟩,
   ⟨pe, [0x10, 0, 0, 0] ++ zeros 4, svc, counted pe svc, fieldAt ([0x10, 0, 0, 0] ++ zeros 4) 0 2, rfl, admits (by decide +kernel), rfl, by decide +kernel⟩,
   ⟨pe, [0x10, 0, 1, 0, 129, 0, 0, 0], svc, counted pe svc, fieldAt ([0x10, 0, 1, 0, 129, 0, 0, 0]) 0 2, rfl, admits (by decide +kernel), rfl, by decide +kernel⟩,
   ⟨pe, [0, 0, 0, 0, 1, 0, 0, 0, 10, 0, 0x20, 0], svc, counted pe svc, (lowestFree (counted pe svc) 9).getD default, rfl, admits (by decide +kernel), by decide +kernel⟩,
   ⟨pe, leBytes 4 0x90000000 ++ [1, 0, 0, 0, 10, 0, 0x20, 0], obj 9 svc, admits (by decide +kernel)⟩,
   ⟨pe, leBytes 4 0x90000000, obj 9 svc, admits (by decide +kernel)⟩,
   ⟨pe, [40, 1, 1, 1], svc, counted pe svc, fieldAt ([40, 1, 1, 1]) 0 1, (openSession pe.route (.prbs (fieldAt ([40, 1, 1, 1]) 0 1) (fieldAt ([40, 1, 1, 1]) 1 1) (fieldAt ([40, 1, 1, 1]) 2 1) (bitOf (fieldAt ([40, 1, 1, 1]) 3 1) 0) (bitOf (fieldAt ([40, 1, 1, 1]) 3 1) 1)) (now (counted pe svc)) (counted pe svc)).1.getD 0, (openSession pe.route (.prbs (fieldAt ([40, 1, 1, 1]) 0 1) (fieldAt ([40, 1, 1, 1]) 1 1) (fieldAt ([40, 1, 1, 1]) 2 1) (bitOf (fieldAt ([40, 1, 1, 1]) 3 1) 0) (bitOf (fieldAt ([40, 1, 1, 1]) 3 1) 1)) (now (counted pe svc)) (counted pe svc)).2, rfl, rfl, admits (by decide +kernel), fstIs (by decide +kernel)⟩,
   ⟨pe, leBytes 4 0x60000000, sess (.prbs 40 1 1 true true) svc, counted pe (sess (.prbs 40 1 1 true true) svc), 40, 1, 1, true, true, rfl, admits (by decide +kernel), by decide +kernel⟩,
   ⟨pe, [160, 0, 0, 0], svc, counted pe svc, (openSession pe.route (.eyescan (fieldAt ([160, 0, 0, 0]) 0 2 / 128)) (now (counted pe svc) + (scanTime 400000000 (counted pe svc)).1) (scanTime 400000000 (counted pe svc)).2).1.getD 0, (openSession pe.route (.eyescan (fieldAt ([160, 0, 0, 0]) 0 2 / 128)) (now (counted pe svc) + (scanTime 400000000 (counted pe svc)).1) (scanTime 400000000 (counted pe svc)).2).2, rfl, admits (by decide +kernel), fstIs (by decide +kernel)⟩,
   ⟨pe, [40, 1, 0, 0], inSt .test svc, counted pe (inSt .test svc), fieldAt ([40, 1, 0, 0]) 0 1, (openSession pe.route (.eyescan (dieOf (fieldAt ([40, 1, 0, 0]) 0 1))) (now (counted pe (inSt .test svc)) + (scanTime 12000000000 (counted pe (inSt .test svc))).1) (scanTime 12000000000 (counted pe (inSt .test svc))).2).1.getD 0, (openSession pe.route (.eyescan (dieOf (fieldAt ([40, 1, 0, 0]) 0 1))) (now (counted pe (inSt .test svc)) + (scanTime 12000000000 (counted pe (inSt .test svc))).1) (scanTime 12000000000 (counted pe (inSt .test svc))).2).2, rfl, rfl, admits (by decide +kernel), fstIs (by decide +kernel), by decide +kernel⟩,
   ⟨pe, zeros 4, svc, admits (by decide +kernel)⟩⟩

theorem test_hyps_TrafficCommands :
    (∃ (q : Req) (p : Bytes) (s : State), Admitted specQueueMap q p s)
    ∧ (∃ (q : Req) (p : Bytes) (s : State), Admitted specBufferSet q p s)
    ∧ (∃ (q : Req) (p : Bytes) (s : State), Admitted specRedSet q p s)
    ∧ (∃ (q : Req) (p : Bytes) (s : State) (u : State) (i : _), u = counted q s ∧ Admitted specMeterCreate q p s ∧ lowestFree u 3 = some i)
    ∧ (∃ (q : Req) (p : Bytes) (s : State), Admitted specMeterSet q p s)
    ∧ (∃ (q : Req) (p : Bytes) (s : State), Admitted specMeterDestroy q p s)
    ∧ (∃ (q : Req) (p : Bytes) (s : State) (h : Handle), h = handleAt p 0 ∧ Admitted specMeterAttach q p s ∧ h ≠ 0)
    ∧ (∃ (q : Req) (p : Bytes) (s : State) (h : Handle), h = handleAt p 0 ∧ Admitted specMeterAttach q p s ∧ h = 0)
    ∧ (∃ (q : Req) (p : Bytes) (s : State) (u : State), u = counted q s ∧ Admitted specShaperSet q p s ∧ (u.dev.st = .service ∨ u.dev.st = .drain))
    ∧ (∃ (q : Req) (p : Bytes) (s : State) (u : State), u = counted q s ∧ Admitted specShaperSet q p s ∧ u.dev.st ≠ .service ∧ u.dev.st ≠ .drain)
    ∧ (∃ (q : Req) (p : Bytes) (s : State), Admitted specShaperClear q p s)
    ∧ (∃ (q : Req) (p : Bytes) (s : State), Admitted specTgWrite q p s ∧ fieldAt p 4 1 = 0)
    ∧ (∃ (q : Req) (p : Bytes) (s : State), Admitted specTgWrite q p s ∧ fieldAt p 4 1 = 1)
    ∧ (∃ (q : Req) (p : Bytes) (s : State) (u : State) (h : Handle) (v : _), u = counted q s ∧ h = handleAt p 0 ∧ Admitted specTgCommit q p s ∧ v = gateSwapAt (hIdx h) u ∧ (tgOf v (hIdx h)).committed = none)
    ∧ (∃ (q : Req) (p : Bytes) (s : State) (u : State) (h : Handle) (v : _) (t : _), u = counted q s ∧ h = handleAt p 0 ∧ Admitted specTgCommit q p s ∧ v = gateSwapAt (hIdx h) u ∧ (tgOf v (hIdx h)).committed = some t) :=
  ⟨⟨pe, [10, 0, 0, 0] ++ zeros 4 ++ List.replicate 4 0x77 ++ zeros 20, modPort 5 (fun x => { x with freeze := true }) svc, admits (by decide +kernel)⟩,
   ⟨pe, [10, 0, 0, 0] ++ leBytes 4 128, svc, admits (by decide +kernel)⟩,
   ⟨pe, [10, 6, 15, 0] ++ (List.replicate 3 (leBytes 4 131071 ++ leBytes 4 131072 ++ [32, 0, 0, 0])).flatten, svc, admits (by decide +kernel)⟩,
   ⟨pe, zeros 4 ++ leBytes 4 1000 ++ leBytes 4 1000 ++ leBytes 4 4128 ++ leBytes 4 4128 ++ zeros 4, svc, counted pe svc, (lowestFree (counted pe svc) 3).getD default, rfl, admits (by decide +kernel), by decide +kernel⟩,
   ⟨pe, leBytes 4 0x30000000 ++ leBytes 4 1000 ++ leBytes 4 896000000 ++ leBytes 4 4128 ++ leBytes 4 16777216 ++ zeros 4, obj 3 svc, admits (by decide +kernel)⟩,
   ⟨pe, leBytes 4 0x30000000, obj 3 svc, admits (by decide +kernel)⟩,
   ⟨pe, leBytes 4 0x30000000 ++ zeros 4 ++ leBytes 4 0x10000000, obj 3 owned, handleAt (leBytes 4 0x30000000 ++ zeros 4 ++ leBytes 4 0x10000000) 0, rfl, admits (by decide +kernel), by decide +kernel⟩,
   ⟨pe, zeros 4 ++ [1, 20, 0, 0] ++ zeros 4, svc, handleAt (zeros 4 ++ [1, 20, 0, 0] ++ zeros 4) 0, rfl, admits (by decide +kernel), by decide +kernel⟩,
   ⟨pe, leBytes 4 0x41005000 ++ leBytes 4 1000 ++ leBytes 4 4128 ++ [0, 3, 6, 0] ++ leBytes 4 50000, svc, counted pe svc, rfl, admits (by decide +kernel), by decide +kernel⟩,
   ⟨pe, leBytes 4 0x41005000 ++ leBytes 4 1000 ++ leBytes 4 4128 ++ [0, 3, 6, 0] ++ leBytes 4 50000, inSt .recovery svc, counted pe (inSt .recovery svc), rfl, admits (by decide +kernel), by decide +kernel⟩,
   ⟨pe, leBytes 4 0x41005000, svc, admits (by decide +kernel)⟩,
   ⟨pe, leBytes 4 0x50000A00 ++ zeros 12 ++ [1, 0] ++ zeros 6 ++ leBytes 4 0x800003E8 ++ zeros 1020, modTg 10 (fun g => { g with active := true }) svc, admits (by decide +kernel), by decide +kernel⟩,
   ⟨pe, leBytes 4 0x50000A00 ++ [1] ++ zeros 11 ++ [1, 0] ++ zeros 6 ++ leBytes 4 0x800F4240 ++ zeros 1020, svc, admits (by decide +kernel), by decide +kernel⟩,
   ⟨pe, leBytes 4 0x50000A00, modTg 10 (fun _ => { copy1 := { slots := [(1000, 255)] } }) svc, counted pe (modTg 10 (fun _ => { copy1 := { slots := [(1000, 255)] } }) svc), handleAt (leBytes 4 0x50000A00) 0, gateSwapAt (hIdx (handleAt (leBytes 4 0x50000A00) 0)) (counted pe (modTg 10 (fun _ => { copy1 := { slots := [(1000, 255)] } }) svc)), rfl, rfl, admits (by decide +kernel), rfl, by decide +kernel⟩,
   ⟨pe, leBytes 4 0x50000A00, modTg 10 (fun _ => { copy1 := { slots := [(1000, 255)] }, committed := some 11000000000 }) svc, counted pe (modTg 10 (fun _ => { copy1 := { slots := [(1000, 255)] }, committed := some 11000000000 }) svc), handleAt (leBytes 4 0x50000A00) 0, gateSwapAt (hIdx (handleAt (leBytes 4 0x50000A00) 0)) (counted pe (modTg 10 (fun _ => { copy1 := { slots := [(1000, 255)] }, committed := some 11000000000 }) svc)), ((tgOf (gateSwapAt (hIdx (handleAt (leBytes 4 0x50000A00) 0)) (counted pe (modTg 10 (fun _ => { copy1 := { slots := [(1000, 255)] }, committed := some 11000000000 }) svc))) (hIdx (handleAt (leBytes 4 0x50000A00) 0))).committed).getD default, rfl, rfl, admits (by decide +kernel), rfl, by decide +kernel⟩⟩

theorem test_hyps_TenantAndSliceCommands :
    (∃ (q : Req) (p : Bytes) (s : State) (u : State) (i : _), u = counted q s ∧ Admitted specTenantCreate q p s ∧ lowestFree u 8 = some i)
    ∧ (∃ (q : Req) (p : Bytes) (s : State) (u : State) (h : Handle), u = counted q s ∧ h = handleAt p 0 ∧ Admitted specTenantSet q p s ∧ (tenantOf u h).strict = true ∧ fieldAt p 5 1 = 0)
    ∧ (∃ (q : Req) (p : Bytes) (s : State) (u : State) (h : Handle), u = counted q s ∧ h = handleAt p 0 ∧ Admitted specTenantSet q p s ∧ ((tenantOf u h).strict = false ∨ fieldAt p 5 1 = 1))
    ∧ (∃ (q : Req) (p : Bytes) (s : State), Admitted specTenantDestroy q p s)
    ∧ (∃ (q : Req) (p : Bytes) (s : State), Admitted specTenantRead q p s)
    ∧ (∃ (q : Req) (p : Bytes) (s : State) (u : State) (i : _), u = counted q s ∧ Admitted specSliceCreate q p s ∧ lowestFree u 2 = some i)
    ∧ (∃ (q : Req) (p : Bytes) (s : State), Admitted specSliceSet q p s)
    ∧ (∃ (q : Req) (p : Bytes) (s : State), Admitted specSliceDestroy q p s)
    ∧ (∃ (q : Req) (p : Bytes) (s : State), Admitted specSliceRead q p s) :=
  ⟨⟨pe, tenPay 0 7 1, owned, counted pe owned, (lowestFree (counted pe owned) 8).getD default, rfl, admits (by decide +kernel), by decide +kernel⟩,
   ⟨pe, tenPay 0x80000000 0 0, modTen (fun t => { t with tenants := [(0, { live := true, strict := true })] }) owned, counted pe (modTen (fun t => { t with tenants := [(0, { live := true, strict := true })] }) owned), handleAt (tenPay 0x80000000 0 0) 0, rfl, rfl, admits (by decide +kernel), by decide +kernel⟩,
   ⟨pe, tenPay 0x80000000 7 1, owned, counted pe owned, handleAt (tenPay 0x80000000 7 1) 0, rfl, rfl, admits (by decide +kernel), by decide +kernel⟩,
   ⟨pe, leBytes 4 0x80000000, modTen (fun t => { t with ruleSets := [] }) unbound, admits (by decide +kernel)⟩,
   ⟨pe, leBytes 4 0x80000000, owned, admits (by decide +kernel)⟩,
   ⟨pe, zeros 8 ++ leBytes 8 0 ++ leBytes 8 4096 ++ [1, 1, 7, 0] ++ zeros 4, owned, counted pe owned, (lowestFree (counted pe owned) 2).getD default, rfl, admits (by decide +kernel), by decide +kernel⟩,
   ⟨pe, leBytes 4 0x20000000 ++ leBytes 4 0x80000000 ++ leBytes 8 0x40000000 ++ leBytes 8 0x40000000 ++ [0, 1, 0, 0] ++ zeros 4, owned, admits (by decide +kernel)⟩,
   ⟨pe, leBytes 4 0x20000000, unbound, admits (by decide +kernel)⟩,
   ⟨pe, leBytes 4 0x20000000, owned, admits (by decide +kernel)⟩⟩

theorem test_hyps_BindingCommands :
    (∃ (q : Req) (p : Bytes) (s : State) (u : State) (i : _), u = counted q s ∧ Admitted specBindCreate q p s ∧ u.ten.mediated = false ∧ lowestFree u 1 = some i)
    ∧ (∃ (q : Req) (p : Bytes) (s : State) (u : State) (r : _), u = counted q s ∧ Admitted specBindCreate q p s ∧ r = makeBinding 0x0310 { q := q } p u ∧ u.ten.mediated = true ∧ Route.cls q.route ≠ 2 ∧ r.1.status = .ok)
    ∧ (∃ (q : Req) (p : Bytes) (s : State) (u : State), u = counted q s ∧ Admitted specBindCreate q p s ∧ u.ten.mediated = true ∧ Route.cls q.route = 2)
    ∧ (∃ (q : Req) (p : Bytes) (s : State), Admitted specBindDestroy q p s ∧ bitOf (fieldAt p 4 1) 0 = true)
    ∧ (∃ (q : Req) (p : Bytes) (s : State), Admitted specBindDestroy q p s ∧ bitOf (fieldAt p 4 1) 0 = false)
    ∧ (∃ (q : Req) (p : Bytes) (s : State), Admitted specBindRead q p s)
    ∧ (∃ (q : Req) (p : Bytes) (s : State), Admitted specBindMode q p s)
    ∧ (∃ (q : Req) (p : Bytes) (s : State) (u : State), u = counted q s ∧ Admitted specBindApprove q p s ∧ medReqOf u (fieldAt p 0 8) = none)
    ∧ (∃ (q : Req) (p : Bytes) (s : State) (u : State) (m : _), u = counted q s ∧ Admitted specBindApprove q p s ∧ medReqOf u (fieldAt p 0 8) = some m ∧ firstHandle u [(handleAt m.payload 4, [8], false), (handleAt m.payload 8, [2], false)] = none ∧ (makeBinding 0x0310 { q := q } m.payload u).1.status = .ok)
    ∧ (∃ (q : Req) (p : Bytes) (s : State) (u : State), u = counted q s ∧ Admitted specBindRefuse q p s ∧ medReqOf u (fieldAt p 0 8) = none)
    ∧ (∃ (q : Req) (p : Bytes) (s : State) (u : State) (m : _), u = counted q s ∧ Admitted specBindRefuse q p s ∧ medReqOf u (fieldAt p 0 8) = some m)
    ∧ (∃ (q : Req) (p : Bytes) (s : State), Admitted specBindReinstate q p s) :=
  ⟨⟨pe, bindPay 0x2000000000, owned, counted pe owned, (lowestFree (counted pe owned) 1).getD default, rfl, admits (by decide +kernel), by decide +kernel⟩,
   ⟨pe, bindPay 0x2000000000, modTen (fun t => { t with mediated := true }) unbound, counted pe (modTen (fun t => { t with mediated := true }) unbound), makeBinding 0x0310 { q := pe } (bindPay 0x2000000000) (counted pe (modTen (fun t => { t with mediated := true }) unbound)), rfl, admits (by decide +kernel), rfl, by decide +kernel⟩,
   ⟨ten, bindPay 0x2000000000, modTen (fun t => { t with mediated := true }) owned, counted ten (modTen (fun t => { t with mediated := true }) owned), rfl, admits (by decide +kernel), by decide +kernel⟩,
   ⟨pe, leBytes 4 0x10000000 ++ [1, 0, 0, 0], owned, admits (by decide +kernel), by decide +kernel⟩,
   ⟨pe, leBytes 4 0x10000000 ++ zeros 4, owned, admits (by decide +kernel), by decide +kernel⟩,
   ⟨pe, leBytes 4 0x10000000, owned, admits (by decide +kernel)⟩,
   ⟨pe, [1, 0, 0, 0], inSt .test owned, admits (by decide +kernel)⟩,
   ⟨pe, leBytes 8 9, owned, counted pe owned, rfl, admits (by decide +kernel), by decide +kernel⟩,
   ⟨pe, leBytes 8 5, asked, counted pe asked, (medReqOf (counted pe asked) (fieldAt (leBytes 8 5) 0 8)).getD default, rfl, admits (by decide +kernel), by decide +kernel⟩,
   ⟨pe, leBytes 8 9, owned, counted pe owned, rfl, admits (by decide +kernel), by decide +kernel⟩,
   ⟨pe, leBytes 8 5, asked, counted pe asked, (medReqOf (counted pe asked) (fieldAt (leBytes 8 5) 0 8)).getD default, rfl, admits (by decide +kernel), by decide +kernel⟩,
   ⟨pe, leBytes 4 0x10000000, owned, admits (by decide +kernel)⟩⟩

theorem test_hyps_GateCommands :
    (∃ (q : Req) (p : Bytes) (s : State) (u : State) (i : _), u = counted q s ∧ Admitted specSetCreate q p s ∧ lowestFree u 7 = some i)
    ∧ (∃ (q : Req) (p : Bytes) (s : State) (u : State) (h : Handle) (r : RuleSet), u = counted q s ∧ h = handleAt p 0 ∧ r = ruleSetOf u h ∧ Admitted specSetDestroy q p s ∧ r.swapAt = none ∧ genFull u (gatesOfLists u r.committed []) = false)
    ∧ (∃ (q : Req) (p : Bytes) (s : State) (u : State) (h : Handle) (r : RuleSet), u = counted q s ∧ h = handleAt p 0 ∧ r = ruleSetOf u h ∧ Admitted specSetDestroy q p s ∧ (r.swapAt.isSome = true ∨ genFull u (gatesOfLists u r.committed []) = true))
    ∧ (∃ (q : Req) (p : Bytes) (s : State) (u : State) (h : Handle) (r : RuleSet), u = counted q s ∧ h = handleAt p 0 ∧ r = ruleSetOf u h ∧ Admitted specRuleWrite q p s ∧ r.owner = 0)
    ∧ (∃ (q : Req) (p : Bytes) (s : State) (u : State) (h : Handle) (r : RuleSet), u = counted q s ∧ h = handleAt p 0 ∧ r = ruleSetOf u h ∧ Admitted specRuleWrite q p s ∧ (∀ x ∈ ruleList p, ruPrio x ≤ 127 ∧ ∃ g sl, ruSlice u x = some (g, sl) ∧ sl.owner = r.owner) ∧ r.owner ≠ 0)
    ∧ (∃ (q : Req) (p : Bytes) (s : State) (u : State) (h : Handle) (r : RuleSet) (x : _), u = counted q s ∧ h = handleAt p 0 ∧ r = ruleSetOf u h ∧ Admitted specRuleWrite q p s ∧ r.owner ≠ 0 ∧ x ∈ ruleList p ∧ 127 < ruPrio x)
    ∧ (∃ (q : Req) (p : Bytes) (s : State) (u : State) (h : Handle) (r : RuleSet), u = counted q s ∧ h = handleAt p 0 ∧ r = ruleSetOf u h ∧ Admitted specGateCommit q p s ∧ r.swapAt = none ∧ genFull u (gatesOfLists u r.committed r.staged) = false)
    ∧ (∃ (q : Req) (p : Bytes) (s : State) (u : State) (h : Handle) (r : RuleSet), u = counted q s ∧ h = handleAt p 0 ∧ r = ruleSetOf u h ∧ Admitted specGateCommit q p s ∧ (r.swapAt.isSome = true ∨ genFull u (gatesOfLists u r.committed r.staged) = true))
    ∧ (∃ (q : Req) (p : Bytes) (s : State) (u : State) (g : _) (on : _), u = counted q s ∧ Admitted specGateConfigure q p s ∧ g = fieldAt p 0 2 ∧ on = (fieldAt p 2 1 == 1) ∧ (tget u.ten.gates g).firstByte = on)
    ∧ (∃ (q : Req) (p : Bytes) (s : State) (u : State) (g : _) (on : _), u = counted q s ∧ Admitted specGateConfigure q p s ∧ g = fieldAt p 0 2 ∧ on = (fieldAt p 2 1 == 1) ∧ (tget u.ten.gates g).firstByte = !on)
    ∧ (∃ (q : Req) (p : Bytes) (s : State), Admitted specDefaultSet q p s)
    ∧ (∃ (q : Req) (p : Bytes) (s : State), Admitted specGateStatus q p s ∧ fieldAt p 0 1 = 0)
    ∧ (∃ (q : Req) (p : Bytes) (s : State), Admitted specGateStatus q p s ∧ fieldAt p 0 1 = 1) :=
  ⟨⟨pe, leBytes 4 0x80000000, owned, counted pe owned, (lowestFree (counted pe owned) 7).getD default, rfl, admits (by decide +kernel), by decide +kernel⟩,
   ⟨pe, leBytes 4 0x70000000, owned, counted pe owned, handleAt (leBytes 4 0x70000000) 0, ruleSetOf (counted pe owned) (handleAt (leBytes 4 0x70000000) 0), rfl, rfl, rfl, admits (by decide +kernel), by decide +kernel⟩,
   ⟨pe, leBytes 4 0x70000000, rset (fun r => { r with swapAt := some 20000000000 }), counted pe (rset (fun r => { r with swapAt := some 20000000000 })), handleAt (leBytes 4 0x70000000) 0, ruleSetOf (counted pe (rset (fun r => { r with swapAt := some 20000000000 }))) (handleAt (leBytes 4 0x70000000) 0), rfl, rfl, rfl, admits (by decide +kernel), by decide +kernel⟩,
   ⟨pe, leBytes 4 0x70000000 ++ zeros 4, rset (fun r => { r with owner := 0 }), counted pe (rset (fun r => { r with owner := 0 })), handleAt (leBytes 4 0x70000000 ++ zeros 4) 0, ruleSetOf (counted pe (rset (fun r => { r with owner := 0 }))) (handleAt (leBytes 4 0x70000000 ++ zeros 4) 0), rfl, rfl, rfl, admits (by decide +kernel), by decide +kernel⟩,
   ⟨pe, leBytes 4 0x70000000 ++ [1, 0, 0, 0] ++ leBytes 16 (aRule 127), owned, counted pe owned, handleAt (leBytes 4 0x70000000 ++ [1, 0, 0, 0] ++ leBytes 16 (aRule 127)) 0, ruleSetOf (counted pe owned) (handleAt (leBytes 4 0x70000000 ++ [1, 0, 0, 0] ++ leBytes 16 (aRule 127)) 0), rfl, rfl, rfl, admits (by decide +kernel), fun _ hx => by obtain rfl := List.mem_singleton.mp (oneRule ▸ hx); exact ⟨by decide +kernel, 0x20000000, tget owned.ten.slices 0, by decide +kernel, by decide +kernel⟩, by decide +kernel⟩,
   ⟨pe, leBytes 4 0x70000000 ++ [1, 0, 0, 0] ++ leBytes 16 (aRule 128), owned, counted pe owned, handleAt (leBytes 4 0x70000000 ++ [1, 0, 0, 0] ++ leBytes 16 (aRule 128)) 0, ruleSetOf (counted pe owned) (handleAt (leBytes 4 0x70000000 ++ [1, 0, 0, 0] ++ leBytes 16 (aRule 128)) 0), BitVec.ofNat 128 (aRule 128), rfl, rfl, rfl, admits (by decide +kernel), by decide +kernel⟩,
   ⟨pe, leBytes 4 0x70000000 ++ zeros 4, owned, counted pe owned, handleAt (leBytes 4 0x70000000 ++ zeros 4) 0, ruleSetOf (counted pe owned) (handleAt (leBytes 4 0x70000000 ++ zeros 4) 0), rfl, rfl, rfl, admits (by decide +kernel), by decide +kernel⟩,
   ⟨pe, leBytes 4 0x70000000 ++ zeros 4, rset (fun r => { r with swapAt := some 20000000000 }), counted pe (rset (fun r => { r with swapAt := some 20000000000 })), handleAt (leBytes 4 0x70000000 ++ zeros 4) 0, ruleSetOf (counted pe (rset (fun r => { r with swapAt := some 20000000000 }))) (handleAt (leBytes 4 0x70000000 ++ zeros 4) 0), rfl, rfl, rfl, admits (by decide +kernel), by decide +kernel⟩,
   ⟨pe, [15, 1, 0, 0], owned, counted pe owned, fieldAt ([15, 1, 0, 0]) 0 2, (fieldAt ([15, 1, 0, 0]) 2 1 == 1), rfl, admits (by decide +kernel), rfl, rfl, by decide +kernel⟩,
   ⟨pe, [15, 1, 1, 0], owned, counted pe owned, fieldAt ([15, 1, 1, 0]) 0 2, (fieldAt ([15, 1, 1, 0]) 2 1 == 1), rfl, admits (by decide +kernel), rfl, rfl, by decide +kernel⟩,
   ⟨pe, zeros 8, owned, admits (by decide +kernel)⟩,
   ⟨pe, zeros 8, owned, admits (by decide +kernel), by decide +kernel⟩,
   ⟨pe, [1, 0, 0, 0] ++ leBytes 4 0x70000000, owned, admits (by decide +kernel), by decide +kernel⟩⟩

theorem test_hyps_LeaseCommands :
    (∃ (q : Req) (p : Bytes) (s : State) (u : State) (i : _), u = counted q s ∧ Admitted specLeaseTake q p s ∧ u.ten.leases.find? (fun e => e.2.live && (leaseObjects p).any (fun o => e.2.objects.contains o)) = none ∧ lowestFree u 10 = some i)
    ∧ (∃ (q : Req) (p : Bytes) (s : State) (u : State) (e : _), u = counted q s ∧ Admitted specLeaseTake q p s ∧ u.ten.leases.find? (fun e => e.2.live && (leaseObjects p).any (fun o => e.2.objects.contains o)) = some e)
    ∧ (∃ (q : Req) (p : Bytes) (s : State) (u : State) (h : Handle), u = counted q s ∧ h = handleAt p 0 ∧ Admitted specLeaseCommit q p s ∧ (tget u.ten.leases (hIdx h)).committing = true)
    ∧ (∃ (q : Req) (p : Bytes) (s : State) (u : State) (h : Handle) (w : _) (o : _) (v : _), u = counted q s ∧ h = handleAt p 0 ∧ Admitted specLeaseCommit q p s ∧ w = { u with ten := { u.ten with leases := tset u.ten.leases (hIdx h) { tget u.ten.leases (hIdx h) with staged := [], committing := true, named := now u } } } ∧ (o, v) = applyStaged (specsBase ++ [commitSpec specsBase]) (tget u.ten.leases (hIdx h)).staged [] w ∧ (tget u.ten.leases (hIdx h)).committing = false ∧ o.status = .ok)
    ∧ (∃ (q : Req) (p : Bytes) (s : State) (u : State) (h : Handle) (w : _) (o : _) (v : _), u = counted q s ∧ h = handleAt p 0 ∧ Admitted specLeaseCommit q p s ∧ w = { u with ten := { u.ten with leases := tset u.ten.leases (hIdx h) { tget u.ten.leases (hIdx h) with staged := [], committing := true, named := now u } } } ∧ (o, v) = applyStaged (specsBase ++ [commitSpec specsBase]) (tget u.ten.leases (hIdx h)).staged [] w ∧ (tget u.ten.leases (hIdx h)).committing = false ∧ o.status ≠ .ok ∧ o.status ≠ .partialDone)
    ∧ (∃ (q : Req) (p : Bytes) (s : State) (u : State) (h : Handle), u = counted q s ∧ h = handleAt p 0 ∧ Admitted specLeaseRelease q p s ∧ (tget u.ten.leases (hIdx h)).committing = true)
    ∧ (∃ (q : Req) (p : Bytes) (s : State) (u : State) (h : Handle), u = counted q s ∧ h = handleAt p 0 ∧ Admitted specLeaseRelease q p s ∧ (tget u.ten.leases (hIdx h)).committing = false)
    ∧ (∃ (q : Req) (p : Bytes) (s : State) (u : State) (c : CmdSpec), u = counted q s ∧ commandsRun s = true ∧ (c.op = 0x0103 → pfailHeld s = false) ∧ checkCmd c q p s = none ∧ q.deadline = 0 ∧ q.lease ≠ 0 ∧ (tget u.ten.leases (hIdx q.lease)).committing = false ∧ c.creates = none)
    ∧ (∃ (q : Req) (p : Bytes) (s : State) (u : State) (c : CmdSpec) (ty : Nat) (i : Nat), u = counted q s ∧ commandsRun s = true ∧ (c.op = 0x0103 → pfailHeld s = false) ∧ checkCmd c q p s = none ∧ q.deadline = 0 ∧ q.lease ≠ 0 ∧ (tget u.ten.leases (hIdx q.lease)).committing = false ∧ c.creates = some ty ∧ lowestFree u ty = some i) :=
  ⟨⟨pe, [0, 0, 1, 0] ++ leBytes 4 0x20000000, owned, counted pe owned, (lowestFree (counted pe owned) 10).getD default, rfl, admits (by decide +kernel), by decide +kernel⟩,
   ⟨pe, [0, 0, 1, 0] ++ leBytes 4 0x20000000, leased (.pe 0) id, counted pe (leased (.pe 0) id), ((counted pe (leased (.pe 0) id)).ten.leases.find? (fun e => e.2.live && (leaseObjects ([0, 0, 1, 0] ++ leBytes 4 0x20000000)).any (fun o => e.2.objects.contains o))).getD default, rfl, admits (by decide +kernel), by decide +kernel⟩,
   ⟨pe, leBytes 4 0xA0000000, leased (.pe 0) (fun l => { l with committing := true }), counted pe (leased (.pe 0) (fun l => { l with committing := true })), handleAt (leBytes 4 0xA0000000) 0, rfl, rfl, admits (by decide +kernel), by decide +kernel⟩,
   ⟨pe, leBytes 4 0xA0000000, leased (.pe 0) id, counted pe (leased (.pe 0) id), handleAt (leBytes 4 0xA0000000) 0, { (counted pe (leased (.pe 0) id)) with ten := { (counted pe (leased (.pe 0) id)).ten with leases := tset (counted pe (leased (.pe 0) id)).ten.leases (hIdx (handleAt (leBytes 4 0xA0000000) 0)) { tget (counted pe (leased (.pe 0) id)).ten.leases (hIdx (handleAt (leBytes 4 0xA0000000) 0)) with staged := [], committing := true, named := now (counted pe (leased (.pe 0) id)) } } }, (applyStaged (specsBase ++ [commitSpec specsBase]) (tget (counted pe (leased (.pe 0) id)).ten.leases (hIdx (handleAt (leBytes 4 0xA0000000) 0))).staged [] ({ (counted pe (leased (.pe 0) id)) with ten := { (counted pe (leased (.pe 0) id)).ten with leases := tset (counted pe (leased (.pe 0) id)).ten.leases (hIdx (handleAt (leBytes 4 0xA0000000) 0)) { tget (counted pe (leased (.pe 0) id)).ten.leases (hIdx (handleAt (leBytes 4 0xA0000000) 0)) with staged := [], committing := true, named := now (counted pe (leased (.pe 0) id)) } } })).1, (applyStaged (specsBase ++ [commitSpec specsBase]) (tget (counted pe (leased (.pe 0) id)).ten.leases (hIdx (handleAt (leBytes 4 0xA0000000) 0))).staged [] ({ (counted pe (leased (.pe 0) id)) with ten := { (counted pe (leased (.pe 0) id)).ten with leases := tset (counted pe (leased (.pe 0) id)).ten.leases (hIdx (handleAt (leBytes 4 0xA0000000) 0)) { tget (counted pe (leased (.pe 0) id)).ten.leases (hIdx (handleAt (leBytes 4 0xA0000000) 0)) with staged := [], committing := true, named := now (counted pe (leased (.pe 0) id)) } } })).2, rfl, rfl, admits (by decide +kernel), rfl, rfl, by decide +kernel⟩,
   ⟨pe, leBytes 4 0xA0000000, leased (.pe 0) (fun l => { l with staged := [{ req := pe, opcode := 0, payload := [] }] }), counted pe (leased (.pe 0) (fun l => { l with staged := [{ req := pe, opcode := 0, payload := [] }] })), handleAt (leBytes 4 0xA0000000) 0, { (counted pe (leased (.pe 0) (fun l => { l with staged := [{ req := pe, opcode := 0, payload := [] }] }))) with ten := { (counted pe (leased (.pe 0) (fun l => { l with staged := [{ req := pe, opcode := 0, payload := [] }] }))).ten with leases := tset (counted pe (leased (.pe 0) (fun l => { l with staged := [{ req := pe, opcode := 0, payload := [] }] }))).ten.leases (hIdx (handleAt (leBytes 4 0xA0000000) 0)) { tget (counted pe (leased (.pe 0) (fun l => { l with staged := [{ req := pe, opcode := 0, payload := [] }] }))).ten.leases (hIdx (handleAt (leBytes 4 0xA0000000) 0)) with staged := [], committing := true, named := now (counted pe (leased (.pe 0) (fun l => { l with staged := [{ req := pe, opcode := 0, payload := [] }] }))) } } }, (applyStaged (specsBase ++ [commitSpec specsBase]) (tget (counted pe (leased (.pe 0) (fun l => { l with staged := [{ req := pe, opcode := 0, payload := [] }] }))).ten.leases (hIdx (handleAt (leBytes 4 0xA0000000) 0))).staged [] ({ (counted pe (leased (.pe 0) (fun l => { l with staged := [{ req := pe, opcode := 0, payload := [] }] }))) with ten := { (counted pe (leased (.pe 0) (fun l => { l with staged := [{ req := pe, opcode := 0, payload := [] }] }))).ten with leases := tset (counted pe (leased (.pe 0) (fun l => { l with staged := [{ req := pe, opcode := 0, payload := [] }] }))).ten.leases (hIdx (handleAt (leBytes 4 0xA0000000) 0)) { tget (counted pe (leased (.pe 0) (fun l => { l with staged := [{ req := pe, opcode := 0, payload := [] }] }))).ten.leases (hIdx (handleAt (leBytes 4 0xA0000000) 0)) with staged := [], committing := true, named := now (counted pe (leased (.pe 0) (fun l => { l with staged := [{ req := pe, opcode := 0, payload := [] }] }))) } } })).1, (applyStaged (specsBase ++ [commitSpec specsBase]) (tget (counted pe (leased (.pe 0) (fun l => { l with staged := [{ req := pe, opcode := 0, payload := [] }] }))).ten.leases (hIdx (handleAt (leBytes 4 0xA0000000) 0))).staged [] ({ (counted pe (leased (.pe 0) (fun l => { l with staged := [{ req := pe, opcode := 0, payload := [] }] }))) with ten := { (counted pe (leased (.pe 0) (fun l => { l with staged := [{ req := pe, opcode := 0, payload := [] }] }))).ten with leases := tset (counted pe (leased (.pe 0) (fun l => { l with staged := [{ req := pe, opcode := 0, payload := [] }] }))).ten.leases (hIdx (handleAt (leBytes 4 0xA0000000) 0)) { tget (counted pe (leased (.pe 0) (fun l => { l with staged := [{ req := pe, opcode := 0, payload := [] }] }))).ten.leases (hIdx (handleAt (leBytes 4 0xA0000000) 0)) with staged := [], committing := true, named := now (counted pe (leased (.pe 0) (fun l => { l with staged := [{ req := pe, opcode := 0, payload := [] }] }))) } } })).2, rfl, rfl, admits (by decide +kernel), rfl, rfl, by decide +kernel⟩,
   ⟨pe, leBytes 4 0xA0000000, leased (.pe 0) (fun l => { l with committing := true }), counted pe (leased (.pe 0) (fun l => { l with committing := true })), handleAt (leBytes 4 0xA0000000) 0, rfl, rfl, admits (by decide +kernel), by decide +kernel⟩,
   ⟨pe, leBytes 4 0xA0000000, leased (.pe 0) id, counted pe (leased (.pe 0) id), handleAt (leBytes 4 0xA0000000) 0, rfl, rfl, admits (by decide +kernel), by decide +kernel⟩,
   ⟨under, [], leased (.pe 0) id, counted under (leased (.pe 0) id), specDeviceStatus, rfl, by decide +kernel⟩,
   ⟨under, leBytes 4 0x80000000, leased (.pe 0) id, counted under (leased (.pe 0) id), specSetCreate, 7, (lowestFree (counted under (leased (.pe 0) id)) 7).getD default, rfl, by decide +kernel⟩⟩

theorem test_hyps_CoherenceAndHoardCommands :
    (∃ (q : Req) (p : Bytes) (s : State), Admitted specCohConfigure q p s ∧ fieldAt p 1 1 = 1)
    ∧ (∃ (q : Req) (p : Bytes) (s : State), Admitted specCohConfigure q p s ∧ fieldAt p 1 1 = 0)
    ∧ (∃ (q : Req) (p : Bytes) (s : State) (u : State) (l : _) (k : _), u = counted q s ∧ Admitted specCohEntryRead q p s ∧ l = lineOf (fieldAt p 0 8) ∧ dirKey u (homeSlice l) l = some k)
    ∧ (∃ (q : Req) (p : Bytes) (s : State) (u : State) (l : _), u = counted q s ∧ Admitted specCohEntryRead q p s ∧ l = lineOf (fieldAt p 0 8) ∧ dirKey u (homeSlice l) l = none)
    ∧ (∃ (q : Req) (p : Bytes) (s : State), Admitted specCohDreyPolicy q p s)
    ∧ (∃ (q : Req) (p : Bytes) (s : State), Admitted specCohDreyFlush q p s)
    ∧ (∃ (q : Req) (p : Bytes) (s : State), Admitted specCohHbmScrub q p s)
    ∧ (∃ (q : Req) (p : Bytes) (s : State), Admitted specCohHbmStatus q p s)
    ∧ (∃ (q : Req) (p : Bytes) (s : State), Admitted specCohRegionRetire q p s)
    ∧ (∃ (q : Req) (p : Bytes) (s : State) (x : _), Admitted specHoardConfigure q p s ∧ x = fieldAt p 0 4 * 1000 ∧ x = 0)
    ∧ (∃ (q : Req) (p : Bytes) (s : State) (u : State) (x : _), u = counted q s ∧ Admitted specHoardConfigure q p s ∧ x = fieldAt p 0 4 * 1000 ∧ x ≠ 0 ∧ u.ft.gm = false)
    ∧ (∃ (q : Req) (p : Bytes) (s : State) (u : State) (x : _), u = counted q s ∧ Admitted specHoardConfigure q p s ∧ x = fieldAt p 0 4 * 1000 ∧ x ≠ 0 ∧ u.ft.gm = true)
    ∧ (∃ (q : Req) (p : Bytes) (s : State), Admitted specHoardStatus q p s)
    ∧ (∃ (q : Req) (p : Bytes) (s : State), Admitted specHoardDirtyCap q p s)
    ∧ (∃ (q : Req) (p : Bytes) (s : State) (u : State) (m : _), u = counted q s ∧ Admitted specHoardJournalSet q p s ∧ u.journal.moving = some m)
    ∧ (∃ (q : Req) (p : Bytes) (s : State) (u : State), u = counted q s ∧ Admitted specHoardJournalSet q p s ∧ u.journal.moving = none)
    ∧ (∃ (q : Req) (p : Bytes) (s : State), Admitted specHoardJournalRead q p s) :=
  ⟨⟨pe, [0, 1, 0, 0] ++ zeros 4 ++ leBytes 4 50000000, svc, admits (by decide +kernel), by decide +kernel⟩,
   ⟨pe, [10, 0, 1, 0] ++ zeros 8, svc, admits (by decide +kernel), by decide +kernel⟩,
   ⟨pe, zeros 8, putDir 0 0 { st := 1 } svc, counted pe (putDir 0 0 { st := 1 } svc), lineOf (fieldAt (zeros 8) 0 8), (dirKey (counted pe (putDir 0 0 { st := 1 } svc)) (homeSlice (lineOf (fieldAt (zeros 8) 0 8))) (lineOf (fieldAt (zeros 8) 0 8))).getD default, rfl, admits (by decide +kernel), rfl, by decide +kernel⟩,
   ⟨pe, leBytes 8 (2 ^ 52 - 1), svc, counted pe svc, lineOf (fieldAt (leBytes 8 (2 ^ 52 - 1)) 0 8), rfl, admits (by decide +kernel), rfl, by decide +kernel⟩,
   ⟨pe, leBytes 4 0x20000000 ++ [1, 0, 0, 0], owned, admits (by decide +kernel)⟩,
   ⟨pe, zeros 4, svc, admits (by decide +kernel)⟩,
   ⟨pe, [168, 0, 0, 0], svc, admits (by decide +kernel)⟩,
   ⟨pe, [3, 0, 0, 0], svc, admits (by decide +kernel)⟩,
   ⟨pe, [0, 87, 0, 0], svc, admits (by decide +kernel)⟩,
   ⟨pe, zeros 4 ++ leBytes 4 20000 ++ leBytes 4 1 ++ zeros 4, svc, fieldAt (zeros 4 ++ leBytes 4 20000 ++ leBytes 4 1 ++ zeros 4) 0 4 * 1000, admits (by decide +kernel), rfl, by decide +kernel⟩,
   ⟨pe, leBytes 4 10000 ++ zeros 12, modFt (fun f => { f with gm := false }) svc, counted pe (modFt (fun f => { f with gm := false }) svc), fieldAt (leBytes 4 10000 ++ zeros 12) 0 4 * 1000, rfl, admits (by decide +kernel), rfl, by decide +kernel⟩,
   ⟨pe, leBytes 4 10000 ++ zeros 12, svc, counted pe svc, fieldAt (leBytes 4 10000 ++ zeros 12) 0 4 * 1000, rfl, admits (by decide +kernel), rfl, by decide +kernel⟩,
   ⟨pe, zeros 4, svc, admits (by decide +kernel)⟩,
   ⟨pe, [24, 0, 0, 0], svc, admits (by decide +kernel)⟩,
   ⟨pe, [0, 1, 1, 1] ++ zeros 20, modJ (fun j => { j with moving := some (0x100, 0x101, 0, 0) }) jset, counted pe (modJ (fun j => { j with moving := some (0x100, 0x101, 0, 0) }) jset), ((counted pe (modJ (fun j => { j with moving := some (0x100, 0x101, 0, 0) }) jset)).journal.moving).getD default, rfl, admits (by decide +kernel), by decide +kernel⟩,
   ⟨pe, [0, 1, 1, 1] ++ zeros 20, jset, counted pe jset, rfl, admits (by decide +kernel), by decide +kernel⟩,
   ⟨pe, zeros 16, svc, admits (by decide +kernel)⟩⟩

theorem test_hyps_TimePowerAndCageCommands :
    (∃ (q : Req) (p : Bytes) (s : State) (u : State) (c : Nat) (t : _), u = counted q s ∧ c = fieldAt p 0 1 ∧ Admitted specTimeConfigure q p s ∧ t = elect { u with io := { u.io with prio := c, extRef := bitOf (fieldAt p 1 1) 0, ppsEn := bitOf (fieldAt p 1 1) 1, entries := (timeEntries p).foldl (fun t e => tset t e.1 e.2) u.io.entries, ppsOut := u.io.ppsOut && bitOf (fieldAt p 1 1) 1 } } ∧ t.ft.gm = true ∧ t.io.extRef = true ∧ ftrefOk t = true)
    ∧ (∃ (q : Req) (p : Bytes) (s : State) (u : State) (c : Nat) (t : _), u = counted q s ∧ c = fieldAt p 0 1 ∧ Admitted specTimeConfigure q p s ∧ t = elect { u with io := { u.io with prio := c, extRef := bitOf (fieldAt p 1 1) 0, ppsEn := bitOf (fieldAt p 1 1) 1, entries := (timeEntries p).foldl (fun t e => tset t e.1 e.2) u.io.entries, ppsOut := u.io.ppsOut && bitOf (fieldAt p 1 1) 1 } } ∧ t.ft.gm = true ∧ (t.io.extRef = false ∨ ftrefOk t = false) ∧ t.ft.mode = .external)
    ∧ (∃ (q : Req) (p : Bytes) (s : State) (u : State) (c : Nat) (t : _), u = counted q s ∧ c = fieldAt p 0 1 ∧ Admitted specTimeConfigure q p s ∧ t = elect { u with io := { u.io with prio := c, extRef := bitOf (fieldAt p 1 1) 0, ppsEn := bitOf (fieldAt p 1 1) 1, entries := (timeEntries p).foldl (fun t e => tset t e.1 e.2) u.io.entries, ppsOut := u.io.ppsOut && bitOf (fieldAt p 1 1) 1 } } ∧ t.ft.gm = true ∧ (t.io.extRef = false ∨ ftrefOk t = false) ∧ t.ft.mode ≠ .external)
    ∧ (∃ (q : Req) (p : Bytes) (s : State) (u : State) (c : Nat) (t : _), u = counted q s ∧ c = fieldAt p 0 1 ∧ Admitted specTimeConfigure q p s ∧ t = elect { u with io := { u.io with prio := c, extRef := bitOf (fieldAt p 1 1) 0, ppsEn := bitOf (fieldAt p 1 1) 1, entries := (timeEntries p).foldl (fun t e => tset t e.1 e.2) u.io.entries, ppsOut := u.io.ppsOut && bitOf (fieldAt p 1 1) 1 } } ∧ t.ft.gm = false)
    ∧ (∃ (q : Req) (p : Bytes) (s : State) (u : State), u = counted q s ∧ Admitted specTimeSet q p s ∧ u.ft.mode = .external)
    ∧ (∃ (q : Req) (p : Bytes) (s : State) (u : State), u = counted q s ∧ Admitted specTimeSet q p s ∧ u.ft.mode ≠ .external)
    ∧ (∃ (q : Req) (p : Bytes) (s : State), Admitted specTimeStatus q p s)
    ∧ (∃ (q : Req) (p : Bytes) (s : State) (u : State) (d : _) (k : _), u = counted q s ∧ Admitted specDomainSet q p s ∧ d = fieldAt p 0 2 ∧ k = fieldAt p 2 1 ∧ (domOf u d).target = none ∧ (domOf u d).st = pdOf k)
    ∧ (∃ (q : Req) (p : Bytes) (s : State) (u : State) (d : _) (k : _), u = counted q s ∧ Admitted specDomainSet q p s ∧ d = fieldAt p 0 2 ∧ k = fieldAt p 2 1 ∧ (domOf u d).target = none ∧ (domOf u d).st ≠ pdOf k)
    ∧ (∃ (q : Req) (p : Bytes) (s : State) (u : State) (d : _) (k : _), u = counted q s ∧ Admitted specDomainSet q p s ∧ d = fieldAt p 0 2 ∧ k = fieldAt p 2 1 ∧ (domOf u d).target = some (pdOf k) ∧ (domOf u d).queued = none)
    ∧ (∃ (q : Req) (p : Bytes) (s : State) (u : State) (d : _) (k : _) (t : _), u = counted q s ∧ Admitted specDomainSet q p s ∧ d = fieldAt p 0 2 ∧ k = fieldAt p 2 1 ∧ (domOf u d).target = some t ∧ t ≠ pdOf k ∧ (domOf u d).queued = none)
    ∧ (∃ (q : Req) (p : Bytes) (s : State) (u : State) (d : _) (t : _) (z : _), u = counted q s ∧ Admitted specDomainSet q p s ∧ d = fieldAt p 0 2 ∧ (domOf u d).target = some t ∧ (domOf u d).queued = some z)
    ∧ (∃ (q : Req) (p : Bytes) (s : State), Admitted specDomainStatus q p s ∧ fieldAt p 0 2 ≠ 0xFFFF)
    ∧ (∃ (q : Req) (p : Bytes) (s : State), Admitted specDomainStatus q p s ∧ fieldAt p 0 2 = 0xFFFF)
    ∧ (∃ (q : Req) (p : Bytes) (s : State), Admitted specClkobs q p s ∧ fieldAt p 6 1 = 0)
    ∧ (∃ (q : Req) (p : Bytes) (s : State) (u : State) (h : _) (v : _) (w : _), u = counted q s ∧ Admitted specClkobs q p s ∧ ((handleAt p 0 ≠ 0 ∧ h = handleAt p 0 ∧ v = u) ∨ (handleAt p 0 = 0 ∧ openSession q.route .clkobs 0 u = (some h, v))) ∧ w = { v with pwr := { v.pwr with obsClk := fieldAt p 4 1, obsN := fieldAt p 5 1, obsOut := fieldAt p 6 1, obsStopped := false, obsSession := h } } ∧ fieldAt p 6 1 ≠ 0 ∧ (clkOf w (fieldAt p 4 1)).running = true)
    ∧ (∃ (q : Req) (p : Bytes) (s : State) (u : State) (h : _) (v : _) (w : _), u = counted q s ∧ Admitted specClkobs q p s ∧ ((handleAt p 0 ≠ 0 ∧ h = handleAt p 0 ∧ v = u) ∨ (handleAt p 0 = 0 ∧ openSession q.route .clkobs 0 u = (some h, v))) ∧ w = { v with pwr := { v.pwr with obsClk := fieldAt p 4 1, obsN := fieldAt p 5 1, obsOut := fieldAt p 6 1, obsStopped := false, obsSession := h } } ∧ fieldAt p 6 1 ≠ 0 ∧ (clkOf w (fieldAt p 4 1)).running = false)
    ∧ (∃ (q : Req) (p : Bytes) (s : State), Admitted specCageSet q p s ∧ fieldAt p 1 1 = 0)
    ∧ (∃ (q : Req) (p : Bytes) (s : State) (u : State) (c : Nat) (v : _), u = counted q s ∧ c = fieldAt p 0 1 ∧ Admitted specCageSet q p s ∧ v = { u with cages := { u.cages with pars := tset u.cages.pars c (cageParFrom p (cageParOf u c)) } } ∧ fieldAt p 1 1 = 1 ∧ gateHigh v c = true)
    ∧ (∃ (q : Req) (p : Bytes) (s : State) (u : State) (c : Nat) (v : _), u = counted q s ∧ c = fieldAt p 0 1 ∧ Admitted specCageSet q p s ∧ v = { u with cages := { u.cages with pars := tset u.cages.pars c (cageParFrom p (cageParOf u c)) } } ∧ fieldAt p 1 1 = 1 ∧ gateHigh v c = false)
    ∧ (∃ (q : Req) (p : Bytes) (s : State) (u : State) (c : Nat) (v : _), u = counted q s ∧ c = fieldAt p 0 1 ∧ Admitted specCageSet q p s ∧ v = { u with cages := { u.cages with pars := tset u.cages.pars c (cageParFrom p (cageParOf u c)) } } ∧ fieldAt p 1 1 = 2 ∧ portEnabled v c = true)
    ∧ (∃ (q : Req) (p : Bytes) (s : State) (u : State) (c : Nat) (v : _), u = counted q s ∧ c = fieldAt p 0 1 ∧ Admitted specCageSet q p s ∧ v = { u with cages := { u.cages with pars := tset u.cages.pars c (cageParFrom p (cageParOf u c)) } } ∧ fieldAt p 1 1 = 2 ∧ portEnabled v c = false)
    ∧ (∃ (q : Req) (p : Bytes) (s : State), Admitted specCageSet q p s ∧ fieldAt p 1 1 = 3)
    ∧ (∃ (q : Req) (p : Bytes) (s : State) (c : Nat), c = fieldAt p 0 1 ∧ Admitted specCageStatus q p s ∧ c = 0xFF)
    ∧ (∃ (q : Req) (p : Bytes) (s : State) (c : Nat), c = fieldAt p 0 1 ∧ Admitted specCageStatus q p s ∧ c ≠ 0xFF) :=
  ⟨⟨pe, [0, 1, 0, 0], modIo (fun i => { i with ppsOk := true, tenMOk := true }) svc, counted pe (modIo (fun i => { i with ppsOk := true, tenMOk := true }) svc), fieldAt ([0, 1, 0, 0]) 0 1, elect { (counted pe (modIo (fun i => { i with ppsOk := true, tenMOk := true }) svc)) with io := { (counted pe (modIo (fun i => { i with ppsOk := true, tenMOk := true }) svc)).io with prio := (fieldAt ([0, 1, 0, 0]) 0 1), extRef := bitOf (fieldAt ([0, 1, 0, 0]) 1 1) 0, ppsEn := bitOf (fieldAt ([0, 1, 0, 0]) 1 1) 1, entries := (timeEntries ([0, 1, 0, 0])).foldl (fun t e => tset t e.1 e.2) (counted pe (modIo (fun i => { i with ppsOk := true, tenMOk := true }) svc)).io.entries, ppsOut := (counted pe (modIo (fun i => { i with ppsOk := true, tenMOk := true }) svc)).io.ppsOut && bitOf (fieldAt ([0, 1, 0, 0]) 1 1) 1 } }, rfl, rfl, admits (by decide +kernel), rfl, by decide +kernel⟩,
   ⟨pe, zeros 4, modFt (fun f => { f with mode := .external }) svc, counted pe (modFt (fun f => { f with mode := .external }) svc), fieldAt (zeros 4) 0 1, elect { (counted pe (modFt (fun f => { f with mode := .external }) svc)) with io := { (counted pe (modFt (fun f => { f with mode := .external }) svc)).io with prio := (fieldAt (zeros 4) 0 1), extRef := bitOf (fieldAt (zeros 4) 1 1) 0, ppsEn := bitOf (fieldAt (zeros 4) 1 1) 1, entries := (timeEntries (zeros 4)).foldl (fun t e => tset t e.1 e.2) (counted pe (modFt (fun f => { f with mode := .external }) svc)).io.entries, ppsOut := (counted pe (modFt (fun f => { f with mode := .external }) svc)).io.ppsOut && bitOf (fieldAt (zeros 4) 1 1) 1 } }, rfl, rfl, admits (by decide +kernel), rfl, by decide +kernel⟩,
   ⟨pe, zeros 4, svc, counted pe svc, fieldAt (zeros 4) 0 1, elect { (counted pe svc) with io := { (counted pe svc).io with prio := (fieldAt (zeros 4) 0 1), extRef := bitOf (fieldAt (zeros 4) 1 1) 0, ppsEn := bitOf (fieldAt (zeros 4) 1 1) 1, entries := (timeEntries (zeros 4)).foldl (fun t e => tset t e.1 e.2) (counted pe svc).io.entries, ppsOut := (counted pe svc).io.ppsOut && bitOf (fieldAt (zeros 4) 1 1) 1 } }, rfl, rfl, admits (by decide +kernel), rfl, by decide +kernel⟩,
   ⟨pe, [5, 0, 0, 0], modFt (fun f => { f with gm := false }) svc, counted pe (modFt (fun f => { f with gm := false }) svc), fieldAt ([5, 0, 0, 0]) 0 1, elect { (counted pe (modFt (fun f => { f with gm := false }) svc)) with io := { (counted pe (modFt (fun f => { f with gm := false }) svc)).io with prio := (fieldAt ([5, 0, 0, 0]) 0 1), extRef := bitOf (fieldAt ([5, 0, 0, 0]) 1 1) 0, ppsEn := bitOf (fieldAt ([5, 0, 0, 0]) 1 1) 1, entries := (timeEntries ([5, 0, 0, 0])).foldl (fun t e => tset t e.1 e.2) (counted pe (modFt (fun f => { f with gm := false }) svc)).io.entries, ppsOut := (counted pe (modFt (fun f => { f with gm := false }) svc)).io.ppsOut && bitOf (fieldAt ([5, 0, 0, 0]) 1 1) 1 } }, rfl, rfl, admits (by decide +kernel), rfl, by decide +kernel⟩,
   ⟨pe, leBytes 8 281474, modFt (fun f => { f with mode := .external }) svc, counted pe (modFt (fun f => { f with mode := .external }) svc), rfl, admits (by decide +kernel), by decide +kernel⟩,
   ⟨pe, leBytes 8 281474, svc, counted pe svc, rfl, admits (by decide +kernel), by decide +kernel⟩,
   ⟨pe, zeros 4, svc, admits (by decide +kernel)⟩,
   ⟨pe, [0, 0, 3, 0], svc, counted pe svc, fieldAt ([0, 0, 3, 0]) 0 2, fieldAt ([0, 0, 3, 0]) 2 1, rfl, admits (by decide +kernel), rfl, rfl, by decide +kernel⟩,
   ⟨pe, [0, 0, 1, 0], svc, counted pe svc, fieldAt ([0, 0, 1, 0]) 0 2, fieldAt ([0, 0, 1, 0]) 2 1, rfl, admits (by decide +kernel), rfl, rfl, by decide +kernel⟩,
   ⟨pe, [10, 0, 3, 0], modDom 10 (fun x => { x with target := some .on }) svc, counted pe (modDom 10 (fun x => { x with target := some .on }) svc), fieldAt ([10, 0, 3, 0]) 0 2, fieldAt ([10, 0, 3, 0]) 2 1, rfl, admits (by decide +kernel), rfl, rfl, by decide +kernel⟩,
   ⟨pe, [0, 0, 0, 0], modDom 0 (fun x => { x with target := some .deep }) svc, counted pe (modDom 0 (fun x => { x with target := some .deep }) svc), fieldAt ([0, 0, 0, 0]) 0 2, fieldAt ([0, 0, 0, 0]) 2 1, .deep, rfl, admits (by decide +kernel), rfl, rfl, by decide +kernel⟩,
   ⟨pe, [10, 0, 0, 0], modDom 10 (fun x => { x with target := some .sleep, queued := some .deep }) svc, counted pe (modDom 10 (fun x => { x with target := some .sleep, queued := some .deep }) svc), fieldAt ([10, 0, 0, 0]) 0 2, ((domOf (counted pe (modDom 10 (fun x => { x with target := some .sleep, queued := some .deep }) svc)) (fieldAt ([10, 0, 0, 0]) 0 2)).target).getD default, ((domOf (counted pe (modDom 10 (fun x => { x with target := some .sleep, queued := some .deep }) svc)) (fieldAt ([10, 0, 0, 0]) 0 2)).queued).getD default, rfl, admits (by decide +kernel), rfl, by decide +kernel⟩,
   ⟨pe, [156, 0, 0, 0], svc, admits (by decide +kernel), by decide +kernel⟩,
   ⟨pe, [255, 255, 0, 0], svc, admits (by decide +kernel), by decide +kernel⟩,
   ⟨pe, leBytes 4 0x60000000 ++ zeros 4, sess .clkobs svc, admits (by decide +kernel), by decide +kernel⟩,
   ⟨pe, leBytes 4 0x60000000 ++ [24, 16, 1, 0], modClk 24 (fun x => { x with running := true }) (sess .clkobs svc), counted pe (modClk 24 (fun x => { x with running := true }) (sess .clkobs svc)), 0x60000000, counted pe (modClk 24 (fun x => { x with running := true }) (sess .clkobs svc)), { (counted pe (modClk 24 (fun x => { x with running := true }) (sess .clkobs svc))) with pwr := { (counted pe (modClk 24 (fun x => { x with running := true }) (sess .clkobs svc))).pwr with obsClk := fieldAt (leBytes 4 0x60000000 ++ [24, 16, 1, 0]) 4 1, obsN := fieldAt (leBytes 4 0x60000000 ++ [24, 16, 1, 0]) 5 1, obsOut := fieldAt (leBytes 4 0x60000000 ++ [24, 16, 1, 0]) 6 1, obsStopped := false, obsSession := 0x60000000 } }, rfl, admits (by decide +kernel), .inl ⟨by decide +kernel, by decide +kernel, rfl⟩, rfl, by decide +kernel⟩,
   ⟨pe, leBytes 4 0x60000000 ++ [24, 16, 1, 0], modClk 24 (fun x => { x with running := false }) (sess .clkobs svc), counted pe (modClk 24 (fun x => { x with running := false }) (sess .clkobs svc)), 0x60000000, counted pe (modClk 24 (fun x => { x with running := false }) (sess .clkobs svc)), { (counted pe (modClk 24 (fun x => { x with running := false }) (sess .clkobs svc))) with pwr := { (counted pe (modClk 24 (fun x => { x with running := false }) (sess .clkobs svc))).pwr with obsClk := fieldAt (leBytes 4 0x60000000 ++ [24, 16, 1, 0]) 4 1, obsN := fieldAt (leBytes 4 0x60000000 ++ [24, 16, 1, 0]) 5 1, obsOut := fieldAt (leBytes 4 0x60000000 ++ [24, 16, 1, 0]) 6 1, obsStopped := false, obsSession := 0x60000000 } }, rfl, admits (by decide +kernel), .inl ⟨by decide +kernel, by decide +kernel, rfl⟩, rfl, by decide +kernel⟩,
   ⟨pe, zeros 12, svc, admits (by decide +kernel), by decide +kernel⟩,
   ⟨pe, [0, 1] ++ zeros 10, modCage 0 (fun x => { x with st := .on }) svc, counted pe (modCage 0 (fun x => { x with st := .on }) svc), fieldAt ([0, 1] ++ zeros 10) 0 1, { (counted pe (modCage 0 (fun x => { x with st := .on }) svc)) with cages := { (counted pe (modCage 0 (fun x => { x with st := .on }) svc)).cages with pars := tset (counted pe (modCage 0 (fun x => { x with st := .on }) svc)).cages.pars (fieldAt ([0, 1] ++ zeros 10) 0 1) (cageParFrom ([0, 1] ++ zeros 10) (cageParOf (counted pe (modCage 0 (fun x => { x with st := .on }) svc)) (fieldAt ([0, 1] ++ zeros 10) 0 1))) } }, rfl, rfl, admits (by decide +kernel), rfl, by decide +kernel⟩,
   ⟨pe, [127, 1] ++ zeros 10, svc, counted pe svc, fieldAt ([127, 1] ++ zeros 10) 0 1, { (counted pe svc) with cages := { (counted pe svc).cages with pars := tset (counted pe svc).cages.pars (fieldAt ([127, 1] ++ zeros 10) 0 1) (cageParFrom ([127, 1] ++ zeros 10) (cageParOf (counted pe svc) (fieldAt ([127, 1] ++ zeros 10) 0 1))) } }, rfl, rfl, admits (by decide +kernel), rfl, by decide +kernel⟩,
   ⟨pe, [5, 2] ++ zeros 10, modCage 5 (fun x => { x with st := .on }) svc, counted pe (modCage 5 (fun x => { x with st := .on }) svc), fieldAt ([5, 2] ++ zeros 10) 0 1, { (counted pe (modCage 5 (fun x => { x with st := .on }) svc)) with cages := { (counted pe (modCage 5 (fun x => { x with st := .on }) svc)).cages with pars := tset (counted pe (modCage 5 (fun x => { x with st := .on }) svc)).cages.pars (fieldAt ([5, 2] ++ zeros 10) 0 1) (cageParFrom ([5, 2] ++ zeros 10) (cageParOf (counted pe (modCage 5 (fun x => { x with st := .on }) svc)) (fieldAt ([5, 2] ++ zeros 10) 0 1))) } }, rfl, rfl, admits (by decide +kernel), rfl, by decide +kernel⟩,
   ⟨pe, [0, 2] ++ zeros 10, modCage 0 (fun x => { x with st := .on }) svc, counted pe (modCage 0 (fun x => { x with st := .on }) svc), fieldAt ([0, 2] ++ zeros 10) 0 1, { (counted pe (modCage 0 (fun x => { x with st := .on }) svc)) with cages := { (counted pe (modCage 0 (fun x => { x with st := .on }) svc)).cages with pars := tset (counted pe (modCage 0 (fun x => { x with st := .on }) svc)).cages.pars (fieldAt ([0, 2] ++ zeros 10) 0 1) (cageParFrom ([0, 2] ++ zeros 10) (cageParOf (counted pe (modCage 0 (fun x => { x with st := .on }) svc)) (fieldAt ([0, 2] ++ zeros 10) 0 1))) } }, rfl, rfl, admits (by decide +kernel), rfl, by decide +kernel⟩,
   ⟨pe, [0, 3] ++ zeros 10, modCage 0 (fun x => { x with st := .latched }) svc, admits (by decide +kernel), by decide +kernel⟩,
   ⟨pe, [255, 0, 0, 0], svc, fieldAt ([255, 0, 0, 0]) 0 1, rfl, admits (by decide +kernel), by decide +kernel⟩,
   ⟨pe, [127, 0, 0, 0], svc, fieldAt ([127, 0, 0, 0]) 0 1, rfl, admits (by decide +kernel), by decide +kernel⟩⟩

theorem test_hyps_SecureCommands :
    (∃ (q : Req) (p : Bytes) (s : State) (u : State) (k : _) (old : _), u = counted q s ∧ Admitted specFwStage q p s ∧ k = partKey (1 - u.sec.activeBank) (fieldAt p 0 1) ∧ old = tget u.sec.parts k ∧ (u.sec.updating = true ∨ ∃ r, old.stager = some r ∧ old.complete = false ∧ sameOrigin r q.route = false))
    ∧ (∃ (q : Req) (p : Bytes) (s : State) (u : State) (k : _) (old : _), u = counted q s ∧ Admitted specFwStage q p s ∧ k = partKey (1 - u.sec.activeBank) (fieldAt p 0 1) ∧ old = tget u.sec.parts k ∧ (∀ r, old.stager = some r → old.complete = true ∨ sameOrigin r q.route = true) ∧ u.sec.updating = false ∧ ((bitOf (fieldAt p 1 1) 0 = true ∧ fieldAt p 4 4 ≠ 0) ∨ (bitOf (fieldAt p 1 1) 0 = false ∧ (old.stager = none ∨ old.complete = true ∨ fieldAt p 4 4 ≠ old.bytes.length)) ∨ partRoom (fieldAt p 0 1) < (if bitOf (fieldAt p 1 1) 0 then 0 else old.bytes.length) + (p.drop 12).length) ∧ (old.stager = none ∨ old.complete = true))
    ∧ (∃ (q : Req) (p : Bytes) (s : State) (u : State) (k : _) (old : _), u = counted q s ∧ Admitted specFwStage q p s ∧ k = partKey (1 - u.sec.activeBank) (fieldAt p 0 1) ∧ old = tget u.sec.parts k ∧ (∀ r, old.stager = some r → old.complete = true ∨ sameOrigin r q.route = true) ∧ u.sec.updating = false ∧ ((bitOf (fieldAt p 1 1) 0 = true ∧ fieldAt p 4 4 ≠ 0) ∨ (bitOf (fieldAt p 1 1) 0 = false ∧ (old.stager = none ∨ old.complete = true ∨ fieldAt p 4 4 ≠ old.bytes.length)) ∨ partRoom (fieldAt p 0 1) < (if bitOf (fieldAt p 1 1) 0 then 0 else old.bytes.length) + (p.drop 12).length) ∧ old.stager.isSome = true ∧ old.complete = false)
    ∧ (∃ (q : Req) (p : Bytes) (s : State) (u : State) (k : _) (old : _) (b : _), u = counted q s ∧ Admitted specFwStage q p s ∧ k = partKey (1 - u.sec.activeBank) (fieldAt p 0 1) ∧ old = tget u.sec.parts k ∧ (∀ r, old.stager = some r → old.complete = true ∨ sameOrigin r q.route = true) ∧ u.sec.updating = false ∧ ((bitOf (fieldAt p 1 1) 0 = true ∧ fieldAt p 4 4 = 0 ∧ b = p.drop 12) ∨ (bitOf (fieldAt p 1 1) 0 = false ∧ old.stager.isSome = true ∧ old.complete = false ∧ fieldAt p 4 4 = old.bytes.length ∧ b = old.bytes ++ p.drop 12)) ∧ b.length ≤ partRoom (fieldAt p 0 1) ∧ bitOf (fieldAt p 1 1) 1 = false)
    ∧ (∃ (q : Req) (p : Bytes) (s : State) (u : State) (k : _) (old : _) (b : _) (d : _), u = counted q s ∧ Admitted specFwStage q p s ∧ k = partKey (1 - u.sec.activeBank) (fieldAt p 0 1) ∧ old = tget u.sec.parts k ∧ (∀ r, old.stager = some r → old.complete = true ∨ sameOrigin r q.route = true) ∧ u.sec.updating = false ∧ ((bitOf (fieldAt p 1 1) 0 = true ∧ fieldAt p 4 4 = 0 ∧ b = p.drop 12) ∨ (bitOf (fieldAt p 1 1) 0 = false ∧ old.stager.isSome = true ∧ old.complete = false ∧ fieldAt p 4 4 = old.bytes.length ∧ b = old.bytes ++ p.drop 12)) ∧ b.length ≤ partRoom (fieldAt p 0 1) ∧ bitOf (fieldAt p 1 1) 1 = true ∧ imageFails u.fuses (fieldAt p 0 1) b = some d)
    ∧ (∃ (q : Req) (p : Bytes) (s : State) (u : State) (k : _) (old : _), u = counted q s ∧ Admitted specTableLoad q p s ∧ k = 1 - u.ledger.tableCopy ∧ old = tget u.sec.tables k ∧ ((bitOf (fieldAt p 1 1) 0 = true ∧ fieldAt p 4 4 ≠ 0) ∨ (bitOf (fieldAt p 1 1) 0 = false ∧ (old.stager = none ∨ old.complete = true ∨ fieldAt p 4 4 ≠ old.bytes.length)) ∨ 524288 < (if bitOf (fieldAt p 1 1) 0 then 0 else old.bytes.length) + (p.drop 12).length))
    ∧ (∃ (q : Req) (p : Bytes) (s : State) (u : State) (k : _) (old : _) (b : _), u = counted q s ∧ Admitted specTableLoad q p s ∧ k = 1 - u.ledger.tableCopy ∧ old = tget u.sec.tables k ∧ ((bitOf (fieldAt p 1 1) 0 = true ∧ fieldAt p 4 4 = 0 ∧ b = p.drop 12) ∨ (bitOf (fieldAt p 1 1) 0 = false ∧ old.stager.isSome = true ∧ old.complete = false ∧ fieldAt p 4 4 = old.bytes.length ∧ b = old.bytes ++ p.drop 12)) ∧ b.length ≤ 524288 ∧ bitOf (fieldAt p 1 1) 1 = false)
    ∧ (∃ (q : Req) (p : Bytes) (s : State) (u : State) (k : _) (old : _) (b : _), u = counted q s ∧ Admitted specTableLoad q p s ∧ k = 1 - u.ledger.tableCopy ∧ old = tget u.sec.tables k ∧ tableAuth u.fuses b = false ∧ ((bitOf (fieldAt p 1 1) 0 = true ∧ fieldAt p 4 4 = 0 ∧ b = p.drop 12) ∨ (bitOf (fieldAt p 1 1) 0 = false ∧ old.stager.isSome = true ∧ old.complete = false ∧ fieldAt p 4 4 = old.bytes.length ∧ b = old.bytes ++ p.drop 12)) ∧ b.length ≤ 524288 ∧ bitOf (fieldAt p 1 1) 1 = true)
    ∧ (∃ (q : Req) (p : Bytes) (s : State) (u : State), u = counted q s ∧ Admitted specFwActivate q p s ∧ fieldAt p 0 1 = 1 ∧ u.sec.updating = true)
    ∧ (∃ (q : Req) (p : Bytes) (s : State) (u : State), u = counted q s ∧ Admitted specFwActivate q p s ∧ fieldAt p 0 1 = 1 ∧ u.sec.updating = false)
    ∧ (∃ (q : Req) (p : Bytes) (s : State), Admitted specAttest q p s ∧ fieldAt p 4 4 = 0)
    ∧ (∃ (q : Req) (p : Bytes) (s : State) (u : State) (e : _), u = counted q s ∧ Admitted specAttest q p s ∧ fieldAt p 4 4 ≠ 0 ∧ u.sec.evidence.find? (fun e => sameIdentity e.origin q.route && decide (now u ≤ e.until_)) = some e ∧ e.nonce = (p.drop 8).take (fieldAt p 0 1) ∧ fieldAt p 4 4 < e.bytes.length ∧ now u ≠ e.until_)
    ∧ (∃ (q : Req) (p : Bytes) (s : State) (u : State) (e : _), u = counted q s ∧ Admitted specAttest q p s ∧ fieldAt p 4 4 ≠ 0 ∧ u.sec.evidence.find? (fun e => sameIdentity e.origin q.route && decide (now u ≤ e.until_)) = some e ∧ e.nonce = (p.drop 8).take (fieldAt p 0 1) ∧ fieldAt p 4 4 < e.bytes.length ∧ now u = e.until_)
    ∧ (∃ (q : Req) (p : Bytes) (s : State) (u : State) (e : _), u = counted q s ∧ Admitted specAttest q p s ∧ fieldAt p 4 4 ≠ 0 ∧ u.sec.evidence.find? (fun e => sameIdentity e.origin q.route && decide (now u ≤ e.until_)) = some e ∧ e.nonce = (p.drop 8).take (fieldAt p 0 1) ∧ e.bytes.length ≤ fieldAt p 4 4)
    ∧ (∃ (q : Req) (p : Bytes) (s : State) (u : State) (e : _), u = counted q s ∧ Admitted specAttest q p s ∧ fieldAt p 4 4 ≠ 0 ∧ u.sec.evidence.find? (fun e => sameIdentity e.origin q.route && decide (now u ≤ e.until_)) = some e ∧ e.nonce ≠ (p.drop 8).take (fieldAt p 0 1))
    ∧ (∃ (q : Req) (p : Bytes) (s : State) (u : State), u = counted q s ∧ Admitted specAttest q p s ∧ fieldAt p 4 4 ≠ 0 ∧ u.sec.evidence.find? (fun e => sameIdentity e.origin q.route && decide (now u ≤ e.until_)) = none)
    ∧ (∃ (q : Req) (p : Bytes) (s : State), Admitted specUnlock q p s ∧ fieldAt p 0 1 = 1)
    ∧ (∃ (q : Req) (p : Bytes) (s : State) (u : State), u = counted q s ∧ Admitted specUnlock q p s ∧ fieldAt p 0 1 = 2 ∧ tokenOk u p = false)
    ∧ (∃ (q : Req) (p : Bytes) (s : State) (u : State), u = counted q s ∧ Admitted specUnlock q p s ∧ fieldAt p 0 1 = 3 ∧ u.sec.unlock = none)
    ∧ (∃ (q : Req) (p : Bytes) (s : State) (u : State), u = counted q s ∧ Admitted specUnlock q p s ∧ fieldAt p 0 1 = 3 ∧ u.sec.unlock.isSome = true)
    ∧ (∃ (q : Req) (p : Bytes) (s : State) (u : State), u = counted q s ∧ Admitted specOwnerKey q p s ∧ ownerAuth u p = true ∧ fieldAt p 0 1 = 1)
    ∧ (∃ (q : Req) (p : Bytes) (s : State) (u : State), u = counted q s ∧ Admitted specOwnerKey q p s ∧ ownerAuth u p = false) :=
  ⟨⟨pe, [1, 0, 0, 0] ++ zeros 8, modSec (fun y => { y with updating := true }) svc, counted pe (modSec (fun y => { y with updating := true }) svc), partKey (1 - (counted pe (modSec (fun y => { y with updating := true }) svc)).sec.activeBank) (fieldAt ([1, 0, 0, 0] ++ zeros 8) 0 1), tget (counted pe (modSec (fun y => { y with updating := true }) svc)).sec.parts (partKey (1 - (counted pe (modSec (fun y => { y with updating := true }) svc)).sec.activeBank) (fieldAt ([1, 0, 0, 0] ++ zeros 8) 0 1)), rfl, admits (by decide +kernel), rfl, rfl, .inl (by decide +kernel)⟩,
   ⟨pe, [1, 0, 0, 0] ++ zeros 8, svc, counted pe svc, partKey (1 - (counted pe svc).sec.activeBank) (fieldAt ([1, 0, 0, 0] ++ zeros 8) 0 1), tget (counted pe svc).sec.parts (partKey (1 - (counted pe svc).sec.activeBank) (fieldAt ([1, 0, 0, 0] ++ zeros 8) 0 1)), rfl, admits (by decide +kernel), rfl, rfl, noneIs (by decide +kernel), by decide +kernel⟩,
   ⟨pe, [1, 0, 0, 0] ++ zeros 8, modSec (fun y => { y with parts := [(2, { bytes := [7], complete := false, stager := some (.pe 0) })] }) svc, counted pe (modSec (fun y => { y with parts := [(2, { bytes := [7], complete := false, stager := some (.pe 0) })] }) svc), partKey (1 - (counted pe (modSec (fun y => { y with parts := [(2, { bytes := [7], complete := false, stager := some (.pe 0) })] }) svc)).sec.activeBank) (fieldAt ([1, 0, 0, 0] ++ zeros 8) 0 1), tget (counted pe (modSec (fun y => { y with parts := [(2, { bytes := [7], complete := false, stager := some (.pe 0) })] }) svc)).sec.parts (partKey (1 - (counted pe (modSec (fun y => { y with parts := [(2, { bytes := [7], complete := false, stager := some (.pe 0) })] }) svc)).sec.activeBank) (fieldAt ([1, 0, 0, 0] ++ zeros 8) 0 1)), rfl, admits (by decide +kernel), rfl, rfl, someIs (.pe 0) (by decide +kernel) (.inr (by decide +kernel)), by decide +kernel⟩,
   ⟨pe, [1, 1, 0, 0] ++ zeros 4 ++ leBytes 4 2 ++ [7, 7], svc, counted pe svc, partKey (1 - (counted pe svc).sec.activeBank) (fieldAt ([1, 1, 0, 0] ++ zeros 4 ++ leBytes 4 2 ++ [7, 7]) 0 1), tget (counted pe svc).sec.parts (partKey (1 - (counted pe svc).sec.activeBank) (fieldAt ([1, 1, 0, 0] ++ zeros 4 ++ leBytes 4 2 ++ [7, 7]) 0 1)), [7, 7], rfl, admits (by decide +kernel), rfl, rfl, noneIs (by decide +kernel), by decide +kernel⟩,
   ⟨pe, [2, 3, 0, 0] ++ zeros 4 ++ leBytes 4 2 ++ [7, 7], svc, counted pe svc, partKey (1 - (counted pe svc).sec.activeBank) (fieldAt ([2, 3, 0, 0] ++ zeros 4 ++ leBytes 4 2 ++ [7, 7]) 0 1), tget (counted pe svc).sec.parts (partKey (1 - (counted pe svc).sec.activeBank) (fieldAt ([2, 3, 0, 0] ++ zeros 4 ++ leBytes 4 2 ++ [7, 7]) 0 1)), [7, 7], 1, rfl, admits (by decide +kernel), rfl, rfl, noneIs (by decide +kernel), by decide +kernel⟩,
   ⟨pe, [0, 0, 0, 0] ++ zeros 4 ++ leBytes 4 2 ++ [7, 7], svc, counted pe svc, 1 - (counted pe svc).ledger.tableCopy, tget (counted pe svc).sec.tables (1 - (counted pe svc).ledger.tableCopy), rfl, admits (by decide +kernel), rfl, rfl, by decide +kernel⟩,
   ⟨pe, [0, 1, 0, 0] ++ zeros 4 ++ leBytes 4 2 ++ [7, 7], svc, counted pe svc, 1 - (counted pe svc).ledger.tableCopy, tget (counted pe svc).sec.tables (1 - (counted pe svc).ledger.tableCopy), [7, 7], rfl, admits (by decide +kernel), rfl, rfl, by decide +kernel⟩,
   ⟨pe, [0, 3, 0, 0] ++ zeros 4 ++ leBytes 4 2 ++ [7, 7], svc, counted pe svc, 1 - (counted pe svc).ledger.tableCopy, tget (counted pe svc).sec.tables (1 - (counted pe svc).ledger.tableCopy), [7, 7], rfl, admits (by decide +kernel), rfl, rfl, noTable [7, 7], by decide +kernel⟩,
   ⟨pe, [1, 0, 0, 0], modSec (fun y => { y with updating := true }) svc, counted pe (modSec (fun y => { y with updating := true }) svc), rfl, admits (by decide +kernel), by decide +kernel⟩,
   ⟨pe, [1, 0, 0, 0], staged2, counted pe staged2, rfl, admits (by decide +kernel), by decide +kernel⟩,
   ⟨pe, [16, 0, 0, 0] ++ zeros 68, svc, admits (by decide +kernel), by decide +kernel⟩,
   ⟨pe, [64, 0, 0, 0] ++ leBytes 4 1 ++ zeros 64, modSec (fun y => { y with evidence := [{ origin := .pe 0, nonce := zeros 64, bytes := [1, 2], until_ := 20000000000 }] }) svc, counted pe (modSec (fun y => { y with evidence := [{ origin := .pe 0, nonce := zeros 64, bytes := [1, 2], until_ := 20000000000 }] }) svc), ((counted pe (modSec (fun y => { y with evidence := [{ origin := .pe 0, nonce := zeros 64, bytes := [1, 2], until_ := 20000000000 }] }) svc)).sec.evidence.find? (fun e => sameIdentity e.origin pe.route && decide (now (counted pe (modSec (fun y => { y with evidence := [{ origin := .pe 0, nonce := zeros 64, bytes := [1, 2], until_ := 20000000000 }] }) svc)) ≤ e.until_))).getD default, rfl, admits (by decide +kernel), by decide +kernel⟩,
   ⟨pe, [64, 0, 0, 0] ++ leBytes 4 1 ++ zeros 64, modSec (fun y => { y with evidence := [{ origin := .pe 0, nonce := zeros 64, bytes := [1, 2], until_ := 10000000000 }] }) svc, counted pe (modSec (fun y => { y with evidence := [{ origin := .pe 0, nonce := zeros 64, bytes := [1, 2], until_ := 10000000000 }] }) svc), ((counted pe (modSec (fun y => { y with evidence := [{ origin := .pe 0, nonce := zeros 64, bytes := [1, 2], until_ := 10000000000 }] }) svc)).sec.evidence.find? (fun e => sameIdentity e.origin pe.route && decide (now (counted pe (modSec (fun y => { y with evidence := [{ origin := .pe 0, nonce := zeros 64, bytes := [1, 2], until_ := 10000000000 }] }) svc)) ≤ e.until_))).getD default, rfl, admits (by decide +kernel), by decide +kernel⟩,
   ⟨pe, [64, 0, 0, 0] ++ leBytes 4 2 ++ zeros 64, modSec (fun y => { y with evidence := [{ origin := .pe 0, nonce := zeros 64, bytes := [1, 2], until_ := 20000000000 }] }) svc, counted pe (modSec (fun y => { y with evidence := [{ origin := .pe 0, nonce := zeros 64, bytes := [1, 2], until_ := 20000000000 }] }) svc), ((counted pe (modSec (fun y => { y with evidence := [{ origin := .pe 0, nonce := zeros 64, bytes := [1, 2], until_ := 20000000000 }] }) svc)).sec.evidence.find? (fun e => sameIdentity e.origin pe.route && decide (now (counted pe (modSec (fun y => { y with evidence := [{ origin := .pe 0, nonce := zeros 64, bytes := [1, 2], until_ := 20000000000 }] }) svc)) ≤ e.until_))).getD default, rfl, admits (by decide +kernel), by decide +kernel⟩,
   ⟨pe, [64, 0, 0, 0] ++ leBytes 4 1 ++ zeros 64, modSec (fun y => { y with evidence := [{ origin := .pe 0, nonce := zeros 63, bytes := [1, 2], until_ := 20000000000 }] }) svc, counted pe (modSec (fun y => { y with evidence := [{ origin := .pe 0, nonce := zeros 63, bytes := [1, 2], until_ := 20000000000 }] }) svc), ((counted pe (modSec (fun y => { y with evidence := [{ origin := .pe 0, nonce := zeros 63, bytes := [1, 2], until_ := 20000000000 }] }) svc)).sec.evidence.find? (fun e => sameIdentity e.origin pe.route && decide (now (counted pe (modSec (fun y => { y with evidence := [{ origin := .pe 0, nonce := zeros 63, bytes := [1, 2], until_ := 20000000000 }] }) svc)) ≤ e.until_))).getD default, rfl, admits (by decide +kernel), by decide +kernel⟩,
   ⟨pe, [64, 0, 0, 0] ++ leBytes 4 1 ++ zeros 64, svc, counted pe svc, rfl, admits (by decide +kernel), by decide +kernel⟩,
   ⟨pe, [1, 0, 0, 0], svc, admits (by decide +kernel), by decide +kernel⟩,
   ⟨pe, [2, 0, 0, 0] ++ leBytes 4 0x55445A44 ++ [1, 3, 1, 0] ++ zeros 7259, inSt .test svc, counted pe (inSt .test svc), rfl, admits (by decide +kernel), by decide +kernel⟩,
   ⟨pe, [3, 0, 0, 0], svc, counted pe svc, rfl, admits (by decide +kernel), by decide +kernel⟩,
   ⟨pe, [3, 0, 0, 0], modSec (fun y => { y with unlock := some (3, 20000000000) }) svc, counted pe (modSec (fun y => { y with unlock := some (3, 20000000000) }) svc), rfl, admits (by decide +kernel), by decide +kernel⟩,
   ⟨pe, [1] ++ zeros 7294, inSt .test svc, counted pe (inSt .test svc), rfl, admits (by decide +kernel), by decide +kernel⟩,
   ⟨pe, [1, 3, 0, 0, 1] ++ zeros 7290, inSt .test svc, counted pe (inSt .test svc), rfl, admits (by decide +kernel), by decide +kernel⟩⟩

theorem test_hyps_SlotsMoveBetweenFreePostedAndDone :
    (∃ (s : State), takesDoorbells s = true)
    ∧ (∃ (s : State) (k : _), takesDoorbells s = true ∧ k < 16)
    ∧ (∃ (s : State), peUp s = true) :=
  ⟨⟨svc, by decide +kernel⟩,
   ⟨svc, 15, by decide +kernel⟩,
   ⟨svc, by decide +kernel⟩⟩

theorem test_hyps_EndpointReadsAndWrites :
    (∃ (s : State), peUp s = true)
    ∧ (∃ (s : State) (off : _), peUp s = true ∧ off % 4 = 0 ∧ off < 0x2000000)
    ∧ (∃ (s : State) (off : _), peUp s = true ∧ off % 4 = 0 ∧ 0x2000000 ≤ off)
    ∧ (∃ (s : State) (v : BitVec 32), peUp s = true ∧ v.getLsbD 2 = true)
    ∧ (∃ (s : State) (v : BitVec 32), peUp s = true ∧ v.getLsbD 9 = true)
    ∧ (∃ (s : State) (k : Fin 64), peUp s = true ∧ s.mbx.pba.getLsbD k.val = true)
    ∧ (∃ (s : State) (k : Fin 64), peUp s = true ∧ s.mbx.pba.getLsbD k.val = false) :=
  ⟨⟨svc, by decide +kernel⟩,
   ⟨svc, 0x1FFFFFC, by decide +kernel⟩,
   ⟨svc, 0x2000000, by decide +kernel⟩,
   ⟨svc, 4, by decide +kernel⟩,
   ⟨svc, 0x200, by decide +kernel⟩,
   ⟨modMbx (fun m => { m with pba := 2 ^ 63 }) svc, 63, by decide +kernel⟩,
   ⟨svc, 0, by decide +kernel⟩⟩

theorem test_hyps_EndpointResets :
    ∃ (s : State), s.dev.st ≠ .off :=
  ⟨svc, by decide +kernel⟩

theorem test_hyps_BindingPages :
    (∃ (r : PageRef) (s : State) (i : Nat) (v : BitVec 32), lpUp s r.lp.val = true ∧ takesRequests s = true ∧ pageBinding s r.lp.val r.pasid.toNat r.page = some i ∧ ((tget s.ten.rings i).prod - v).toNat ≤ 128)
    ∧ (∃ (r : PageRef) (s : State) (i : Nat) (v : BitVec 32), lpUp s r.lp.val = true ∧ takesRequests s = true ∧ pageBinding s r.lp.val r.pasid.toNat r.page = some i ∧ v.getLsbD 0 = true ∧ (tget s.ten.mbxs (mbxIndex s i)).db = false ∧ (tget s.ten.mbxs (mbxIndex s i)).done = false)
    ∧ (∃ (r : PageRef) (s : State) (i : Nat) (v : BitVec 32), lpUp s r.lp.val = true ∧ takesRequests s = true ∧ pageBinding s r.lp.val r.pasid.toNat r.page = some i ∧ v.getLsbD 0 = true ∧ ((tget s.ten.mbxs (mbxIndex s i)).db || (tget s.ten.mbxs (mbxIndex s i)).done) = true)
    ∧ (∃ (r : PageRef) (s : State) (i : Nat) (v : BitVec 32), lpUp s r.lp.val = true ∧ takesRequests s = true ∧ pageBinding s r.lp.val r.pasid.toNat r.page = some i ∧ v.getLsbD 0 = true)
    ∧ (∃ (r : PageRef) (s : State) (i : Nat), lpUp s r.lp.val = true ∧ takesRequests s = true ∧ pageBinding s r.lp.val r.pasid.toNat r.page = some i ∧ (bindOf s i).posted = 0)
    ∧ (∃ (r : PageRef) (s : State) (i : Nat) (off : _), lpUp s r.lp.val = true ∧ takesRequests s = true ∧ pageBinding s r.lp.val r.pasid.toNat r.page = some i ∧ off < 64 ∧ (bindOf s i).posted ≠ 0)
    ∧ (∃ (r : PageRef) (s : State) (i : Nat), lpUp s r.lp.val = true ∧ takesRequests s = true ∧ pageBinding s r.lp.val r.pasid.toNat r.page = some i ∧ bitOf (bindOf s i).peer 15 = false)
    ∧ (∃ (r : PageRef) (s : State) (i : Nat), lpUp s r.lp.val = true ∧ takesRequests s = true ∧ pageBinding s r.lp.val r.pasid.toNat r.page = some i ∧ bitOf (bindOf s i).peer 15 = true)
    ∧ (∃ (r : PageRef) (s : State) (i : Nat) (off : _), lpUp s r.lp.val = true ∧ takesRequests s = true ∧ pageBinding s r.lp.val r.pasid.toNat r.page = some i ∧ 64 ≤ off)
    ∧ (∃ (r : PageRef) (s : State) (i : Nat), lpUp s r.lp.val = true ∧ takesRequests s = true ∧ pageBinding s r.lp.val r.pasid.toNat r.page = some i)
    ∧ (∃ (r : PageRef) (s : State), settRuns s = true ∧ lpUp s r.lp.val = true ∧ pageBinding s r.lp.val r.pasid.toNat r.page = none)
    ∧ (∃ (r : PageRef) (s : State), settRuns s = true ∧ lpUp s r.lp.val = true ∧ pageBinding s r.lp.val r.pasid.toNat r.page = none ∧ isCxl s r.lp.val = false)
    ∧ (∃ (r : PageRef) (s : State), settRuns s = true ∧ lpUp s r.lp.val = true ∧ pageBinding s r.lp.val r.pasid.toNat r.page = none ∧ isCxl s r.lp.val = true)
    ∧ (∃ (r : PageRef) (s : State) (i : _), settRuns s = true ∧ lpUp s r.lp.val = true ∧ takesRequests s = false ∧ pageBinding s r.lp.val r.pasid.toNat r.page = some i)
    ∧ (∃ (r : PageRef) (s : State), lpUp s r.lp.val = false) :=
  ⟨⟨page0, owned, (pageBinding owned page0.lp.val page0.pasid.toNat page0.page).getD default, 0xFFFFFF80, by decide +kernel⟩,
   ⟨page0, owned, (pageBinding owned page0.lp.val page0.pasid.toNat page0.page).getD default, 1, by decide +kernel⟩,
   ⟨page0, modMail 0 (fun x => { x with done := true }) owned, (pageBinding (modMail 0 (fun x => { x with done := true }) owned) page0.lp.val page0.pasid.toNat page0.page).getD default, 1, by decide +kernel⟩,
   ⟨page0, owned, (pageBinding owned page0.lp.val page0.pasid.toNat page0.page).getD default, 1, by decide +kernel⟩,
   ⟨page0, owned, (pageBinding owned page0.lp.val page0.pasid.toNat page0.page).getD default, by decide +kernel⟩,
   ⟨page0, modBind 0 (fun b => { b with posted := 1 }) owned, (pageBinding (modBind 0 (fun b => { b with posted := 1 }) owned) page0.lp.val page0.pasid.toNat page0.page).getD default, 63, by decide +kernel⟩,
   ⟨page0, owned, (pageBinding owned page0.lp.val page0.pasid.toNat page0.page).getD default, by decide +kernel⟩,
   ⟨page0, modBind 0 (fun b => { b with peer := 0x8010 }) owned, (pageBinding (modBind 0 (fun b => { b with peer := 0x8010 }) owned) page0.lp.val page0.pasid.toNat page0.page).getD default, by decide +kernel⟩,
   ⟨page0, owned, (pageBinding owned page0.lp.val page0.pasid.toNat page0.page).getD default, 64, by decide +kernel⟩,
   ⟨page0, owned, (pageBinding owned page0.lp.val page0.pasid.toNat page0.page).getD default, by decide +kernel⟩,
   ⟨pageEnd, owned, by decide +kernel⟩,
   ⟨pageEnd, owned, by decide +kernel⟩,
   ⟨{ page0 with lp := 30 }, owned, by decide +kernel⟩,
   ⟨page0, inSt .boot owned, (pageBinding (inSt .boot owned) page0.lp.val page0.pasid.toNat page0.page).getD default, by decide +kernel⟩,
   ⟨{ page0 with lp := 40 }, owned, by decide +kernel⟩⟩

theorem test_hyps_ConsumerIndexOverrunIsIgnored :
    ∃ (r : PageRef) (s : State) (i : Nat) (v : BitVec 32), lpUp s r.lp.val = true ∧ takesRequests s = true ∧ pageBinding s r.lp.val r.pasid.toNat r.page = some i ∧ 128 < ((tget s.ten.rings i).prod - v).toNat :=
  ⟨page0, owned, (pageBinding owned page0.lp.val page0.pasid.toNat page0.page).getD default, 0xFFFFFF7F, by decide +kernel⟩

theorem test_hyps_DispatchAndPostedCommands :
    (∃ (s : State), commandsRun s = true ∧ s.cmd.running.length < 8 ∧ nextQueue s = none)
    ∧ (∃ (s : State) (k : _) (r : _), commandsRun s = true ∧ s.cmd.running.length < 8 ∧ nextQueue s = some 0 ∧ s.cmd.peQueue = k :: r)
    ∧ (∃ (s : State) (x : _) (r : _), commandsRun s = true ∧ s.cmd.running.length < 8 ∧ nextQueue s = some 1 ∧ s.i3c.queue = x :: r)
    ∧ (∃ (s : State) (k : _) (r : _), commandsRun s = true ∧ s.cmd.running.length < 8 ∧ nextQueue s = some 2 ∧ s.cmd.tenQueue = k :: r)
    ∧ (∃ (s : State) (r : _) (h : _), commandsRun s = true ∧ postedHeader s r = some h ∧ (reqOf r h).deadline ≠ 0 ∧ (reqOf r h).deadline.toNat < ftCount s)
    ∧ (∃ (s : State) (r : _) (h : _), postedHeader s r = some h ∧ ftCount s ≤ (reqOf r h).deadline.toNat)
    ∧ (∃ (s : State) (body : _), fwRuns s = true ∧ fieldAt body 0 2 = s.fuses.vendor.toNat ∧ s.i3c.queue.length + (s.cmd.running.filter (fun r => isBmc r.req.route)).length < 4)
    ∧ (∃ (s : State) (body : _), fwRuns s = true ∧ fieldAt body 0 2 = s.fuses.vendor.toNat ∧ 4 ≤ s.i3c.queue.length + (s.cmd.running.filter (fun r => isBmc r.req.route)).length) :=
  ⟨⟨svc, by decide +kernel⟩,
   ⟨modCmd (fun c => { c with peQueue := [3] }) svc, ((modCmd (fun c => { c with peQueue := [3] }) svc).cmd.peQueue).headD default, ((modCmd (fun c => { c with peQueue := [3] }) svc).cmd.peQueue).tail, by decide +kernel⟩,
   ⟨{ svc with i3c := { svc.i3c with queue := [{ eid := 9, tag := 1 }] } }, (({ svc with i3c := { svc.i3c with queue := [{ eid := 9, tag := 1 }] } }).i3c.queue).headD default, (({ svc with i3c := { svc.i3c with queue := [{ eid := 9, tag := 1 }] } }).i3c.queue).tail, by decide +kernel⟩,
   ⟨modCmd (fun c => { c with tenQueue := [0] }) svc, ((modCmd (fun c => { c with tenQueue := [0] }) svc).cmd.tenQueue).headD default, ((modCmd (fun c => { c with tenQueue := [0] }) svc).cmd.tenQueue).tail, by decide +kernel⟩,
   ⟨posted 1, .pe 3, (postedHeader (posted 1) (.pe 3)).getD default, by decide +kernel⟩,
   ⟨posted (2 ^ 64 - 1), .pe 3, (postedHeader (posted (2 ^ 64 - 1)) (.pe 3)).getD default, by decide +kernel⟩,
   ⟨svc, leBytes 2 0x1F5B, by decide +kernel⟩,
   ⟨{ svc with i3c := { svc.i3c with queue := List.replicate 4 { eid := 9, tag := 1 } } }, leBytes 2 0x1F5B, by decide +kernel⟩⟩

theorem test_hyps_RecordsBecomeDurable :
    (∃ (s : State) (seq : _), s.journal.moving = none ∧ jWaiting s seq = true)
    ∧ (∃ (s : State) (seq : _) (m : _), s.journal.moving = some m ∧ s.journal.nextSeq ≤ seq)
    ∧ (∃ (s : State) (r : _), settRuns s = true ∧ s.log.waitRecs.getLast? = some r ∧ s.log.waitSeals = [])
    ∧ (∃ (s : State) (r : _) (x : _), settRuns s = true ∧ s.log.waitRecs.getLast? = some r ∧ s.log.waitSeals.getLast? = some x ∧ x.stamp < r.stamp)
    ∧ (∃ (s : State), drainReady s = true ∧ s.dev.st ≠ .hibernate ∧ fwRuns s = true) :=
  ⟨⟨modJ (fun j => { j with recs := [{ seq := 5 }], set_ := true }) svc, 5, by decide +kernel⟩,
   ⟨modJ (fun j => { j with moving := some (1, 2, 0, 0) }) svc, 0, ((modJ (fun j => { j with moving := some (1, 2, 0, 0) }) svc).journal.moving).getD default, by decide +kernel⟩,
   ⟨modLog (fun l => { l with waitRecs := [{ stamp := 2 }] }) svc, ((modLog (fun l => { l with waitRecs := [{ stamp := 2 }] }) svc).log.waitRecs.getLast?).getD default, by decide +kernel⟩,
   ⟨modLog (fun l => { l with waitRecs := [{ stamp := 2 }], waitSeals := [{ stamp := 1 }] }) svc, ((modLog (fun l => { l with waitRecs := [{ stamp := 2 }], waitSeals := [{ stamp := 1 }] }) svc).log.waitRecs.getLast?).getD default, ((modLog (fun l => { l with waitRecs := [{ stamp := 2 }], waitSeals := [{ stamp := 1 }] }) svc).log.waitSeals.getLast?).getD default, by decide +kernel⟩,
   ⟨{ svc with dev := { st := .drain, drainStep := 1 } }, by decide +kernel⟩⟩

theorem test_hyps_ManagementExpiriesAndTakeover :
    (∃ (s : State) (ev : _) (m : _), medReqOf s ev = some m ∧ m.deadline ≤ now s)
    ∧ (∃ (s : State) (h : _), (tget s.ten.leases (hIdx h)).live = true ∧ liveHandle s h = true ∧ leaseLost (tget s.ten.leases (hIdx h)) + 250000000 ≤ now s)
    ∧ (∃ (s : State) (h : _), now s < leaseLost (tget s.ten.leases (hIdx h)) + 250000000)
    ∧ (∃ (s : State) (c : _) (e : _), s.sec.challenge = some (c, e) ∧ e ≤ now s)
    ∧ (∃ (s : State) (c : _) (e : _), s.sec.challenge = some (c, e) ∧ now s < e)
    ∧ (∃ (s : State) (u : _) (e : _), s.sec.unlock = some (u, e) ∧ e ≤ now s)
    ∧ (∃ (s : State) (u : _) (e : _), s.sec.unlock = some (u, e) ∧ now s < e)
    ∧ (∃ (s : State) (d : _), fwRuns s = true ∧ s.sec.takeover = 2 ∧ imageFails s.fuses 2 (partOf s (1 - s.sec.activeBank) 2).bytes = some d)
    ∧ (∃ (s : State), fwRuns s = true ∧ s.sec.takeover = 3 ∧ s.cmd.running.all waitsTakeover = true)
    ∧ (∃ (s : State), fwRuns s = true ∧ s.sec.takeover = 3 ∧ s.cmd.running.all waitsTakeover = false)
    ∧ (∃ (s : State), fwRuns s = true ∧ s.sec.takeover = 4)
    ∧ (∃ (s : State), fwRuns s = true ∧ (∀ r ∈ s.cmd.running, r.waits = [.takeover]))
    ∧ (∃ (s : State), fwRuns s = true ∧ s.sec.takeover = 6) :=
  ⟨⟨atNs 20000000000 asked, 5, (medReqOf (atNs 20000000000 asked) 5).getD default, by decide +kernel⟩,
   ⟨atNs 11250000000 (leased (.pe 0) id), 0xA0000000, by decide +kernel⟩,
   ⟨atNs 11249999999 (leased (.pe 0) id), 0xA0000000, by decide +kernel⟩,
   ⟨modSec (fun y => { y with challenge := some ([1], 10000000000) }) svc, [1], 10000000000, by decide +kernel⟩,
   ⟨modSec (fun y => { y with challenge := some ([1], 10000000001) }) svc, [1], 10000000001, by decide +kernel⟩,
   ⟨modSec (fun y => { y with unlock := some (3, 10000000000) }) svc, 3, 10000000000, by decide +kernel⟩,
   ⟨modSec (fun y => { y with unlock := some (3, 10000000001) }) svc, 3, 10000000001, by decide +kernel⟩,
   ⟨modSec (fun y => { y with takeover := 2 }) svc, 1, by decide +kernel⟩,
   ⟨modSec (fun y => { y with takeover := 3 }) svc, by decide +kernel⟩,
   ⟨modCmd (fun c => { c with running := [{ req := pe, opcode := 0x0101, accepted := 0, waits := [] }] }) (modSec (fun y => { y with takeover := 3 }) svc), by decide +kernel⟩,
   ⟨modSec (fun y => { y with takeover := 4 }) svc, by decide +kernel⟩,
   ⟨modCmd (fun c => { c with running := [{ req := pe, opcode := 0x0D03, accepted := 0, waits := [.takeover] }] }) svc, by decide +kernel⟩,
   ⟨modSec (fun y => { y with takeover := 6 }) svc, by decide +kernel⟩⟩

theorem test_hyps_ResetsAndPower :
    (∃ (s : State) (t : _), s.start.warmAt = some t ∧ t ≤ now s ∧ (s.dev.st = .test ∨ s.dev.st = .recovery ∨ s.dev.st = .service ∨ s.dev.st = .drain))
    ∧ (∃ (s : State) (t : _), s.start.warmAt = some t ∧ t ≤ now s ∧ s.dev.st = .hibernate)
    ∧ (∃ (s : State) (t : _), s.start.warmAt = some t ∧ now s < t)
    ∧ (∃ (s : State) (t : _), s.start.offAt = some t ∧ t ≤ now s ∧ s.dev.st = .drain)
    ∧ (∃ (n : _), n < 10000)
    ∧ (∃ (n : _), 10000 ≤ n)
    ∧ (∃ (s : State) (n : _), 10000 ≤ n ∧ s.dev.st ≠ .grave)
    ∧ (∃ (s : State), s.dev.st = .off ∧ s.pins.vin12Low = false)
    ∧ (∃ (s : State), s.dev.st ≠ .off) :=
  ⟨⟨modStart (fun x => { x with warmAt := some 10000000000 }) svc, ((modStart (fun x => { x with warmAt := some 10000000000 }) svc).start.warmAt).getD default, by decide +kernel⟩,
   ⟨modStart (fun x => { x with warmAt := some 10000000000 }) (inSt .hibernate svc), ((modStart (fun x => { x with warmAt := some 10000000000 }) (inSt .hibernate svc)).start.warmAt).getD default, by decide +kernel⟩,
   ⟨modStart (fun x => { x with warmAt := some 10000000001 }) svc, ((modStart (fun x => { x with warmAt := some 10000000001 }) svc).start.warmAt).getD default, by decide +kernel⟩,
   ⟨modStart (fun x => { x with offAt := some 10000000000 }) (inSt .drain svc), ((modStart (fun x => { x with offAt := some 10000000000 }) (inSt .drain svc)).start.offAt).getD default, by decide +kernel⟩,
   ⟨9999, by decide +kernel⟩,
   ⟨10000, by decide +kernel⟩,
   ⟨svc, 10000, by decide +kernel⟩,
   ⟨inSt .off svc, by decide +kernel⟩,
   ⟨svc, by decide +kernel⟩⟩

theorem test_hyps_StartSteps :
    (∃ (s : State) (k : Fin 14), s.dev.st = .boot ∧ kRuns (kAdvance s) k.val = true ∧ stepReady (kAdvance s) k.val = true)
    ∧ (∃ (s : State) (k : Fin 14), s.dev.st = .boot ∧ (kRuns (kAdvance s) k.val = false ∨ stepReady (kAdvance s) k.val = false))
    ∧ (∃ (s : State) (d : Fin 8), s.dev.st = .boot ∧ kRuns (kAdvance s) 10 = true ∧ (kAdvance s).dev.st = .boot ∧ (kAdvance s).start.wave = d.val ∧ (kOf (kAdvance s) 10).began + 25000000 * d.val ≤ now (kAdvance s))
    ∧ (∃ (s : State) (d : Fin 8), s.dev.st = .boot ∧ now (kAdvance s) < (kOf (kAdvance s) 10).began + 25000000 * d.val)
    ∧ (∃ (p : PortId) (s : State) (t : State), t = stepOpen 0x20 p.val 0 (modStart (fun x => { x with quar := tset x.quar p.val { tget s.start.quar p.val with trying := true, attempts := (tget s.start.quar p.val).attempts + 1, nextAt := now s + 2000000000 }, waveEnd := tset x.waveEnd p.val (now s + 25000000) }) s) ∧ settRuns s = true ∧ s.dev.st ≠ .hibernate ∧ kDone s 13 = true ∧ (tget s.start.quar p.val).quarantined = true ∧ (tget s.start.quar p.val).trying = false ∧ max (tget s.start.quar p.val).nextAt s.start.readyAt ≤ now s ∧ (tget s.start.quar p.val).attempts < 15 ∧ portEligible t p.val = true)
    ∧ (∃ (p : PortId) (s : State) (t : State), t = stepOpen 0x20 p.val 0 (modStart (fun x => { x with quar := tset x.quar p.val { tget s.start.quar p.val with trying := true, attempts := (tget s.start.quar p.val).attempts + 1, nextAt := now s + 2000000000 }, waveEnd := tset x.waveEnd p.val (now s + 25000000) }) s) ∧ settRuns s = true ∧ s.dev.st ≠ .hibernate ∧ kDone s 13 = true ∧ (tget s.start.quar p.val).quarantined = true ∧ (tget s.start.quar p.val).trying = false ∧ max (tget s.start.quar p.val).nextAt s.start.readyAt ≤ now s ∧ (tget s.start.quar p.val).attempts < 15 ∧ portEligible t p.val = false)
    ∧ (∃ (p : PortId) (s : State), settRuns s = true ∧ s.dev.st ≠ .hibernate ∧ kDone s 13 = true ∧ (tget s.start.quar p.val).quarantined = true ∧ 15 ≤ (tget s.start.quar p.val).attempts)
    ∧ (∃ (p : PortId) (s : State), settRuns s = true ∧ s.dev.st ≠ .hibernate ∧ kDone s 13 = true ∧ (tget s.start.quar p.val).quarantined = true ∧ now s < (tget s.start.quar p.val).nextAt)
    ∧ (∃ (s : State), (s.dev.st ≠ .boot ∨ s.start.kind ≠ 4))
    ∧ (∃ (v : BitVec 32) (s : State) (d : _), s.dev.st = .boot ∧ s.start.kind = 4 ∧ s.start.recovMode = 1 ∧ v.getLsbD 0 = true ∧ v.getLsbD 1 = false ∧ imageFails s.fuses 1 (bar2Image s 0) = some d)
    ∧ (∃ (v : BitVec 32) (s : State) (d : _), s.dev.st = .boot ∧ s.start.kind = 4 ∧ s.start.recovMode = 2 ∧ v.getLsbD 0 = false ∧ v.getLsbD 1 = true ∧ kRuns s 5 = true ∧ imageFails s.fuses 2 (bar2Image s 0x200000) = some d) :=
  ⟨⟨modK 4 (fun x => { x with st := .running }) (inSt .boot svc), 4, by decide +kernel⟩,
   ⟨inSt .boot svc, 4, by decide +kernel⟩,
   ⟨modK 10 (fun x => { x with st := .running, began := 9825000000 }) (inSt .boot (modStart (fun x => { x with wave := 7 }) svc)), 7, by decide +kernel⟩,
   ⟨modK 10 (fun x => { x with st := .running, began := 9825000001 }) (inSt .boot (modStart (fun x => { x with wave := 7 }) svc)), 7, by decide +kernel⟩,
   ⟨(5 : PortId), modStart (fun x => { x with quar := [(5, { quarantined := true, attempts := 14, nextAt := 10000000000 })] }) { modLp 10 (fun l => { l with cfg := { l.cfg with ignorePresent := true } }) svc with ledger := { ports := 32 } }, stepOpen 0x20 ((5 : PortId)).val 0 (modStart (fun x => { x with quar := tset x.quar ((5 : PortId)).val { tget (modStart (fun x => { x with quar := [(5, { quarantined := true, attempts := 14, nextAt := 10000000000 })] }) { modLp 10 (fun l => { l with cfg := { l.cfg with ignorePresent := true } }) svc with ledger := { ports := 32 } }).start.quar ((5 : PortId)).val with trying := true, attempts := (tget (modStart (fun x => { x with quar := [(5, { quarantined := true, attempts := 14, nextAt := 10000000000 })] }) { modLp 10 (fun l => { l with cfg := { l.cfg with ignorePresent := true } }) svc with ledger := { ports := 32 } }).start.quar ((5 : PortId)).val).attempts + 1, nextAt := now (modStart (fun x => { x with quar := [(5, { quarantined := true, attempts := 14, nextAt := 10000000000 })] }) { modLp 10 (fun l => { l with cfg := { l.cfg with ignorePresent := true } }) svc with ledger := { ports := 32 } }) + 2000000000 }, waveEnd := tset x.waveEnd ((5 : PortId)).val (now (modStart (fun x => { x with quar := [(5, { quarantined := true, attempts := 14, nextAt := 10000000000 })] }) { modLp 10 (fun l => { l with cfg := { l.cfg with ignorePresent := true } }) svc with ledger := { ports := 32 } }) + 25000000) }) (modStart (fun x => { x with quar := [(5, { quarantined := true, attempts := 14, nextAt := 10000000000 })] }) { modLp 10 (fun l => { l with cfg := { l.cfg with ignorePresent := true } }) svc with ledger := { ports := 32 } })), rfl, by decide +kernel⟩,
   ⟨(5 : PortId), modStart (fun x => { x with quar := [(5, { quarantined := true, attempts := 14, nextAt := 10000000000 })] }) svc, stepOpen 0x20 ((5 : PortId)).val 0 (modStart (fun x => { x with quar := tset x.quar ((5 : PortId)).val { tget (modStart (fun x => { x with quar := [(5, { quarantined := true, attempts := 14, nextAt := 10000000000 })] }) svc).start.quar ((5 : PortId)).val with trying := true, attempts := (tget (modStart (fun x => { x with quar := [(5, { quarantined := true, attempts := 14, nextAt := 10000000000 })] }) svc).start.quar ((5 : PortId)).val).attempts + 1, nextAt := now (modStart (fun x => { x with quar := [(5, { quarantined := true, attempts := 14, nextAt := 10000000000 })] }) svc) + 2000000000 }, waveEnd := tset x.waveEnd ((5 : PortId)).val (now (modStart (fun x => { x with quar := [(5, { quarantined := true, attempts := 14, nextAt := 10000000000 })] }) svc) + 25000000) }) (modStart (fun x => { x with quar := [(5, { quarantined := true, attempts := 14, nextAt := 10000000000 })] }) svc)), rfl, by decide +kernel⟩,
   ⟨5, modStart (fun x => { x with quar := [(5, { quarantined := true, attempts := 15, nextAt := 10000000000 })] }) svc, by decide +kernel⟩,
   ⟨5, modStart (fun x => { x with quar := [(5, { quarantined := true, attempts := 14, nextAt := 10000000001 })] }) svc, by decide +kernel⟩,
   ⟨inSt .boot svc, by decide +kernel⟩,
   ⟨1, modStart (fun x => { x with kind := 4, recovMode := 1 }) (inSt .boot svc), 1, by decide +kernel⟩,
   ⟨2, modK 5 (fun x => { x with st := .running }) (modStart (fun x => { x with kind := 4, recovMode := 2 }) (inSt .boot svc)), 1, by decide +kernel⟩⟩

theorem test_hyps_Discovery :
    (∃ (s : State) (t : _), discRuns s = true ∧ s.ft.gm = true ∧ kDone s 13 = true ∧ s.io.gmSince = some t ∧ t + 1000000 ≤ now s ∧ s.disc.round = 0)
    ∧ (∃ (s : State), discRuns s = true ∧ s.ft.gm = false)
    ∧ (∃ (s : State), discRuns s = true ∧ s.disc.inRound = true ∧ s.disc.awaiting ≠ [] ∧ discDeadline s ≤ now s)
    ∧ (∃ (s : State), discRuns s = true ∧ now s < discDeadline s)
    ∧ (∃ (lp : LpId) (s : State), settRuns s = true ∧ discPort s lp.val = false)
    ∧ (∃ (lp : LpId) (m : DiscMsg) (s : State), settRuns s = true ∧ discPort s lp.val = true ∧ discRuns s = true ∧ m.round ≤ s.disc.round)
    ∧ (∃ (lp : LpId) (m : DiscMsg) (s : State), settRuns s = true ∧ discPort s lp.val = true ∧ discRuns s = true ∧ s.disc.round < m.round ∧ s.ft.parent = some lp ∧ s.ft.mode = .boot)
    ∧ (∃ (lp : LpId) (m : DiscMsg) (s : State), settRuns s = true ∧ discPort s lp.val = true ∧ discRuns s = true ∧ s.disc.round < m.round ∧ s.ft.parent = some lp ∧ s.ft.mode ≠ .boot ∧ kDone s 13 = true)
    ∧ (∃ (lp : LpId) (m : DiscMsg) (s : State), settRuns s = true ∧ discPort s lp.val = true ∧ discRuns s = true ∧ s.disc.round < m.round ∧ s.ft.parent ≠ some lp)
    ∧ (∃ (lp : LpId) (m : DiscMsg) (s : State), settRuns s = true ∧ discPort s lp.val = true ∧ discRuns s = true ∧ s.disc.inRound = true ∧ m.round = s.disc.round ∧ s.disc.awaiting = [lp.val] ∧ now s < discDeadline s ∧ m.child = true)
    ∧ (∃ (lp : LpId) (m : DiscMsg) (s : State), settRuns s = true ∧ discPort s lp.val = true ∧ discRuns s = true ∧ s.disc.from_ = some lp ∧ m.round = s.disc.round)
    ∧ (∃ (lp : LpId) (m : DiscMsg) (s : State), settRuns s = true ∧ discPort s lp.val = true ∧ discRuns s = true ∧ (s.disc.from_ ≠ some lp ∨ m.round ≠ s.disc.round)) :=
  ⟨⟨modIo (fun i => { i with gmSince := some 9999000000 }) svc, ((modIo (fun i => { i with gmSince := some 9999000000 }) svc).io.gmSince).getD default, by decide +kernel⟩,
   ⟨modFt (fun f => { f with gm := false }) svc, by decide +kernel⟩,
   ⟨modDisc (fun d => { d with inRound := true, awaiting := [20], roundStart := 9500000000 }) svc, by decide +kernel⟩,
   ⟨modDisc (fun d => { d with inRound := true, awaiting := [20], roundStart := 9500000001 }) svc, by decide +kernel⟩,
   ⟨(10 : LpId), svc, by decide +kernel⟩,
   ⟨(20 : LpId), { subtype := 1 }, svc, by decide +kernel⟩,
   ⟨(20 : LpId), { subtype := 1, round := 1 }, modFt (fun f => { f with parent := some 20, mode := .boot }) svc, by decide +kernel⟩,
   ⟨(20 : LpId), { subtype := 1, round := 1 }, modFt (fun f => { f with parent := some 20 }) svc, by decide +kernel⟩,
   ⟨(20 : LpId), { subtype := 1, round := 1 }, svc, by decide +kernel⟩,
   ⟨(20 : LpId), { subtype := 1, round := 1, child := true }, modDisc (fun d => { d with inRound := true, awaiting := [20], round := 1, roundStart := 9520000001 }) svc, by decide +kernel⟩,
   ⟨(20 : LpId), { subtype := 3, round := 1 }, modDisc (fun d => { d with from_ := some 20, round := 1 }) svc, by decide +kernel⟩,
   ⟨(20 : LpId), { subtype := 3, round := 2 }, modDisc (fun d => { d with from_ := some 20, round := 1 }) svc, by decide +kernel⟩⟩

theorem test_hyps_PfailActsAfterTwoMicroseconds :
    (∃ (s : State), s.hib.pfailLow = false)
    ∧ (∃ (s : State), s.hib.pfailLow = true)
    ∧ (∃ (s : State), s.hib.pfailLow = true ∧ now s < s.hib.lowSince + 2000)
    ∧ (∃ (s : State), s.hib.pfailLow = true ∧ s.hib.lowSince + 2000 ≤ now s) :=
  ⟨⟨svc, by decide +kernel⟩,
   ⟨{ svc with hib := { pfailLow := true, lowSince := 9999998001 } }, by decide +kernel⟩,
   ⟨{ svc with hib := { pfailLow := true, lowSince := 9999998001 } }, by decide +kernel⟩,
   ⟨{ svc with hib := { pfailLow := true, lowSince := 9999998000 } }, by decide +kernel⟩⟩

theorem test_hyps_PowerFailureAndSupplies :
    (∃ (s : State), s.hib.pfailLow = true ∧ s.hib.lowSince + 2000 ≤ now s ∧ (s.dev.st = .recovery ∨ s.dev.st = .service ∨ s.dev.st = .drain) ∧ fwRuns s = true)
    ∧ (∃ (s : State), s.hib.pfailLow = true ∧ s.hib.lowSince + 2000 ≤ now s ∧ (s.dev.st = .boot ∨ s.dev.st = .test))
    ∧ (∃ (s : State), (s.dev.st = .recovery ∨ s.dev.st = .service ∨ s.dev.st = .drain) ∧ fwRuns s = true)
    ∧ (∃ (s : State), (s.dev.st = .off ∨ s.dev.st = .grave ∨ s.dev.st = .hibernate))
    ∧ (∃ (s : State), (s.dev.st = .boot ∨ s.dev.st = .test))
    ∧ (∃ (s : State), s.dev.st = .hibernate ∧ s.hib.step = 2 ∧ (flowsLeft s = false ∨ s.hib.t0 + 20000 ≤ now s))
    ∧ (∃ (s : State), s.dev.st = .hibernate ∧ s.hib.step = 2 ∧ flowsLeft s = true ∧ now s < s.hib.t0 + 20000)
    ∧ (∃ (s : State), s.dev.st = .hibernate ∧ s.hib.step = 3 ∧ writesLeft s = false)
    ∧ (∃ (s : State), s.dev.st = .hibernate ∧ s.hib.step = 3 ∧ writesLeft s = true)
    ∧ (∃ (s : State), s.dev.st = .hibernate ∧ s.hib.step = 4)
    ∧ (∃ (s : State), s.dev.st = .hibernate ∧ s.hib.step = 5)
    ∧ (∃ (s : State), s.dev.st = .hibernate ∧ s.hib.step ≠ 5)
    ∧ (∃ (s : State), s.dev.st = .hibernate ∧ s.hib.step = 5 ∧ s.journal.primOk = true ∧ s.journal.set_ = true)
    ∧ (∃ (s : State), s.pins.vin12Low = false)
    ∧ (∃ (s : State), s.pins.vin12Low = true)
    ∧ (∃ (s : State), s.pins.vin12Low = true ∧ s.pins.vinLowAt + 1000000000 ≤ now s ∧ s.dev.st ≠ .grave)
    ∧ (∃ (s : State), s.pins.vin12Low = true ∧ s.pins.vinLowAt + 1000000000 ≤ now s ∧ s.dev.st = .grave)
    ∧ (∃ (s : State), now s < s.pins.vinLowAt + 1000000000)
    ∧ (∃ (s : State), s.dev.st ≠ .grave)
    ∧ (∃ (s : State), s.dev.st = .grave) :=
  ⟨⟨{ svc with hib := { pfailLow := true, lowSince := 9999998000 } }, by decide +kernel⟩,
   ⟨{ inSt .test svc with hib := { pfailLow := true, lowSince := 9999998000 } }, by decide +kernel⟩,
   ⟨svc, by decide +kernel⟩,
   ⟨inSt .grave svc, by decide +kernel⟩,
   ⟨inSt .boot svc, by decide +kernel⟩,
   ⟨hibAt 2, by decide +kernel⟩,
   ⟨modSl 0 (fun x => { x with trks := [(2047, { used := true })] }) (hibAt 2), by decide +kernel⟩,
   ⟨hibAt 3, by decide +kernel⟩,
   ⟨modSl 15 (fun x => { x with memHold := [7] }) (hibAt 3), by decide +kernel⟩,
   ⟨hibAt 4, by decide +kernel⟩,
   ⟨hibAt 5, by decide +kernel⟩,
   ⟨hibAt 4, by decide +kernel⟩,
   ⟨modJ (fun j => { j with set_ := true }) (hibAt 5), by decide +kernel⟩,
   ⟨svc, by decide +kernel⟩,
   ⟨{ svc with pins := { svc.pins with vin12Low := true } }, by decide +kernel⟩,
   ⟨{ svc with pins := { svc.pins with vin12Low := true, vinLowAt := 9000000000 } }, by decide +kernel⟩,
   ⟨{ inSt .grave svc with pins := { svc.pins with vin12Low := true, vinLowAt := 9000000000 } }, by decide +kernel⟩,
   ⟨{ svc with pins := { svc.pins with vin12Low := true, vinLowAt := 9000000001 } }, by decide +kernel⟩,
   ⟨svc, by decide +kernel⟩,
   ⟨inSt .grave svc, by decide +kernel⟩⟩

theorem test_hyps_DebugAccesses :
    (∃ (m : DebugMaster) (s : State), debugLives m s = false)
    ∧ (∃ (t : DebugTarget) (s : State), debugLives .jtag s = true ∧ lockedPage s t = true ∧ bitOf (unlockScope s) 0 = false)
    ∧ (∃ (t : DebugTarget) (s : State) (n : _) (u : _), u = { s with hb := { s.hb with standbyHealthy := false } } ∧ debugLives (.core n) s = true ∧ lockedPage u t = true ∧ bitOf (unlockScope u) 0 = false)
    ∧ (∃ (t : DebugTarget) (s : State) (k : _) (a : _), debugLives .jtag s = true ∧ t = .hbm k a ∧ (lockedPage s t = false ∨ bitOf (unlockScope s) 0 = true))
    ∧ (∃ (t : DebugTarget) (s : State) (a : _) (d : _) (g : _) (v : _), gateCheck g (memFrame s (a / 64) (some (d, false)) 0 0) s = (.pass, v) ∧ debugLives .jtag s = true ∧ t = .fabric a ∧ (lockedPage s t = false ∨ bitOf (unlockScope s) 0 = true) ∧ debugGate s a = some g)
    ∧ (∃ (t : DebugTarget) (s : State) (a : _) (g : _) (v : _), gateCheck g (memFrame s (a / 64) none 0 0) s = (.pass, v) ∧ debugLives .jtag s = true ∧ t = .fabric a ∧ (lockedPage s t = false ∨ bitOf (unlockScope s) 0 = true) ∧ debugGate s a = some g)
    ∧ (∃ (t : DebugTarget) (s : State) (a : _), debugLives .jtag s = true ∧ t = .fabric a ∧ (lockedPage s t = false ∨ bitOf (unlockScope s) 0 = true) ∧ debugGate s a = none) :=
  ⟨⟨.core 2, svc, by decide +kernel⟩,
   ⟨.hbm 3 (88 * 2 ^ 28), svc, by decide +kernel⟩,
   ⟨.hbm 3 (88 * 2 ^ 28), modSec (fun y => { y with unlock := some (2, 20000000000) }) svc, 2, { (modSec (fun y => { y with unlock := some (2, 20000000000) }) svc) with hb := { (modSec (fun y => { y with unlock := some (2, 20000000000) }) svc).hb with standbyHealthy := false } }, rfl, by decide +kernel⟩,
   ⟨.hbm 3 (88 * 2 ^ 28 - 1), svc, 3, 88 * 2 ^ 28 - 1, by decide +kernel⟩,
   ⟨.fabric 0x40000000, owned, 0x40000000, 0, 112, (gateCheck 112 (memFrame owned (0x40000000 / 64) (some (0, false)) 0 0) owned).2, fstIs (isPass (by decide +kernel)), by decide +kernel⟩,
   ⟨.fabric 0x40000000, owned, 0x40000000, 112, (gateCheck 112 (memFrame owned (0x40000000 / 64) none 0 0) owned).2, fstIs (isPass (by decide +kernel)), by decide +kernel⟩,
   ⟨.fabric 0, svc, 0, by decide +kernel⟩⟩

theorem test_hyps_LaneEvents :
    (∃ (lane : Fin 1024) (s : State) (n : Nat) (k : _), n = lpOfLane s lane.val ∧ portOn s n = true ∧ isDen s n = true ∧ (lpOf s n).link ≠ .disabled ∧ (lpOf s n).dl ≠ .dl2 ∧ k ≤ 15 ∧ (tget s.net.lanes lane.val).locked = false ∧ (tget s.net.lanes lane.val).streak + 1 < 64)
    ∧ (∃ (lane : Fin 1024) (s : State) (n : Nat) (k : _), n = lpOfLane s lane.val ∧ portOn s n = true ∧ isDen s n = true ∧ (lpOf s n).link ≠ .disabled ∧ (lpOf s n).dl ≠ .dl2 ∧ k ≤ 15 ∧ (tget s.net.lanes lane.val).locked = false ∧ (tget s.net.lanes lane.val).streak = 63 ∧ (lpOf s n).huntFrom = none)
    ∧ (∃ (lane : Fin 1024) (s : State) (n : Nat), n = lpOfLane s lane.val ∧ portOn s n = true ∧ isDen s n = true ∧ (lpOf s n).link ≠ .disabled ∧ (lpOf s n).dl ≠ .dl2 ∧ (tget s.net.lanes lane.val).locked = false)
    ∧ (∃ (lane : Fin 1024) (s : State) (n : Nat), n = lpOfLane s lane.val ∧ portOn s n = true ∧ isDen s n = true ∧ (lpOf s n).link ≠ .disabled ∧ (lpOf s n).dl ≠ .dl2 ∧ (tget s.net.lanes lane.val).locked = true ∧ 16 ≤ (((false :: (tget s.net.lanes lane.val).headers).take 64).filter (fun b => !b)).length)
    ∧ (∃ (lane : Fin 1024) (s : State) (n : Nat), n = lpOfLane s lane.val ∧ portOn s n = true ∧ isDen s n = true ∧ (lpOf s n).link ≠ .disabled ∧ (lpOf s n).dl ≠ .dl2 ∧ (tget s.net.lanes lane.val).locked = true ∧ (((false :: (tget s.net.lanes lane.val).headers).take 64).filter (fun b => !b)).length < 16)
    ∧ (∃ (lane : Fin 1024) (s : State) (n : Nat), n = lpOfLane s lane.val ∧ portOn s n = true ∧ isDen s n = true ∧ (lpOf s n).link ≠ .disabled ∧ (lpOf s n).dl ≠ .dl2 ∧ linkLive s n = true)
    ∧ (∃ (lane : Fin 1024) (s : State) (n : Nat), n = lpOfLane s lane.val ∧ portOn s n = true ∧ isDen s n = true ∧ (lpOf s n).link ≠ .disabled ∧ (lpOf s n).dl ≠ .dl2 ∧ linkLive s n = true ∧ (lpOf s n).dl = .dl0)
    ∧ (∃ (lane : Fin 1024) (s : State) (n : Nat) (t : _), n = lpOfLane s lane.val ∧ portOn s n = true ∧ isDen s n = true ∧ (lpOf s n).link ≠ .disabled ∧ (lpOf s n).dl ≠ .dl2 ∧ (tget s.net.lanes lane.val).huntSince = some t ∧ linkLive s n = true ∧ (initOf s n).retrain = 0 ∧ t + 100000 ≤ now s)
    ∧ (∃ (lane : Fin 1024) (s : State) (n : Nat) (t : _), n = lpOfLane s lane.val ∧ portOn s n = true ∧ isDen s n = true ∧ (lpOf s n).link ≠ .disabled ∧ (lpOf s n).dl ≠ .dl2 ∧ (tget s.net.lanes lane.val).huntSince = some t ∧ now s < t + 100000)
    ∧ (∃ (lane : Fin 1024) (s : State) (n : Nat) (lp : LpId), n = lpOfLane s lane.val ∧ portOn s n = true ∧ isDen s n = true ∧ (lpOf s n).link ≠ .disabled ∧ (lpOf s n).dl ≠ .dl2 ∧ isDen s lp.val = true ∧ (txOf s lp.val).on = true ∧ flitsPerMarker (widthNow s lp.val) ≤ (txOf s lp.val).pos)
    ∧ (∃ (lane : Fin 1024) (s : State) (n : Nat) (lp : LpId), n = lpOfLane s lane.val ∧ portOn s n = true ∧ isDen s n = true ∧ (lpOf s n).link ≠ .disabled ∧ (lpOf s n).dl ≠ .dl2 ∧ (txOf s lp.val).pos < flitsPerMarker (widthNow s lp.val))
    ∧ (∃ (lane : Fin 1024) (s : State) (n : Nat), n = lpOfLane s lane.val ∧ portOn s n = true ∧ isDen s n = true ∧ (lpOf s n).link ≠ .disabled ∧ (lpOf s n).dl ≠ .dl2) :=
  ⟨⟨(47 : Fin 1024), modLane 47 (fun l => { l with streak := 62 }) svc, lpOfLane (modLane 47 (fun l => { l with streak := 62 }) svc) ((47 : Fin 1024)).val, 15, rfl, by decide +kernel⟩,
   ⟨(47 : Fin 1024), modLane 47 (fun l => { l with streak := 63 }) svc, lpOfLane (modLane 47 (fun l => { l with streak := 63 }) svc) ((47 : Fin 1024)).val, 15, rfl, by decide +kernel⟩,
   ⟨(47 : Fin 1024), svc, lpOfLane svc ((47 : Fin 1024)).val, rfl, by decide +kernel⟩,
   ⟨(47 : Fin 1024), modLane 47 (fun l => { l with locked := true, headers := List.replicate 15 false }) svc, lpOfLane (modLane 47 (fun l => { l with locked := true, headers := List.replicate 15 false }) svc) ((47 : Fin 1024)).val, rfl, by decide +kernel⟩,
   ⟨(47 : Fin 1024), modLane 47 (fun l => { l with locked := true, headers := List.replicate 14 false }) svc, lpOfLane (modLane 47 (fun l => { l with locked := true, headers := List.replicate 14 false }) svc) ((47 : Fin 1024)).val, rfl, by decide +kernel⟩,
   ⟨(47 : Fin 1024), svc, lpOfLane svc ((47 : Fin 1024)).val, rfl, by decide +kernel⟩,
   ⟨(47 : Fin 1024), modWin 10 (fun w => { w with cw := [9999999999, 9999999998] }) svc, lpOfLane (modWin 10 (fun w => { w with cw := [9999999999, 9999999998] }) svc) ((47 : Fin 1024)).val, rfl, by decide +kernel⟩,
   ⟨(47 : Fin 1024), modLane 47 (fun l => { l with huntSince := some 9999900000 }) svc, lpOfLane (modLane 47 (fun l => { l with huntSince := some 9999900000 }) svc) ((47 : Fin 1024)).val, ((tget (modLane 47 (fun l => { l with huntSince := some 9999900000 }) svc).net.lanes ((47 : Fin 1024)).val).huntSince).getD default, rfl, by decide +kernel⟩,
   ⟨(47 : Fin 1024), modLane 47 (fun l => { l with huntSince := some 9999900001 }) svc, lpOfLane (modLane 47 (fun l => { l with huntSince := some 9999900001 }) svc) ((47 : Fin 1024)).val, ((tget (modLane 47 (fun l => { l with huntSince := some 9999900001 }) svc).net.lanes ((47 : Fin 1024)).val).huntSince).getD default, rfl, by decide +kernel⟩,
   ⟨(47 : Fin 1024), modTx 10 (fun t => { t with on := true, pos := 328960 }) svc, lpOfLane (modTx 10 (fun t => { t with on := true, pos := 328960 }) svc) ((47 : Fin 1024)).val, (10 : LpId), rfl, by decide +kernel⟩,
   ⟨(47 : Fin 1024), modTx 10 (fun t => { t with on := true, pos := 328959 }) svc, lpOfLane (modTx 10 (fun t => { t with on := true, pos := 328959 }) svc) ((47 : Fin 1024)).val, (10 : LpId), rfl, by decide +kernel⟩,
   ⟨(47 : Fin 1024), modWin 10 (fun w => { w with cw := [9999999999, 9999999998, 9999000001] }) svc, lpOfLane (modWin 10 (fun w => { w with cw := [9999999999, 9999999998, 9999000001] }) svc) ((47 : Fin 1024)).val, rfl, by decide +kernel⟩⟩

theorem test_hyps_DenInitialisation :
    (∃ (lp : LpId) (s : State), (lpOf s lp.val).link ≠ .training)
    ∧ (∃ (lp : LpId) (m : InitMsg) (s : State), (lpOf s lp.val).link = .training ∧ (initOf s lp.val).step ≠ 0 ∧ m.version = 1 ∧ m.width.toNat = widthNow s lp.val ∧ m.resume = false ∧ (initOf s lp.val).resume = false ∧ (initOf s lp.val).hellos < 7)
    ∧ (∃ (lp : LpId) (m : InitMsg) (s : State), (lpOf s lp.val).link = .training ∧ (initOf s lp.val).step = 1 ∧ m.version = 1 ∧ m.width.toNat = widthNow s lp.val ∧ m.resume = false ∧ (initOf s lp.val).resume = false ∧ (initOf s lp.val).hellos = 7)
    ∧ (∃ (lp : LpId) (m : InitMsg) (s : State), (lpOf s lp.val).link = .training ∧ 2 ≤ (initOf s lp.val).step ∧ m.version = 1 ∧ m.width.toNat = widthNow s lp.val ∧ m.resume = false ∧ (initOf s lp.val).resume = false ∧ 8 ≤ (initOf s lp.val).hellos)
    ∧ (∃ (lp : LpId) (m : InitMsg) (s : State), (lpOf s lp.val).link = .training ∧ (initOf s lp.val).step ≠ 0 ∧ (m.version ≠ 1 ∨ m.width.toNat ≠ widthNow s lp.val))
    ∧ (∃ (lp : LpId) (m : InitMsg) (s : State) (r : _), r = (ftCount s - m.echoed.toNat - m.residence.toNat) / 65536 ∧ (lpOf s lp.val).link = .training ∧ (initOf s lp.val).step = 2 ∧ (initOf s lp.val).gotDone = false ∧ r ≤ (if widthNow s lp.val = 8 then 9400 else 19300))
    ∧ (∃ (lp : LpId) (m : InitMsg) (s : State) (r : _), r = (ftCount s - m.echoed.toNat - m.residence.toNat) / 65536 ∧ (lpOf s lp.val).link = .training ∧ (initOf s lp.val).step = 2 ∧ (initOf s lp.val).gotDone = false ∧ (if widthNow s lp.val = 8 then 9400 else 19300) < r)
    ∧ (∃ (lp : LpId) (m : InitMsg) (s : State) (r : _), r = (ftCount s - m.echoed.toNat - m.residence.toNat) / 65536 ∧ (lpOf s lp.val).link = .training ∧ (initOf s lp.val).step = 2 ∧ (initOf s lp.val).gotDone = true ∧ r ≤ (if widthNow s lp.val = 8 then 9400 else 19300))
    ∧ (∃ (lp : LpId) (s : State), (lpOf s lp.val).link = .training ∧ (initOf s lp.val).step = 3)
    ∧ (∃ (lp : LpId) (s : State), (lpOf s lp.val).link = .training ∧ (initOf s lp.val).step = 2)
    ∧ (∃ (lp : LpId) (s : State), (lpOf s lp.val).link = .training ∧ (initOf s lp.val).step ≠ 0 ∧ (initOf s lp.val).began + 10000000 ≤ now s ∧ (initOf s lp.val).attempts < 2)
    ∧ (∃ (lp : LpId) (s : State), (lpOf s lp.val).link = .training ∧ (initOf s lp.val).step ≠ 0 ∧ (initOf s lp.val).began + 10000000 ≤ now s ∧ 2 ≤ (initOf s lp.val).attempts)
    ∧ (∃ (k : Nat), 80 < k)
    ∧ (∃ (lp : LpId) (marks : List (Option Nat)) (inv : BitVec 8) (k : Nat) (s : State), isDen s lp.val = true ∧ (lpOf s lp.val).link = .training ∧ (lpOf s lp.val).idleUntil = none ∧ (lpOf s lp.val).width4 = none ∧ (initOf s lp.val).step = 0 ∧ (initOf s lp.val).retrain = 0 ∧ (initOf s lp.val).want = 0 ∧ portOn s lp.val = true ∧ s.sec.tableOk = true ∧ (lanesOf s lp.val).length = 8 ∧ k ≤ 80 ∧ lp.val % 2 = 0 ∧ (∀ i, i < 8 → marks.getD i none = some i ∧ inv.getLsbD i = bitOf (laneFlags s ((lanesOf s lp.val).getD i 0)) 1))
    ∧ (∃ (lp : LpId) (marks : List (Option Nat)) (inv : BitVec 8) (k : Nat) (s : State) (l : _), isDen s lp.val = true ∧ (lpOf s lp.val).link = .training ∧ (lpOf s lp.val).idleUntil = none ∧ (lpOf s lp.val).width4 = none ∧ (initOf s lp.val).step = 0 ∧ (initOf s lp.val).retrain = 0 ∧ (initOf s lp.val).want = 0 ∧ portOn s lp.val = true ∧ s.sec.tableOk = true ∧ (lanesOf s lp.val).length = 8 ∧ k ≤ 80 ∧ lp.val % 2 = 0 ∧ (∀ i, i < 8 → marks.getD i none = some i ∧ inv.getLsbD i = bitOf (laneFlags s ((lanesOf s lp.val).getD i 0)) 1) ∧ l ∈ lanesOf s lp.val) :=
  ⟨⟨(10 : LpId), svc, by decide +kernel⟩,
   ⟨(10 : LpId), { subtype := 1 }, training (fun x => { x with step := 1, hellos := 6 }), by decide +kernel⟩,
   ⟨(10 : LpId), { subtype := 1 }, training (fun x => { x with step := 1, hellos := 7 }), by decide +kernel⟩,
   ⟨(10 : LpId), ({ subtype := 1 } : InitMsg), training (fun x => { x with step := 2, hellos := 8 }), by decide +kernel⟩,
   ⟨(10 : LpId), { subtype := 1, width := 4 }, training (fun x => { x with step := 2 }), by decide +kernel⟩,
   ⟨(10 : LpId), ({ subtype := 2, echoed := 2 ^ 64 - 1 } : InitMsg), training (fun x => { x with step := 2 }), (ftCount (training (fun x => { x with step := 2 })) - (({ subtype := 2, echoed := 2 ^ 64 - 1 } : InitMsg)).echoed.toNat - (({ subtype := 2, echoed := 2 ^ 64 - 1 } : InitMsg)).residence.toNat) / 65536, rfl, by decide +kernel⟩,
   ⟨(10 : LpId), ({ subtype := 2 } : InitMsg), training (fun x => { x with step := 2 }), (ftCount (training (fun x => { x with step := 2 })) - (({ subtype := 2 } : InitMsg)).echoed.toNat - (({ subtype := 2 } : InitMsg)).residence.toNat) / 65536, rfl, by decide +kernel⟩,
   ⟨(10 : LpId), ({ subtype := 2, echoed := 2 ^ 64 - 1 } : InitMsg), training (fun x => { x with step := 2, gotDone := true }), (ftCount (training (fun x => { x with step := 2, gotDone := true })) - (({ subtype := 2, echoed := 2 ^ 64 - 1 } : InitMsg)).echoed.toNat - (({ subtype := 2, echoed := 2 ^ 64 - 1 } : InitMsg)).residence.toNat) / 65536, rfl, by decide +kernel⟩,
   ⟨(10 : LpId), training (fun x => { x with step := 3 }), by decide +kernel⟩,
   ⟨(10 : LpId), training (fun x => { x with step := 2 }), by decide +kernel⟩,
   ⟨(10 : LpId), atNs 10010000000 (training (fun x => { x with step := 1, attempts := 1 })), by decide +kernel⟩,
   ⟨(10 : LpId), atNs 10010000000 (training (fun x => { x with step := 1, attempts := 2 })), by decide +kernel⟩,
   ⟨81, by decide +kernel⟩,
   ⟨(10 : LpId), (List.range 8).map some, 0, 80, training id, by decide +kernel⟩,
   ⟨(10 : LpId), (List.range 8).map some, 0, 80, training id, 47, by decide +kernel⟩⟩

theorem test_hyps_FlitTransmissionAndReception :
    (∃ (lp : LpId) (s : State), isDen s lp.val = true ∧ portOn s lp.val = false)
    ∧ (∃ (lp : LpId) (s : State), isDen s lp.val = true ∧ (lpOf s lp.val).dl ≠ .dl0)
    ∧ (∃ (lp : LpId) (s : State) (t : _), isDen s lp.val = true ∧ (lpOf s lp.val).idleUntil = some t)
    ∧ (∃ (lp : LpId) (s : State), isDen s lp.val = true ∧ portOn s lp.val = true ∧ (lpOf s lp.val).dl = .dl0 ∧ (lpOf s lp.val).idleUntil = none ∧ (lpOf s lp.val).link = .training ∧ ((initOf s lp.val).step = 1 ∨ (initOf s lp.val).step = 2))
    ∧ (∃ (lp : LpId) (s : State), isDen s lp.val = true ∧ portOn s lp.val = true ∧ (lpOf s lp.val).dl = .dl0 ∧ (lpOf s lp.val).idleUntil = none ∧ (lpOf s lp.val).link = .training ∧ (initOf s lp.val).step = 3)
    ∧ (∃ (lp : LpId) (s : State) (x : _), isDen s lp.val = true ∧ portOn s lp.val = true ∧ (lpOf s lp.val).dl = .dl0 ∧ (lpOf s lp.val).idleUntil = none ∧ linkLive s lp.val = true ∧ nextRetx (txOf s lp.val) = some x)
    ∧ (∃ (lp : LpId) (s : State) (m : _) (r : _), isDen s lp.val = true ∧ portOn s lp.val = true ∧ (lpOf s lp.val).dl = .dl0 ∧ (lpOf s lp.val).idleUntil = none ∧ linkLive s lp.val = true ∧ nextRetx (txOf s lp.val) = none ∧ (txOf s lp.val).times = m :: r)
    ∧ (∃ (lp : LpId) (s : State) (m : _) (r : _), isDen s lp.val = true ∧ portOn s lp.val = true ∧ (lpOf s lp.val).dl = .dl0 ∧ (lpOf s lp.val).idleUntil = none ∧ linkLive s lp.val = true ∧ nextRetx (txOf s lp.val) = none ∧ (txOf s lp.val).times = [] ∧ (txOf s lp.val).replay.length < 4096 ∧ (txOf s lp.val).ctrls = m :: r)
    ∧ (∃ (lp : LpId) (s : State) (u : _), sendData lp.val s = some u ∧ isDen s lp.val = true ∧ portOn s lp.val = true ∧ (lpOf s lp.val).dl = .dl0 ∧ (lpOf s lp.val).idleUntil = none ∧ linkLive s lp.val = true ∧ nextRetx (txOf s lp.val) = none ∧ (txOf s lp.val).times = [] ∧ (txOf s lp.val).replay.length < 4096 ∧ (txOf s lp.val).ctrls = [] ∧ lpUp s lp.val = true ∧ dataBarred s lp.val = false)
    ∧ (∃ (lp : LpId) (s : State), isDen s lp.val = true ∧ portOn s lp.val = true ∧ (lpOf s lp.val).dl = .dl0 ∧ (lpOf s lp.val).idleUntil = none ∧ linkLive s lp.val = true ∧ nextRetx (txOf s lp.val) = none ∧ (txOf s lp.val).times = [] ∧ (txOf s lp.val).replay.length < 4096 ∧ (txOf s lp.val).ctrls = [] ∧ (lpUp s lp.val = false ∨ dataBarred s lp.val = true ∨ sendData lp.val s = none))
    ∧ (∃ (lp : LpId) (s : State), isDen s lp.val = true ∧ portOn s lp.val = true ∧ (lpOf s lp.val).dl = .dl0 ∧ (lpOf s lp.val).idleUntil = none ∧ linkLive s lp.val = true ∧ nextRetx (txOf s lp.val) = none ∧ (txOf s lp.val).times = [] ∧ 4096 ≤ (txOf s lp.val).replay.length)
    ∧ (∃ (lp : LpId) (s : State), isDen s lp.val = true)
    ∧ (∃ (lp : LpId) (s : State), isDen s lp.val = true ∧ (lpOf s lp.val).idleUntil = none ∧ portOn s lp.val = true ∧ (lpOf s lp.val).dl = .dl2)
    ∧ (∃ (lp : LpId) (s : State), isDen s lp.val = true ∧ (lpOf s lp.val).idleUntil = none ∧ portOn s lp.val = true ∧ linkLive s lp.val = true ∧ (lpOf s lp.val).dl = .dl0 ∧ (lpOf s lp.val).l1 = false ∧ (countFlit lp.val s).1 = true)
    ∧ (∃ (lp : LpId) (d : Bytes) (r : List Bytes) (s : State) (p : Bytes), p = flitFrom s lp.val (d :: r) ∧ isDen s lp.val = true ∧ (lpOf s lp.val).idleUntil = none ∧ portOn s lp.val = true ∧ linkLive s lp.val = true ∧ (lpOf s lp.val).dl = .dl0 ∧ (lpOf s lp.val).l1 = false ∧ (countFlit lp.val s).1 = false ∧ (crc64 (p.take 248)).toNat ≠ fieldAt p 248 8)
    ∧ (∃ (lp : LpId) (d : Bytes) (r : List Bytes) (s : State) (p : Bytes), p = flitFrom s lp.val (d :: r) ∧ isDen s lp.val = true ∧ (lpOf s lp.val).idleUntil = none ∧ portOn s lp.val = true ∧ linkLive s lp.val = true ∧ (lpOf s lp.val).dl = .dl0 ∧ (lpOf s lp.val).l1 = false ∧ (countFlit lp.val s).1 = false ∧ (crc64 (p.take 248)).toNat = fieldAt p 248 8 ∧ 5 ≤ bitsOf (fieldAt p 0 8) 48 4)
    ∧ (∃ (lp : LpId) (d : Bytes) (r : List Bytes) (s : State) (p : Bytes), p = flitFrom s lp.val (d :: r) ∧ isDen s lp.val = true ∧ (lpOf s lp.val).idleUntil = none ∧ portOn s lp.val = true ∧ linkLive s lp.val = true ∧ (lpOf s lp.val).dl = .dl0 ∧ (lpOf s lp.val).l1 = false ∧ (countFlit lp.val s).1 = false ∧ (crc64 (p.take 248)).toNat = fieldAt p 248 8 ∧ bitsOf (fieldAt p 0 8) 48 4 = 0)
    ∧ (∃ (lp : LpId) (d : Bytes) (r : List Bytes) (s : State) (p : Bytes), p = flitFrom s lp.val (d :: r) ∧ isDen s lp.val = true ∧ (lpOf s lp.val).idleUntil = none ∧ portOn s lp.val = true ∧ linkLive s lp.val = true ∧ (lpOf s lp.val).dl = .dl0 ∧ (lpOf s lp.val).l1 = false ∧ (countFlit lp.val s).1 = false ∧ (crc64 (p.take 248)).toNat = fieldAt p 248 8 ∧ bitsOf (fieldAt p 0 8) 48 4 = 4)
    ∧ (∃ (lp : LpId) (d : Bytes) (r : List Bytes) (s : State) (p : Bytes) (ty : _), p = flitFrom s lp.val (d :: r) ∧ isDen s lp.val = true ∧ (lpOf s lp.val).idleUntil = none ∧ portOn s lp.val = true ∧ linkLive s lp.val = true ∧ (lpOf s lp.val).dl = .dl0 ∧ (lpOf s lp.val).l1 = false ∧ (countFlit lp.val s).1 = false ∧ (crc64 (p.take 248)).toNat = fieldAt p 248 8 ∧ bitsOf (fieldAt p 0 8) 48 4 = ty ∧ (ty = 1 ∨ ty = 2))
    ∧ (∃ (lp : LpId) (d : Bytes) (r : List Bytes) (s : State) (p : Bytes), p = flitFrom s lp.val (d :: r) ∧ isDen s lp.val = true ∧ (lpOf s lp.val).idleUntil = none ∧ portOn s lp.val = true ∧ (lpOf s lp.val).link = .training ∧ (lpOf s lp.val).dl = .dl0 ∧ (lpOf s lp.val).l1 = false ∧ (countFlit lp.val s).1 = false ∧ (crc64 (p.take 248)).toNat = fieldAt p 248 8 ∧ bitsOf (fieldAt p 0 8) 48 4 = 3)
    ∧ (∃ (lp : LpId) (s : State), isDen s lp.val = true ∧ (lpOf s lp.val).idleUntil = none ∧ portOn s lp.val = true ∧ (lpOf s lp.val).dl = .dl1 ∧ (lpOf s lp.val).l1 = false ∧ (lpOf s lp.val).dlExit = none) :=
  ⟨⟨(10 : LpId), modDom 5 (fun x => { x with st := .off }) svc, by decide +kernel⟩,
   ⟨(10 : LpId), modLp 10 (fun l => { l with dl := .dl1 }) svc, by decide +kernel⟩,
   ⟨(10 : LpId), modLp 10 (fun l => { l with idleUntil := some 5 }) svc, 5, by decide +kernel⟩,
   ⟨(10 : LpId), training (fun x => { x with step := 1 }), by decide +kernel⟩,
   ⟨(10 : LpId), training (fun x => { x with step := 3 }), by decide +kernel⟩,
   ⟨(10 : LpId), modTx 10 (fun t => { t with retx := [5], replay := [{ seq := 5 }] }) svc, (nextRetx (txOf (modTx 10 (fun t => { t with retx := [5], replay := [{ seq := 5 }] }) svc) ((10 : LpId)).val)).getD default, by decide +kernel⟩,
   ⟨(10 : LpId), modTx 10 (fun t => { t with times := [{ subtype := 1 }] }) svc, ((txOf (modTx 10 (fun t => { t with times := [{ subtype := 1 }] }) svc) ((10 : LpId)).val).times).headD default, ((txOf (modTx 10 (fun t => { t with times := [{ subtype := 1 }] }) svc) ((10 : LpId)).val).times).tail, by decide +kernel⟩,
   ⟨(10 : LpId), modTx 10 (fun t => { t with ctrls := [{ subtype := 1 }] }) svc, ((txOf (modTx 10 (fun t => { t with ctrls := [{ subtype := 1 }] }) svc) ((10 : LpId)).val).ctrls).headD default, ((txOf (modTx 10 (fun t => { t with ctrls := [{ subtype := 1 }] }) svc) ((10 : LpId)).val).ctrls).tail, by decide +kernel⟩,
   ⟨(10 : LpId), modTx 10 (fun t => { t with frames := [{ f := { did := 0x10 }, rest := zeros 32 }] }) credited, (sendData 10 (modTx 10 (fun t => { t with frames := [{ f := { did := 0x10 }, rest := zeros 32 }] }) credited)).getD svc, isSomeOr svc (by decide +kernel), by decide +kernel⟩,
   ⟨(10 : LpId), svc, by decide +kernel⟩,
   ⟨(10 : LpId), modTx 10 (fun t => { t with replay := List.replicate 4096 { seq := 0 } }) svc, by decide +kernel⟩,
   ⟨(10 : LpId), svc, by decide +kernel⟩,
   ⟨(10 : LpId), modLp 10 (fun l => { l with dl := .dl2 }) svc, by decide +kernel⟩,
   ⟨(10 : LpId), modRx 10 (fun r => { r with bad := [(0, 1)] }) svc, by decide +kernel⟩,
   ⟨(10 : LpId), zeros 32, List.replicate 7 (zeros 32), laned svc, flitFrom (laned svc) ((10 : LpId)).val ((zeros 32) :: (List.replicate 7 (zeros 32))), rfl, by decide +kernel⟩,
   ⟨(10 : LpId), stripe 8 0 (flitOf 5), others (flitOf 5), laned svc, flitFrom (laned svc) ((10 : LpId)).val ((stripe 8 0 (flitOf 5)) :: (others (flitOf 5))), rfl, by decide +kernel⟩,
   ⟨(10 : LpId), stripe 8 0 (flitOf 0), others (flitOf 0), laned svc, flitFrom (laned svc) ((10 : LpId)).val ((stripe 8 0 (flitOf 0)) :: (others (flitOf 0))), rfl, by decide +kernel⟩,
   ⟨(10 : LpId), stripe 8 0 (flitOf 4), others (flitOf 4), laned svc, flitFrom (laned svc) ((10 : LpId)).val ((stripe 8 0 (flitOf 4)) :: (others (flitOf 4))), rfl, by decide +kernel⟩,
   ⟨(10 : LpId), stripe 8 0 (flitOf 2), others (flitOf 2), laned svc, flitFrom (laned svc) ((10 : LpId)).val ((stripe 8 0 (flitOf 2)) :: (others (flitOf 2))), 2, rfl, by decide +kernel⟩,
   ⟨(10 : LpId), stripe 8 0 (flitOf 3), others (flitOf 3), laned (training id), flitFrom (laned (training id)) ((10 : LpId)).val ((stripe 8 0 (flitOf 3)) :: (others (flitOf 3))), rfl, by decide +kernel⟩,
   ⟨(10 : LpId), modLp 10 (fun l => { l with dl := .dl1 }) svc, by decide +kernel⟩⟩

theorem test_hyps_AckStallDeclaresLinkDown :
    (∃ (lp : LpId) (s : State), linkLive s lp.val = true ∧ (txOf s lp.val).next ≠ (txOf s lp.val).unacked ∧ (txOf s lp.val).lastAdv + 1000000 ≤ now s)
    ∧ (∃ (lp : LpId) (s : State), (txOf s lp.val).next = (txOf s lp.val).unacked)
    ∧ (∃ (lp : LpId) (s : State), now s < (txOf s lp.val).lastAdv + 1000000) :=
  ⟨⟨(10 : LpId), modTx 10 (fun t => { t with next := 1, lastAdv := 9999000000 }) svc, by decide +kernel⟩,
   ⟨(10 : LpId), svc, by decide +kernel⟩,
   ⟨(10 : LpId), modTx 10 (fun t => { t with next := 1, lastAdv := 9999000001 }) svc, by decide +kernel⟩⟩

theorem test_hyps_LinkTimersAndPowerStates :
    (∃ (lp : LpId) (s : State), linkLive s lp.val = true ∧ (txOf s lp.val).next ≠ (txOf s lp.val).unacked ∧ max (txOf s lp.val).lastAdv (txOf s lp.val).lastTo + 2 * (txOf s lp.val).rtt + 1000 < now s)
    ∧ (∃ (lp : LpId) (s : State), (txOf s lp.val).next = (txOf s lp.val).unacked)
    ∧ (∃ (lp : LpId) (s : State) (t : _), (lpOf s lp.val).idleUntil = some t ∧ t ≤ now s ∧ isDen s lp.val = true ∧ (lpOf s lp.val).link = .training ∧ portOn s lp.val = true)
    ∧ (∃ (lp : LpId) (s : State) (t : _), (lpOf s lp.val).idleUntil = some t ∧ t ≤ now s ∧ isDen s lp.val = false)
    ∧ (∃ (lp : LpId) (s : State) (t : _), (lpOf s lp.val).idleUntil = some t ∧ now s < t)
    ∧ (∃ (lp : LpId) (s : State) (t : _), (lpOf s lp.val).link = .probation ∧ (lpOf s lp.val).probation = some t ∧ t ≤ now s)
    ∧ (∃ (lp : LpId) (s : State) (t : _), (lpOf s lp.val).probation = some t ∧ now s < t)
    ∧ (∃ (lp : LpId) (s : State), linkLive s lp.val = true ∧ isCxl s lp.val = true)
    ∧ (∃ (lp : LpId) (s : State), linkLive s lp.val = true ∧ isCxl s lp.val = false ∧ (cfgOf s lp.val).crcLimit ≤ (slide (now s) (cfgOf s lp.val).window (winOf s lp.val).crc).length)
    ∧ (∃ (lp : LpId) (s : State), linkLive s lp.val = true ∧ isCxl s lp.val = false ∧ (cfgOf s lp.val).protoLimit ≤ (slide (now s) (cfgOf s lp.val).window (winOf s lp.val).proto).length)
    ∧ (∃ (lp : LpId) (s : State), isDen s lp.val = true ∧ (lpOf s lp.val).link = .up ∧ (lpOf s lp.val).dl = .dl0 ∧ (lpOf s lp.val).dlReq = 0 ∧ (lpOf s lp.val).dl1Barred = false ∧ linkQuiet s lp.val = true ∧ (lpOf s lp.val).lastFlit + (lpOf s lp.val).idle ≤ now s)
    ∧ (∃ (lp : LpId) (s : State), isDen s lp.val = true ∧ (lpOf s lp.val).link = .up ∧ now s < (lpOf s lp.val).lastFlit + (lpOf s lp.val).idle)
    ∧ (∃ (lp : LpId) (s : State), isDen s lp.val = true ∧ (lpOf s lp.val).link = .up ∧ (lpOf s lp.val).dl = .dl0 ∧ (lpOf s lp.val).dlReq = 1)
    ∧ (∃ (lp : LpId) (s : State), isDen s lp.val = true ∧ (lpOf s lp.val).link = .up ∧ (lpOf s lp.val).dl = .dl0 ∧ (lpOf s lp.val).dlReq = 0 ∧ nothingQueued s lp.val = false)
    ∧ (∃ (lp : LpId) (s : State), isDen s lp.val = true ∧ (lpOf s lp.val).link = .up ∧ (lpOf s lp.val).dl = .dl0 ∧ (lpOf s lp.val).dlReq = 0 ∧ (lpOf s lp.val).dl1Barred = false ∧ nothingQueued s lp.val = true ∧ (txOf s lp.val).next = (txOf s lp.val).unacked ∧ (txOf s lp.val).ctrls = [])
    ∧ (∃ (lp : LpId) (s : State), isDen s lp.val = true ∧ (lpOf s lp.val).link = .up ∧ (lpOf s lp.val).dl = .dl0 ∧ (lpOf s lp.val).dlReq = 4 ∧ allAcked s lp.val = true ∧ (txOf s lp.val).ctrls = [])
    ∧ (∃ (lp : LpId) (s : State), isDen s lp.val = true ∧ (lpOf s lp.val).link = .up ∧ (lpOf s lp.val).dlReq = 1)
    ∧ (∃ (lp : LpId) (s : State), isDen s lp.val = true ∧ (lpOf s lp.val).link = .up ∧ (lpOf s lp.val).dl ≠ .dl2 ∧ twinOf s lp.val = none ∧ (lpOf s lp.val).dlReq ≠ 2)
    ∧ (∃ (lp : LpId) (s : State), isDen s lp.val = true ∧ (lpOf s lp.val).link = .up ∧ (lpOf s lp.val).dl ≠ .dl2 ∧ twinOf s lp.val = none ∧ (lpOf s lp.val).dlReq = 2)
    ∧ (∃ (lp : LpId) (s : State), isDen s lp.val = true ∧ (lpOf s lp.val).link = .up ∧ (twinOf s lp.val).isSome = true)
    ∧ (∃ (lp : LpId) (s : State), isDen s lp.val = true ∧ (lpOf s lp.val).link = .up ∧ (lpOf s lp.val).dlReq = 2)
    ∧ (∃ (lp : LpId) (s : State) (t : _), isDen s lp.val = true ∧ (lpOf s lp.val).link = .up ∧ (lpOf s lp.val).dlExit = some t ∧ now s < t)
    ∧ (∃ (lp : LpId) (s : State) (t : _), isDen s lp.val = true ∧ (lpOf s lp.val).link = .up ∧ (lpOf s lp.val).dlExit = some t ∧ t ≤ now s ∧ (lpOf s lp.val).dl = .dl1 ∧ (lpOf s lp.val).dlReq = 0 ∧ (∀ k ∈ lanesOf s lp.val, (tget s.net.lanes k).locked = true)) :=
  ⟨⟨(10 : LpId), modTx 10 (fun t => { t with next := 1, lastAdv := 9999996999, rtt := 1000 }) svc, by decide +kernel⟩,
   ⟨(10 : LpId), svc, by decide +kernel⟩,
   ⟨(10 : LpId), modLp 10 (fun l => { l with link := .training, idleUntil := some 10000000000 }) svc, 10000000000, by decide +kernel⟩,
   ⟨(30 : LpId), modLp 30 (fun l => { l with idleUntil := some 10000000000 }) svc, 10000000000, by decide +kernel⟩,
   ⟨(10 : LpId), modLp 10 (fun l => { l with idleUntil := some 10000000001 }) svc, ((lpOf (modLp 10 (fun l => { l with idleUntil := some 10000000001 }) svc) ((10 : LpId)).val).idleUntil).getD default, by decide +kernel⟩,
   ⟨(10 : LpId), modLp 10 (fun l => { l with link := .probation, probation := some 10000000000 }) svc, ((lpOf (modLp 10 (fun l => { l with link := .probation, probation := some 10000000000 }) svc) ((10 : LpId)).val).probation).getD default, by decide +kernel⟩,
   ⟨(10 : LpId), modLp 10 (fun l => { l with link := .probation, probation := some 10000000001 }) svc, ((lpOf (modLp 10 (fun l => { l with link := .probation, probation := some 10000000001 }) svc) ((10 : LpId)).val).probation).getD default, by decide +kernel⟩,
   ⟨(30 : LpId), svc, by decide +kernel⟩,
   ⟨(10 : LpId), modWin 10 (fun w => { w with crc := List.replicate 65 9999000001 }) svc, by decide +kernel⟩,
   ⟨(10 : LpId), modWin 10 (fun w => { w with proto := List.replicate 256 9999000001 }) svc, by decide +kernel⟩,
   ⟨(10 : LpId), modLp 10 (fun l => { l with lastFlit := 9999950000 }) svc, by decide +kernel⟩,
   ⟨(10 : LpId), modLp 10 (fun l => { l with lastFlit := 9999950001 }) svc, by decide +kernel⟩,
   ⟨(10 : LpId), modLp 10 (fun l => { l with dlReq := 1 }) svc, by decide +kernel⟩,
   ⟨(10 : LpId), modTx 10 (fun t => { t with frames := [{}] }) svc, by decide +kernel⟩,
   ⟨(10 : LpId), svc, by decide +kernel⟩,
   ⟨(10 : LpId), modLp 10 (fun l => { l with dlReq := 4 }) svc, by decide +kernel⟩,
   ⟨(10 : LpId), modLp 10 (fun l => { l with dlReq := 1 }) svc, by decide +kernel⟩,
   ⟨(10 : LpId), svc, by decide +kernel⟩,
   ⟨(10 : LpId), modLp 10 (fun l => { l with dlReq := 2 }) svc, by decide +kernel⟩,
   ⟨(10 : LpId), twinned, by decide +kernel⟩,
   ⟨(10 : LpId), modLp 10 (fun l => { l with dlReq := 2 }) svc, by decide +kernel⟩,
   ⟨(10 : LpId), modLp 10 (fun l => { l with dlExit := some 10000000001 }) svc, ((lpOf (modLp 10 (fun l => { l with dlExit := some 10000000001 }) svc) ((10 : LpId)).val).dlExit).getD default, by decide +kernel⟩,
   ⟨(10 : LpId), laned (modLp 10 (fun l => { l with dl := .dl1, dlExit := some 10000000000 }) svc), 10000000000, by decide +kernel⟩⟩

theorem test_hyps_TwinsAndRetrains :
    (∃ (lp : LpId) (s : State), linkLive s lp.val = true ∧ twinOf s lp.val = none)
    ∧ (∃ (lp : LpId) (s : State) (t : _), linkLive s lp.val = true ∧ twinOf s lp.val = some t ∧ (lpOf s lp.val).link = .up ∧ (failOf s t).step = 4)
    ∧ (∃ (lp : LpId) (s : State), (failOf s lp.val).step = 4 ∧ (failOf s lp.val).sentAt + 1000000 ≤ now s)
    ∧ (∃ (lp : LpId) (s : State), now s < (failOf s lp.val).sentAt + 1000000)
    ∧ (∃ (lp : LpId) (s : State), linkLive s lp.val = true)
    ∧ (∃ (lp : LpId) (s : State) (t : _), twinOf s lp.val = some t ∧ (failOf s t).sentFailback = true ∧ lpUp s t = true)
    ∧ (∃ (s : State) (did : BitVec 12), carries s (tget s.sw.holds did.toNat).oldLp did.toNat = true)
    ∧ (∃ (lp : LpId) (s : State) (did : BitVec 12) (o : _), (failOf s lp.val).returning = true ∧ (tget s.sw.holds did.toNat).why = some .failback ∧ (failOf s lp.val).moved.contains did.toNat = true ∧ (tget s.sw.holds did.toNat).oldLp = o ∧ carries s o did.toNat = false)
    ∧ (∃ (lp : LpId) (s : State), linkLive s lp.val = true ∧ (initOf s lp.val).retrain = 0)
    ∧ (∃ (lp : LpId) (m : CtrlMsg) (s : State), linkLive s lp.val = true ∧ ((initOf s lp.val).retrain = 1 ∨ (initOf s lp.val).retrain = 2) ∧ keepsOwn s lp.val m = true)
    ∧ (∃ (lp : LpId) (m : CtrlMsg) (s : State), linkLive s lp.val = true ∧ (initOf s lp.val).retrain = 1 ∧ keepsOwn s lp.val m = false)
    ∧ (∃ (lp : LpId) (s : State), linkLive s lp.val = true ∧ (initOf s lp.val).retrain = 1)
    ∧ (∃ (lp : LpId) (s : State), linkLive s lp.val = true ∧ (initOf s lp.val).retrain = 2)
    ∧ (∃ (lp : LpId) (s : State), linkLive s lp.val = true ∧ (initOf s lp.val).held = true ∧ (txOf s lp.val).replay = [] ∧ (txOf s lp.val).frames = [] ∧ liveTwin s lp.val = none)
    ∧ (∃ (lp : LpId) (s : State), linkLive s lp.val = true ∧ (initOf s lp.val).held = false) :=
  ⟨⟨(10 : LpId), svc, by decide +kernel⟩,
   ⟨(10 : LpId), modFail 12 (fun f => { f with step := 4 }) twinned, (twinOf (modFail 12 (fun f => { f with step := 4 }) twinned) ((10 : LpId)).val).getD default, by decide +kernel⟩,
   ⟨(10 : LpId), modFail 10 (fun f => { f with step := 4, sentAt := 9999000000 }) svc, by decide +kernel⟩,
   ⟨(10 : LpId), modFail 10 (fun f => { f with step := 4, sentAt := 9999000001 }) svc, by decide +kernel⟩,
   ⟨(10 : LpId), svc, by decide +kernel⟩,
   ⟨(10 : LpId), modFail 12 (fun f => { f with sentFailback := true }) twinned, (twinOf (modFail 12 (fun f => { f with sentFailback := true }) twinned) ((10 : LpId)).val).getD default, by decide +kernel⟩,
   ⟨modTx 12 (fun t => { t with frames := [{ f := { did := 0x100 } }] }) (modFail 10 (fun f => { f with returning := true }) (modSw (fun w => { w with holds := [(0x100, { why := some .failback, oldLp := 12 })] }) twinned)), (0x100 : BitVec 12), by decide +kernel⟩,
   ⟨(10 : LpId), modFail 10 (fun f => { f with returning := true, moved := [0x100] }) (modSw (fun w => { w with holds := [(0x100, { why := some .failback, oldLp := 12 })] }) twinned), (0x100 : BitVec 12), 12, by decide +kernel⟩,
   ⟨(10 : LpId), svc, by decide +kernel⟩,
   ⟨(10 : LpId), { subtype := 1 }, modInit 10 (fun x => { x with retrain := 1 }) svc, by decide +kernel⟩,
   ⟨(10 : LpId), ({ subtype := 1, serial := 1 } : CtrlMsg), modInit 10 (fun i => { i with retrain := 1 }) svc, by decide +kernel⟩,
   ⟨(10 : LpId), modInit 10 (fun x => { x with retrain := 1 }) svc, by decide +kernel⟩,
   ⟨(10 : LpId), modInit 10 (fun x => { x with retrain := 2 }) svc, by decide +kernel⟩,
   ⟨(10 : LpId), modInit 10 (fun x => { x with held := true }) svc, by decide +kernel⟩,
   ⟨(10 : LpId), svc, by decide +kernel⟩⟩

theorem test_hyps_TimeBetweenModules :
    (∃ (s : State), timeRuns s = true ∧ s.ft.lastAnnounce + 10000 ≤ now s)
    ∧ (∃ (s : State), timeRuns s = true ∧ now s < s.ft.lastAnnounce + 10000)
    ∧ (∃ (s : State) (lp : LpId), timeRuns s = true ∧ timePort s lp.val = false)
    ∧ (∃ (s : State) (lp : LpId) (m : TimeMsg) (t : _), t = elect { s with ft := { s.ft with heard := tset s.ft.heard lp.val { msg := m, at_ := now s, valid := decide (m.steps < 15) && !m.leaving } } } ∧ timeRuns s = true ∧ timePort s lp.val = true ∧ (tget s.ft.heard lp.val).valid = false ∧ t.ft.gm = true)
    ∧ (∃ (s : State) (lp : LpId) (m : TimeMsg) (t : _), t = elect { s with ft := { s.ft with heard := tset s.ft.heard lp.val { msg := m, at_ := now s, valid := decide (m.steps < 15) && !m.leaving } } } ∧ timeRuns s = true ∧ timePort s lp.val = true ∧ (tget s.ft.heard lp.val).valid = false ∧ t.ft.gm = false ∧ t.ft.parent = some lp)
    ∧ (∃ (s : State), timeRuns s = true ∧ s.ft.gm = true)
    ∧ (∃ (s : State) (p : _), timeRuns s = true ∧ s.ft.gm = false ∧ s.ft.parent = some p ∧ heardNow s = [])
    ∧ (∃ (s : State) (p : _) (q : _) (x : Heard), timeRuns s = true ∧ s.ft.gm = false ∧ s.ft.parent = some p ∧ heardNow s = [(q, x)] ∧ better x.msg.gmPrio x.msg.gmSerial s.io.prio s.fuses.serial.toNat = true ∧ (x.msg.gmPrio ≠ s.ft.gmPrio ∨ x.msg.gmSerial ≠ s.ft.gmSerial))
    ∧ (∃ (s : State) (p : _), timeRuns s = true ∧ s.ft.gm = false ∧ s.ft.parent = some p ∧ timePort s p.val = true ∧ s.ft.lastDelayReq + 125000 ≤ now s)
    ∧ (∃ (s : State) (lp : LpId), timeRuns s = true ∧ timePort s lp.val = true)
    ∧ (∃ (s : State) (m : TimeMsg), timeRuns s = true ∧ s.ft.waiting.map (·.1) ≠ some m.exchange)
    ∧ (∃ (lp : LpId) (m : TimeMsg) (s : State) (x : Nat) (at_ : Nat) (o : Int), o = (((m.t2 : Int) - (m.t1 : Int)) - ((stamp64 s : Int) - (m.sendTime : Int))) / 2 - (tget s.io.entries lp.val).asym * 1024 ∧ timeRuns s = true ∧ s.ft.gm = false ∧ s.ft.parent = some lp ∧ s.ft.waiting = some (x, at_) ∧ m.exchange = x ∧ (s.ft.acquired = false ∨ 20000 * 65536 < o.natAbs))
    ∧ (∃ (lp : LpId) (m : TimeMsg) (s : State) (x : Nat) (at_ : Nat) (o : Int), o = (((m.t2 : Int) - (m.t1 : Int)) - ((stamp64 s : Int) - (m.sendTime : Int))) / 2 - (tget s.io.entries lp.val).asym * 1024 ∧ timeRuns s = true ∧ s.ft.gm = false ∧ s.ft.parent = some lp ∧ s.ft.waiting = some (x, at_) ∧ m.exchange = x ∧ s.ft.acquired = true ∧ o.natAbs ≤ 20000 * 65536)
    ∧ (∃ (s : State), s.ft.gm = false)
    ∧ (∃ (s : State), s.ft.gm = true ∧ s.ft.mode = .external ∧ s.io.pendingSet = none)
    ∧ (∃ (s : State) (sec : _), s.ft.gm = true ∧ s.ft.mode = .external ∧ s.io.pendingSet = some sec)
    ∧ (∃ (s : State), s.ft.gm = true ∧ s.ft.mode = .external)
    ∧ (∃ (s : State) (p : _), s.io.lastPps = some p ∧ p + 1000002000 ≤ now s ∧ s.ft.gm = true ∧ s.ft.mode = .external)
    ∧ (∃ (s : State) (p : _), s.io.lastPps = some p ∧ now s < p + 1000002000)
    ∧ (∃ (s : State) (o : _), s.io.ppsOk = true ∧ s.io.okSince = some o ∧ o + 2000000000 ≤ now s ∧ s.ft.gm = true ∧ s.io.extRef = true ∧ s.ft.mode = .holdover)
    ∧ (∃ (s : State), s.io.extRef = false)
    ∧ (∃ (s : State), kDone s 8 = true ∧ timeRuns s = true ∧ s.ft.mode = .boot ∧ s.ft.gm = false ∧ heardNow s = [] ∧ (kOf s 8).ended + 30000 ≤ now s)
    ∧ (∃ (s : State), s.ft.gm = true) :=
  ⟨⟨modFt (fun f => { f with lastAnnounce := 9999990000 }) timed, by decide +kernel⟩,
   ⟨modFt (fun f => { f with lastAnnounce := 9999990001 }) timed, by decide +kernel⟩,
   ⟨timed, (10 : LpId), by decide +kernel⟩,
   ⟨timed, (20 : LpId), ({ subtype := 1, gmPrio := 200 } : TimeMsg), elect { timed with ft := { timed.ft with heard := tset timed.ft.heard ((20 : LpId)).val { msg := (({ subtype := 1, gmPrio := 200 } : TimeMsg)), at_ := now timed, valid := decide ((({ subtype := 1, gmPrio := 200 } : TimeMsg)).steps < 15) && !(({ subtype := 1, gmPrio := 200 } : TimeMsg)).leaving } } }, rfl, by decide +kernel⟩,
   ⟨timed, (20 : LpId), ({ subtype := 1, gmPrio := 1, gmSerial := 7 } : TimeMsg), elect { timed with ft := { timed.ft with heard := tset timed.ft.heard ((20 : LpId)).val { msg := (({ subtype := 1, gmPrio := 1, gmSerial := 7 } : TimeMsg)), at_ := now timed, valid := decide ((({ subtype := 1, gmPrio := 1, gmSerial := 7 } : TimeMsg)).steps < 15) && !(({ subtype := 1, gmPrio := 1, gmSerial := 7 } : TimeMsg)).leaving } } }, rfl, by decide +kernel⟩,
   ⟨timed, by decide +kernel⟩,
   ⟨following id, 20, by decide +kernel⟩,
   ⟨following (fun f => { f with heard := [(20, { msg := { subtype := 1, gmPrio := 1, gmSerial := 7 }, at_ := 10000000000, valid := true })] }), (20 : LpId), 20, { msg := { subtype := 1, gmPrio := 1, gmSerial := 7 }, at_ := 10000000000, valid := true }, by decide +kernel⟩,
   ⟨following (fun f => { f with lastDelayReq := 9999875000 }), (20 : LpId), by decide +kernel⟩,
   ⟨timed, (20 : LpId), by decide +kernel⟩,
   ⟨timed, ({ subtype := 1, gmPrio := 200 } : TimeMsg), by decide +kernel⟩,
   ⟨(20 : LpId), ({ subtype := 3, exchange := 7 } : TimeMsg), following (fun f => { f with waiting := some (7, 0), acquired := false }), 7, 0, ((((({ subtype := 3, exchange := 7 } : TimeMsg)).t2 : Int) - ((({ subtype := 3, exchange := 7 } : TimeMsg)).t1 : Int)) - ((stamp64 (following (fun f => { f with waiting := some (7, 0), acquired := false })) : Int) - ((({ subtype := 3, exchange := 7 } : TimeMsg)).sendTime : Int))) / 2 - (tget (following (fun f => { f with waiting := some (7, 0), acquired := false })).io.entries ((20 : LpId)).val).asym * 1024, rfl, by decide +kernel⟩,
   ⟨(20 : LpId), ({ subtype := 3, exchange := 7, t1 := 655360000000000, t2 := 655360000000000, sendTime := 655360000000000 } : TimeMsg), following (fun f => { f with waiting := some (7, 0) }), 7, 0, ((((({ subtype := 3, exchange := 7, t1 := 655360000000000, t2 := 655360000000000, sendTime := 655360000000000 } : TimeMsg)).t2 : Int) - ((({ subtype := 3, exchange := 7, t1 := 655360000000000, t2 := 655360000000000, sendTime := 655360000000000 } : TimeMsg)).t1 : Int)) - ((stamp64 (following (fun f => { f with waiting := some (7, 0) })) : Int) - ((({ subtype := 3, exchange := 7, t1 := 655360000000000, t2 := 655360000000000, sendTime := 655360000000000 } : TimeMsg)).sendTime : Int))) / 2 - (tget (following (fun f => { f with waiting := some (7, 0) })).io.entries ((20 : LpId)).val).asym * 1024, rfl, by decide +kernel⟩,
   ⟨following id, by decide +kernel⟩,
   ⟨modFt (fun f => { f with mode := .external }) svc, by decide +kernel⟩,
   ⟨modFt (fun f => { f with mode := .external }) (modIo (fun i => { i with pendingSet := some 5 }) svc), ((modFt (fun f => { f with mode := .external }) (modIo (fun i => { i with pendingSet := some 5 }) svc)).io.pendingSet).getD default, by decide +kernel⟩,
   ⟨modFt (fun f => { f with mode := .external }) svc, by decide +kernel⟩,
   ⟨modFt (fun f => { f with mode := .external }) (modIo (fun i => { i with lastPps := some 8999998000 }) svc), 8999998000, by decide +kernel⟩,
   ⟨modIo (fun i => { i with lastPps := some 8999998001 }) svc, ((modIo (fun i => { i with lastPps := some 8999998001 }) svc).io.lastPps).getD default, by decide +kernel⟩,
   ⟨modFt (fun f => { f with mode := .holdover }) (modIo (fun i => { i with ppsOk := true, okSince := some 8000000000, extRef := true }) svc), ((modFt (fun f => { f with mode := .holdover }) (modIo (fun i => { i with ppsOk := true, okSince := some 8000000000, extRef := true }) svc)).io.okSince).getD default, by decide +kernel⟩,
   ⟨timed, by decide +kernel⟩,
   ⟨modK 8 (fun x => { x with ended := 9999970000 }) (following (fun f => { f with parent := none, mode := .boot })), by decide +kernel⟩,
   ⟨timed, by decide +kernel⟩⟩

theorem test_hyps_EpochEvents :
    (∃ (s : State), fwRuns s = true ∧ s.dev.st ≠ .hibernate ∧ s.hoard.pendingPeriod = none ∧ nextBoundary s ≤ now s)
    ∧ (∃ (s : State) (p : _) (c : _), fwRuns s = true ∧ s.dev.st ≠ .hibernate ∧ s.hoard.pendingPeriod = some (p, c) ∧ c ≤ nextBoundary s ∧ nextBoundary s ≤ now s)
    ∧ (∃ (s : State), fwRuns s = true ∧ s.dev.st ≠ .hibernate ∧ now s < nextBoundary s)
    ∧ (∃ (s : State), fwRuns s = true ∧ s.dev.st ≠ .hibernate ∧ s.hoard.flushing = none)
    ∧ (∃ (s : State) (f : _), fwRuns s = true ∧ s.dev.st ≠ .hibernate ∧ s.hoard.flushing = some f ∧ f.stage = 3 ∧ flushesLeft s f.boundary [] = false)
    ∧ (∃ (s : State) (b : _) (x : _), fwRuns s = true ∧ s.dev.st ≠ .hibernate ∧ liveBind s b = some x)
    ∧ (∃ (s : State) (b : _), fwRuns s = true ∧ s.dev.st ≠ .hibernate ∧ liveBind s b = none)
    ∧ (∃ (s : State) (n : Notice), fwRuns s = true ∧ s.dev.st ≠ .hibernate ∧ s.ten.open_ = [n] ∧ n.first + 10000 ≤ now s)
    ∧ (∃ (s : State) (n : Notice), fwRuns s = true ∧ s.dev.st ≠ .hibernate ∧ s.ten.open_ = [n] ∧ now s < n.first + 10000) :=
  ⟨⟨modHoard (fun h => { h with start := 9999900000 }) svc, by decide +kernel⟩,
   ⟨modHoard (fun h => { h with start := 9999900000, pendingPeriod := some (200000, 10000000000) }) svc, 200000, 10000000000, by decide +kernel⟩,
   ⟨modHoard (fun h => { h with start := 10000000000 }) svc, by decide +kernel⟩,
   ⟨svc, by decide +kernel⟩,
   ⟨modHoard (fun h => { h with flushing := some { epoch := 3, stage := 3 } }) svc, ((modHoard (fun h => { h with flushing := some { epoch := 3, stage := 3 } }) svc).hoard.flushing).getD default, by decide +kernel⟩,
   ⟨owned, 0x10000000, (liveBind owned 0x10000000).getD default, by decide +kernel⟩,
   ⟨svc, 0x10000000, by decide +kernel⟩,
   ⟨modTen (fun t => { t with open_ := [{ first := 9999990000 }] }) svc, { first := 9999990000 }, by decide +kernel⟩,
   ⟨modTen (fun t => { t with open_ := [{ first := 9999990001 }] }) svc, { first := 9999990001 }, by decide +kernel⟩⟩

theorem test_hyps_EpochNumbersRiseOnTheGrid :
    (∃ (s : State), s.ft.mode = .holdover)
    ∧ (∃ (s : State), s.ft.mode ≠ .holdover ∧ s.ft.gm = true)
    ∧ (∃ (base : Nat) (p : Nat) (t : Nat), 0 < p ∧ base ≤ t) :=
  ⟨⟨modFt (fun f => { f with mode := .holdover }) svc, by decide +kernel⟩,
   ⟨svc, by decide +kernel⟩,
   ⟨5, 1, 5, by decide +kernel⟩⟩

theorem test_hyps_InterruptController :
    (∃ (s : State) (src : Fin 2048), settRuns s = true ∧ levelSrc s src.val = false ∧ sicField (tget s.sic.srcs src.val).word 16 8 ≤ 1 ∧ sicField (tget s.sic.srcs src.val).word 24 16 = 0)
    ∧ (∃ (s : State) (src : Fin 2048), settRuns s = true ∧ levelSrc s src.val = false ∧ 1 < sicField (tget s.sic.srcs src.val).word 16 8 ∧ sicField (tget s.sic.srcs src.val).word 16 8 ≤ (tget s.sic.srcs src.val).held + 1)
    ∧ (∃ (s : State) (src : Fin 2048), settRuns s = true ∧ levelSrc s src.val = false ∧ (tget s.sic.srcs src.val).held + 1 < sicField (tget s.sic.srcs src.val).word 16 8 ∧ sicField (tget s.sic.srcs src.val).word 24 16 ≠ 0 ∧ (tget s.sic.srcs src.val).held = 0)
    ∧ (∃ (s : State) (src : Fin 2048), settRuns s = true ∧ levelSrc s src.val = true)
    ∧ (∃ (s : State) (src : Fin 2048) (p : Fin 2), settRuns s = true ∧ (sicPairOf s p.val).committed = some src.val)
    ∧ (∃ (s : State) (p : Fin 2), settRuns s = true ∧ (sicPairOf s p.val).committed = none)
    ∧ (∃ (s : State) (src : Fin 2048) (p : Fin 2), settRuns s = true ∧ (tget s.sic.srcs src.val).active = some p ∧ levelSrc s src.val = false)
    ∧ (∃ (s : State) (src : Fin 2048) (p : Fin 2), settRuns s = true ∧ (tget s.sic.srcs src.val).active = some p ∧ levelSrc s src.val = true)
    ∧ (∃ (s : State) (w : BitVec 64), settRuns s = true ∧ sicField w 5 1 = 1 ∧ (1 < sicField w 16 8 ∨ sicField w 24 16 ≠ 0))
    ∧ (∃ (s : State) (src : Fin 2048) (w : BitVec 64), settRuns s = true ∧ sicField w 5 1 = 0 ∧ levelSrc (modSrc src.val (fun c => { c with word := (w &&& sicWritable) ||| (c.word &&& 0x3F0000000000) }) s) src.val = false)
    ∧ (∃ (s : State), settRuns s = true)
    ∧ (∃ (s : State) (src : Fin 2048), settRuns s = true ∧ (tget s.sic.srcs src.val).held = 0)
    ∧ (∃ (s : State) (src : Fin 2048), settRuns s = true ∧ (tget s.sic.srcs src.val).held ≠ 0 ∧ (tget s.sic.srcs src.val).due ≠ 0 ∧ (tget s.sic.srcs src.val).due ≤ now s)
    ∧ (∃ (s : State) (src : Fin 2048), settRuns s = true ∧ now s < (tget s.sic.srcs src.val).due) :=
  ⟨⟨svc, (1 : Fin 2048), by decide +kernel⟩,
   ⟨{ svc with sic := { svc.sic with srcs := [(1, { word := 0x40000, held := 3 })] } }, (1 : Fin 2048), by decide +kernel⟩,
   ⟨{ svc with sic := { svc.sic with srcs := [(1, { word := 0x1040000 })] } }, (1 : Fin 2048), by decide +kernel⟩,
   ⟨{ svc with sic := { svc.sic with srcs := [(1, { word := 0x20 })] } }, (1 : Fin 2048), by decide +kernel⟩,
   ⟨{ svc with sic := { svc.sic with pair0 := { committed := some 1 } } }, (1 : Fin 2048), (0 : Fin 2), by decide +kernel⟩,
   ⟨svc, (0 : Fin 2), by decide +kernel⟩,
   ⟨{ svc with sic := { svc.sic with srcs := [(1, { active := some 0 })] } }, (1 : Fin 2048), (0 : Fin 2), by decide +kernel⟩,
   ⟨{ svc with sic := { svc.sic with srcs := [(1, { word := 0x20, active := some 0 })] } }, (1 : Fin 2048), (0 : Fin 2), by decide +kernel⟩,
   ⟨svc, 0x20020, by decide +kernel⟩,
   ⟨svc, (1 : Fin 2048), 0, by decide +kernel⟩,
   ⟨svc, by decide +kernel⟩,
   ⟨svc, (1 : Fin 2048), by decide +kernel⟩,
   ⟨{ svc with sic := { svc.sic with srcs := [(1, { word := 0x1040000, held := 3, due := 10000000000 })] } }, (1 : Fin 2048), by decide +kernel⟩,
   ⟨{ svc with sic := { svc.sic with srcs := [(1, { word := 0x1040000, held := 3, due := 10000000001 })] } }, (1 : Fin 2048), by decide +kernel⟩⟩

theorem test_hyps_SpuriousCompletionsAreCounted :
    ∃ (p : Fin 2) (src : Fin 2048) (s : State), (tget s.sic.srcs src.val).active ≠ some p :=
  ⟨1, (2047 : Fin 2048), svc, by decide +kernel⟩

theorem test_hyps_ArbitrationPicksTheHighestPriority :
    (∃ (s : State) (p : Nat) (src : Nat), tabWf s.sic.srcs = true ∧ sicSelect s p = some src)
    ∧ (∃ (s : State) (p : Nat) (src : Nat) (n : _), tabWf s.sic.srcs = true ∧ sicSelect s p = some src ∧ (tget s.sic.srcs n).pend = true ∧ (tget s.sic.srcs n).active = none ∧ sicField (tget s.sic.srcs n).word 4 1 = 1 ∧ s.sic.pair0.committed ≠ some n ∧ s.sic.pair1.committed ≠ some n ∧ sicRoute s (tget s.sic.srcs n).word = p ∧ runningPrio s p < sicField (tget s.sic.srcs n).word 0 4 + 1)
    ∧ (∃ (s : State), tabWf s.sic.srcs = true) :=
  ⟨⟨raisedSrcs, 0, 1, by decide +kernel⟩,
   ⟨raisedSrcs, 0, 1, 2, by decide +kernel⟩,
   ⟨raisedSrcs, by decide +kernel⟩⟩

theorem test_hyps_HeartbeatAndWatchdog :
    (∃ (s : State), settRuns s = true ∧ s.hb.running = true ∧ s.hb.stopAt = none ∧ s.hb.stallAt = none ∧ now s ≠ s.hb.lastKick + 1000000)
    ∧ (∃ (s : State) (a : _), settRuns s = true ∧ s.hb.running = true ∧ s.hb.stopAt = none ∧ s.hb.stallAt = some a ∧ s.hb.handover = false ∧ now s < a + 500000)
    ∧ (∃ (s : State), settRuns s = true ∧ s.hb.running = true ∧ s.hb.level = false ∧ now s % 1000000 = 0)
    ∧ (∃ (s : State), settRuns s = true ∧ s.hb.running = true ∧ s.hb.level = true ∧ now s % 1000000 = 500000)
    ∧ (∃ (s : State), settRuns s = true ∧ s.hb.running = false)
    ∧ (∃ (s : State), settRuns s = true ∧ s.hb.running = true ∧ s.hb.stopAt = none ∧ s.hb.stallAt = none ∧ s.sec.paused = false ∧ s.sec.updating = false ∧ s.sec.takeover = 0 ∧ s.hb.lastKick + 1000000 ≤ now s ∧ s.hb.standbyHealthy = true)
    ∧ (∃ (s : State), settRuns s = true ∧ s.hb.running = true ∧ s.hb.stopAt = none ∧ s.hb.stallAt = none ∧ s.sec.paused = false ∧ s.hb.lastKick + 1000000 ≤ now s ∧ s.hb.standbyHealthy = false)
    ∧ (∃ (s : State), settRuns s = true ∧ s.sec.paused = false ∧ now s < s.hb.lastKick + 1000000)
    ∧ (∃ (s : State) (a : _), settRuns s = true ∧ s.hb.stallAt = some a ∧ s.hb.stopAt = none ∧ s.hb.handover = false ∧ a + 500000 ≤ now s)
    ∧ (∃ (s : State) (a : _), settRuns s = true ∧ s.hb.stopAt = some a ∧ now s < a + 20000000)
    ∧ (∃ (s : State) (a : _), settRuns s = true ∧ s.hb.stopAt = some a ∧ a + 20000000 ≤ now s)
    ∧ (∃ (s : State) (p : Fin 2), settRuns s = true ∧ kDone s 8 = true ∧ p ≠ s.hb.activePair ∧ s.sec.updating = false ∧ s.sec.takeover = 0)
    ∧ (∃ (s : State) (p : Fin 2), settRuns s = true ∧ kDone s 8 = true ∧ p = s.hb.activePair)
    ∧ (∃ (s : State) (t : _), settRuns s = true ∧ s.hb.reloadAt = some t ∧ pairPowered s (1 - s.hb.activePair.val) = true) :=
  ⟨⟨svc, by decide +kernel⟩,
   ⟨modHb (fun h => { h with stallAt := some 9999500001 }) svc, ((modHb (fun h => { h with stallAt := some 9999500001 }) svc).hb.stallAt).getD default, by decide +kernel⟩,
   ⟨svc, by decide +kernel⟩,
   ⟨atNs 10000500000 (modHb (fun h => { h with level := true }) svc), by decide +kernel⟩,
   ⟨modHb (fun h => { h with running := false }) svc, by decide +kernel⟩,
   ⟨modHb (fun h => { h with lastKick := 9999000000 }) svc, by decide +kernel⟩,
   ⟨modHb (fun h => { h with lastKick := 9999000000, standbyHealthy := false }) svc, by decide +kernel⟩,
   ⟨modHb (fun h => { h with lastKick := 9999000001 }) svc, by decide +kernel⟩,
   ⟨modHb (fun h => { h with stallAt := some 9999500000 }) svc, ((modHb (fun h => { h with stallAt := some 9999500000 }) svc).hb.stallAt).getD default, by decide +kernel⟩,
   ⟨modHb (fun h => { h with stopAt := some 9980000001 }) svc, ((modHb (fun h => { h with stopAt := some 9980000001 }) svc).hb.stopAt).getD default, by decide +kernel⟩,
   ⟨modHb (fun h => { h with stopAt := some 9980000000 }) svc, ((modHb (fun h => { h with stopAt := some 9980000000 }) svc).hb.stopAt).getD default, by decide +kernel⟩,
   ⟨svc, (1 : Fin 2), by decide +kernel⟩,
   ⟨svc, (0 : Fin 2), by decide +kernel⟩,
   ⟨modHb (fun h => { h with reloadAt := some 10000000000 }) svc, ((modHb (fun h => { h with reloadAt := some 10000000000 }) svc).hb.reloadAt).getD default, by decide +kernel⟩⟩

theorem test_hyps_DomainsCoresClocksAndSensors :
    (∃ (d : Fin 157) (s : State), (domOf s d.val).target = none)
    ∧ (∃ (d : Fin 157) (s : State), (domOf s d.val).target = some .deep ∧ (domOf s d.val).step = 1)
    ∧ (∃ (d : Fin 157) (s : State) (t : _), (domOf s d.val).target = some t ∧ t ≠ .deep ∧ (domOf s d.val).step = 1)
    ∧ (∃ (d : Fin 157) (s : State) (t : _), (domOf s d.val).target = some t ∧ (domOf s d.val).step = 2 ∧ (domOf s d.val).lostClk = false)
    ∧ (∃ (d : Fin 157) (s : State) (t : _), (domOf s d.val).target = some t ∧ (domOf s d.val).step = 3)
    ∧ (∃ (d : Fin 157) (s : State) (t : _), (domOf s d.val).target = some t ∧ (domOf s d.val).step = 4)
    ∧ (∃ (d : Fin 157) (s : State) (t : _), (domOf s d.val).target = some t ∧ (domOf s d.val).step = 5)
    ∧ (∃ (d : Fin 157) (s : State) (t : _), (domOf s d.val).target = some t ∧ (domOf s d.val).step = 6)
    ∧ (∃ (d : Fin 157) (s : State) (t : _), (domOf s d.val).target = some t ∧ (domOf s d.val).step = 14)
    ∧ (∃ (d : Fin 157) (s : State) (t : _), (domOf s d.val).target = some t ∧ (domOf s d.val).step = 13)
    ∧ (∃ (d : Fin 157) (s : State) (t : _), (domOf s d.val).target = some t ∧ (domOf s d.val).step = 12)
    ∧ (∃ (d : Fin 157) (s : State) (t : _), (domOf s d.val).target = some t ∧ (domOf s d.val).step = 11)
    ∧ (∃ (d : Fin 157) (s : State), (domOf s d.val).queued = none ∧ s.cmd.running = [] ∧ 128 ≤ d.val)
    ∧ (∃ (d : Fin 157) (s : State), (domOf s d.val).target.isSome = true ∧ (domOf s d.val).dwell = true ∧ (domOf s d.val).offAt.getD 0 + 100000 ≤ now s)
    ∧ (∃ (d : Fin 157) (s : State), (domOf s d.val).dwell = false)
    ∧ (∃ (d : Fin 157) (s : State), (domOf s d.val).step = 2 ∧ now s < (domOf s d.val).stepAt + 2 * (domBounds d.val).getD 1 0)
    ∧ (∃ (d : Fin 157) (s : State) (u : _), u = endDomainCmds d.val false .timeout 0 (timeoutEvent d.val (bump .domTimeout d.val (clkDown d.val (modDom d.val (fun y => { y with st := .off, target := none, step := 0, ready := 0, masked := true, errs := y.errs ||| 1, offAt := some (now s), dwell := false, lostClk := false }) s)))) ∧ 136 ≤ d.val ∧ (domOf s d.val).target.isSome = true ∧ (domOf s d.val).step = 2 ∧ (domOf s d.val).stepAt + 2 * (domBounds d.val).getD 1 0 ≤ now s ∧ (domOf u d.val).queued = none)
    ∧ (∃ (s : State) (p : Fin 2), settRuns s = true ∧ (domOf s (148 + 2 * p.val)).st ≠ .on)
    ∧ (∃ (s : State), settRuns s = true ∧ (domOf s 148).st = .on ∧ pairPending { s with pwr := { s.pwr with mode0 := 0 } } 0 = false)
    ∧ (∃ (s : State), settRuns s = true ∧ (domOf s 150).st = .on ∧ pairPending { s with pwr := { s.pwr with mode1 := 1 } } 1 = false)
    ∧ (∃ (s : State) (c : Fin 25), (∀ d, (domOf s d).step ≠ 2) ∧ settRuns s = true ∧ (clkOf s c.val).running = false)
    ∧ (∃ (s : State) (c : Fin 25), (∀ d, (domOf s d).step ≠ 2) ∧ settRuns s = true ∧ (clkOf s c.val).running = true ∧ (¬ (4 ≤ c.val ∧ c.val < 7)) ∧ (¬ (9 ≤ c.val ∧ c.val < 17)))
    ∧ (∃ (s : State) (c : Fin 25), (∀ d, (domOf s d).step ≠ 2) ∧ settRuns s = true ∧ (clkOf s c.val).running = true ∧ ((4 ≤ c.val ∧ c.val < 7) ∨ (9 ≤ c.val ∧ c.val < 17)))
    ∧ (∃ (s : State) (c : Fin 25), settRuns s = true ∧ (clkOf s c.val).switching = false)
    ∧ (∃ (s : State) (c : Fin 25) (d : _), settRuns s = true ∧ (clkOf s c.val).switching = true ∧ d ∈ fedBy c.val ∧ (domOf s d).step = 2 ∧ (domOf s d).stepAt + 2560 ≤ now s)
    ∧ (∃ (s : State), settRuns s = true ∧ s.pwr.obsOut ≠ 0 ∧ s.pwr.obsStopped = false)
    ∧ (∃ (s : State), settRuns s = true ∧ s.pwr.obsOut = 0)
    ∧ (∃ (s : State), settRuns s = true ∧ s.dev.graveReq = none)
    ∧ (∃ (s : State) (js : List Int) (hs : List Int), settRuns s = true ∧ s.therm.hotRaised = false ∧ s.therm.over120 = false ∧ cageHeld s = false ∧ (js ++ hs).any (fun t => decide (t > 1100)) = true ∧ (js ++ hs).any (fun t => decide (t > 1200)) = false)
    ∧ (∃ (s : State) (js : List Int) (hs : List Int), settRuns s = true ∧ s.therm.hotRaised = true ∧ s.therm.over120 = true ∧ cageHeld s = false ∧ (js ++ hs).any (fun t => decide (t > 1200)) = true ∧ (js ++ hs).any (fun t => decide (t > 1100)) = true) :=
  ⟨⟨(0 : Fin 157), svc, by decide +kernel⟩,
   ⟨(0 : Fin 157), modDom 0 (fun x => { x with target := some .deep, step := 1 }) svc, by decide +kernel⟩,
   ⟨(0 : Fin 157), modDom 0 (fun x => { x with target := some .on, step := 1 }) svc, .on, by decide +kernel⟩,
   ⟨(0 : Fin 157), modDom 0 (fun x => { x with target := some .on, step := 2 }) svc, .on, by decide +kernel⟩,
   ⟨(0 : Fin 157), modDom 0 (fun x => { x with target := some .on, step := 3 }) svc, .on, by decide +kernel⟩,
   ⟨(0 : Fin 157), modDom 0 (fun x => { x with target := some .on, step := 4 }) svc, .on, by decide +kernel⟩,
   ⟨(0 : Fin 157), modDom 0 (fun x => { x with target := some .on, step := 5 }) svc, .on, by decide +kernel⟩,
   ⟨(0 : Fin 157), modDom 0 (fun x => { x with target := some .deep, step := 6 }) svc, .deep, by decide +kernel⟩,
   ⟨(0 : Fin 157), modDom 0 (fun x => { x with target := some .off, step := 14 }) svc, .off, by decide +kernel⟩,
   ⟨(0 : Fin 157), modDom 0 (fun x => { x with target := some .off, step := 13 }) svc, .off, by decide +kernel⟩,
   ⟨(0 : Fin 157), modDom 0 (fun x => { x with target := some .off, step := 12 }) svc, .off, by decide +kernel⟩,
   ⟨(0 : Fin 157), modDom 0 (fun x => { x with target := some .off, step := 11 }) svc, .off, by decide +kernel⟩,
   ⟨(128 : Fin 157), svc, by decide +kernel⟩,
   ⟨(0 : Fin 157), modDom 0 (fun x => { x with target := some .on, dwell := true, offAt := some 9999900000 }) svc, by decide +kernel⟩,
   ⟨(0 : Fin 157), svc, by decide +kernel⟩,
   ⟨(0 : Fin 157), modDom 0 (fun x => { x with step := 2, stepAt := 10000000000 }) svc, by decide +kernel⟩,
   ⟨(136 : Fin 157), modDom 136 (fun x => { x with target := some .on, step := 2, stepAt := 9999800000 }) svc, endDomainCmds ((136 : Fin 157)).val false .timeout 0 (timeoutEvent ((136 : Fin 157)).val (bump .domTimeout ((136 : Fin 157)).val (clkDown ((136 : Fin 157)).val (modDom ((136 : Fin 157)).val (fun y => { y with st := .off, target := none, step := 0, ready := 0, masked := true, errs := y.errs ||| 1, offAt := some (now (modDom 136 (fun x => { x with target := some .on, step := 2, stepAt := 9999800000 }) svc)), dwell := false, lostClk := false }) (modDom 136 (fun x => { x with target := some .on, step := 2, stepAt := 9999800000 }) svc))))), rfl, by decide +kernel⟩,
   ⟨modDom 150 (fun x => { x with st := .sleep }) svc, (1 : Fin 2), by decide +kernel⟩,
   ⟨svc, by decide +kernel⟩,
   ⟨svc, by decide +kernel⟩,
   ⟨{ svc with pwr := {} }, (24 : Fin 25), fun _ => show (0 : Nat) ≠ 2 by decide, by decide +kernel⟩,
   ⟨{ svc with pwr := { clks := [(24, { running := true })] } }, (24 : Fin 25), fun _ => show (0 : Nat) ≠ 2 by decide, by decide +kernel⟩,
   ⟨svc, (16 : Fin 25), everyRead (P := fun x => x.step ≠ 2) onDoms (by decide +kernel) (by decide +kernel), by decide +kernel⟩,
   ⟨svc, (24 : Fin 25), by decide +kernel⟩,
   ⟨modClk 9 (fun x => { x with switching := true }) (modDom 0 (fun x => { x with step := 2, stepAt := 9999997440 }) svc), (9 : Fin 25), 0, by decide +kernel⟩,
   ⟨{ svc with pwr := { svc.pwr with obsOut := 1 } }, by decide +kernel⟩,
   ⟨svc, by decide +kernel⟩,
   ⟨svc, by decide +kernel⟩,
   ⟨svc, [1101], [], by decide +kernel⟩,
   ⟨{ svc with therm := { svc.therm with hotRaised := true, over120 := true } }, [1201], [], by decide +kernel⟩⟩

theorem test_hyps_CagesAndPortContacts :
    (∃ (s : State), cageHeld s = false ∧ s.dev.st = .off)
    ∧ (∃ (c : PortId) (s : State) (v : _), cageHeld s = false ∧ s.dev.st ≠ .off ∧ s.pins.vaon = true ∧ (portOf s c.val).present = presentNow s c.val ∧ (cageOf s c.val).st = .damaged ∧ 2900 ≤ v)
    ∧ (∃ (c : PortId) (s : State) (a : _) (v : _), cageHeld s = false ∧ s.dev.st ≠ .off ∧ s.pins.vaon = true ∧ (portOf s c.val).present = presentNow s c.val ∧ (cageOf s c.val).st = .ramp ∧ (cageOf s c.val).timer = none ∧ 3000 ≤ v ∧ a < (cageParOf s c.val).limit)
    ∧ (∃ (c : PortId) (s : State) (a : _) (v : _), cageHeld s = false ∧ s.dev.st ≠ .off ∧ s.pins.vaon = true ∧ (portOf s c.val).present = presentNow s c.val ∧ (cageOf s c.val).st = .on ∧ 2900 ≤ v ∧ (cageParOf s c.val).limit ≤ a)
    ∧ (∃ (c : PortId) (s : State) (a : _) (v : _), cageHeld s = false ∧ s.dev.st ≠ .off ∧ s.pins.vaon = true ∧ (portOf s c.val).present = presentNow s c.val ∧ (cageOf s c.val).st = .limit ∧ (cageOf s c.val).timer = none ∧ 2900 ≤ v ∧ a < (cageParOf s c.val).limit)
    ∧ (∃ (c : PortId) (s : State) (t : _), cageHeld s = false ∧ (cageOf s c.val).timer = some t ∧ t + faultTime s c.val ≤ now s ∧ (cageOf s c.val).st = .limit)
    ∧ (∃ (c : PortId) (s : State) (t : _), cageHeld s = false ∧ (cageOf s c.val).timer = some t ∧ t + faultTime s c.val ≤ now s ∧ (cageOf s c.val).st = .ramp)
    ∧ (∃ (c : PortId) (s : State), cageHeld s = false ∧ (cageOf s c.val).timer = none)
    ∧ (∃ (c : PortId) (s : State) (a : _), cageHeld s = false ∧ gateHigh s c.val = true ∧ 5 * (cageParOf s c.val).limit ≤ 2 * a)
    ∧ (∃ (c : PortId) (s : State) (a : _), cageHeld s = false ∧ 2 * a < 5 * (cageParOf s c.val).limit)
    ∧ (∃ (c : PortId) (s : State), cageHeld s = false ∧ (cageOf s c.val).st = .ramp ∧ (cageOf s c.val).a0 + 66000000 / (cageParOf s c.val).dvdt + 1000000 ≤ now s)
    ∧ (∃ (c : PortId) (s : State), cageHeld s = false ∧ (cageOf s c.val).attempting = true ∧ (cageOf s c.val).pg = false ∧ gateHigh s c.val = true ∧ (cageOf s c.val).attemptAt + 50000000 ≤ now s)
    ∧ (∃ (c : PortId) (s : State), cageHeld s = false ∧ (cageOf s c.val).attempting = false)
    ∧ (∃ (c : PortId) (s : State), cageHeld s = false ∧ (cageOf s c.val).st = .tripped ∧ (cageOf s c.val).lastTrip + 5000000000 ≤ now s ∧ presentNow s c.val = true)
    ∧ (∃ (c : PortId) (s : State), cageHeld s = false ∧ (cageOf s c.val).st = .tripped ∧ (cageOf s c.val).lastTrip + 5000000000 ≤ now s ∧ presentNow s c.val = false ∧ (cfgOf s (2 * c.val)).ignorePresent = false)
    ∧ (∃ (c : PortId) (s : State), cageHeld s = false ∧ now s < (cageOf s c.val).lastTrip + 5000000000)
    ∧ (∃ (p : PortId) (s : State) (level : _), s.dev.st ≠ .off ∧ s.pins.vaon = true ∧ (portOf s p.val).present = presentNow s p.val ∧ (portOf s p.val).prsntHigh = !level)
    ∧ (∃ (p : PortId) (s : State) (level : _), s.dev.st ≠ .off ∧ s.pins.vaon = true ∧ (portOf s p.val).present = presentNow s p.val ∧ (portOf s p.val).prsntHigh = level) :=
  ⟨⟨inSt .off svc, by decide +kernel⟩,
   ⟨(127 : PortId), modCage 127 (fun x => { x with st := .damaged }) svc, 2900, by decide +kernel⟩,
   ⟨(127 : PortId), modCage 127 (fun x => { x with st := .ramp }) svc, 0, 3000, by decide +kernel⟩,
   ⟨(127 : PortId), modCage 127 (fun x => { x with st := .on }) svc, 65535, 2900, by decide +kernel⟩,
   ⟨(127 : PortId), modCage 127 (fun x => { x with st := .limit }) svc, 0, 2900, by decide +kernel⟩,
   ⟨(127 : PortId), modCage 127 (fun x => { x with st := .limit, timer := some 9995000000 }) svc, ((cageOf (modCage 127 (fun x => { x with st := .limit, timer := some 9995000000 }) svc) ((127 : PortId)).val).timer).getD default, by decide +kernel⟩,
   ⟨(127 : PortId), modCage 127 (fun x => { x with st := .ramp, timer := some 9995000000 }) svc, ((cageOf (modCage 127 (fun x => { x with st := .ramp, timer := some 9995000000 }) svc) ((127 : PortId)).val).timer).getD default, by decide +kernel⟩,
   ⟨(127 : PortId), svc, by decide +kernel⟩,
   ⟨(127 : PortId), modCage 127 (fun x => { x with st := .on }) svc, 15000, by decide +kernel⟩,
   ⟨(127 : PortId), svc, 14999, by decide +kernel⟩,
   ⟨(127 : PortId), modCage 127 (fun x => { x with st := .ramp, a0 := 9992400000 }) svc, by decide +kernel⟩,
   ⟨(127 : PortId), modCage 127 (fun x => { x with st := .on, attempting := true, attemptAt := 9950000000 }) svc, by decide +kernel⟩,
   ⟨(127 : PortId), svc, by decide +kernel⟩,
   ⟨(127 : PortId), modCage 127 (fun x => { x with st := .tripped, lastTrip := 5000000000 }) (modPort 127 (fun x => { x with prsntHigh := false, present := true }) svc), by decide +kernel⟩,
   ⟨(127 : PortId), modCage 127 (fun x => { x with st := .tripped, lastTrip := 5000000000 }) svc, by decide +kernel⟩,
   ⟨(127 : PortId), modCage 127 (fun x => { x with st := .tripped, lastTrip := 5000000001 }) svc, by decide +kernel⟩,
   ⟨(5 : PortId), svc, false, by decide +kernel⟩,
   ⟨(5 : PortId), svc, true, by decide +kernel⟩⟩

theorem test_hyps_CxlLinkPowerRelocationAndWindows :
    (∃ (s : State) (p : PortId), (isCxl s (2 * p.val) = false ∨ (lpOf s (2 * p.val)).l1 = false ∨ (lpOf s (2 * p.val)).l11En = false))
    ∧ (∃ (s : State) (p : PortId), isCxl s (2 * p.val) = true ∧ (lpOf s (2 * p.val)).l1 = true ∧ (lpOf s (2 * p.val)).l11En = true)
    ∧ (∃ (s : State) (lp : LpId), isCxl s lp.val = false)
    ∧ (∃ (s : State) (lp : LpId), isCxl s lp.val = true ∧ lpUp s lp.val = true ∧ isHost s lp.val = false ∧ (lpOf s lp.val).l1 = false ∧ cxlQuiet s lp.val = true)
    ∧ (∃ (s : State) (lp : LpId), isCxl s lp.val = true ∧ lpUp s lp.val = true ∧ isHost s lp.val = false ∧ cxlQuiet s lp.val = false)
    ∧ (∃ (s : State) (lp : LpId), isCxl s lp.val = true ∧ lpUp s lp.val = true)
    ∧ (∃ (s : State) (lp : LpId) (k : Fin 8), isCxl s lp.val = true ∧ linkLive s lp.val = true ∧ k.val < (lanesOf s lp.val).length ∧ engineHolder s (dieOf lp.val) = none)
    ∧ (∃ (s : State) (lp : LpId) (k : Fin 8) (h : _), isCxl s lp.val = true ∧ linkLive s lp.val = true ∧ k.val < (lanesOf s lp.val).length ∧ engineHolder s (dieOf lp.val) = some h)
    ∧ (∃ (s : State) (lp : LpId) (k : _) (x : Session) (d : _) (l : _), s.ten.sessions = [(k, x)] ∧ x.live = true ∧ x.res = .margin d lp.val l)
    ∧ (∃ (s : State), s.ten.sessions = [])
    ∧ (∃ (s : State) (p : PortId), startingPorts s = [p.val] ∧ isCxl s (2 * p.val) = true ∧ lpExists s (2 * p.val) = true ∧ linkLive s (2 * p.val) = false ∧ tget s.start.waveEnd p.val + 250000000 ≤ now s)
    ∧ (∃ (s : State) (p : PortId), now s < tget s.start.waveEnd p.val + 250000000)
    ∧ (∃ (s : State), settRuns s = true)
    ∧ (∃ (s : State) (k : Fin 4) (r : _) (t : _), settRuns s = true ∧ (dreyOf s k.val).moving = some (r, t, 1))
    ∧ (∃ (s : State) (k : Fin 4) (r : _) (t : _), settRuns s = true ∧ (dreyOf s k.val).moving = some (r, t, 2))
    ∧ (∃ (s : State) (k : Fin 4) (r : _) (t : _), settRuns s = true ∧ (dreyOf s k.val).moving = some (r, t, 3))
    ∧ (∃ (s : State) (k : Fin 4) (r : _) (t : _), settRuns s = true ∧ (dreyOf s k.val).moving = some (r, t, 4) ∧ (dreyOf s k.val).moveQueue = [])
    ∧ (∃ (s : State) (k : Fin 4), settRuns s = true ∧ (dreyOf s k.val).moving = none)
    ∧ (∃ (lp : LpId) (s : State), settRuns s = true ∧ (tget s.ctr.mons lp.val).window ≠ 0 ∧ ((tget s.ctr.mons lp.val).start / (tget s.ctr.mons lp.val).window + 1) * (tget s.ctr.mons lp.val).window ≤ now s)
    ∧ (∃ (lp : LpId) (s : State), settRuns s = true ∧ (tget s.ctr.mons lp.val).window ≠ 0 ∧ now s < ((tget s.ctr.mons lp.val).start / (tget s.ctr.mons lp.val).window + 1) * (tget s.ctr.mons lp.val).window) :=
  ⟨⟨svc, (15 : PortId), by decide +kernel⟩,
   ⟨modLp 30 (fun l => { l with l1 := true, l11En := true }) svc, (15 : PortId), by decide +kernel⟩,
   ⟨svc, (10 : LpId), by decide +kernel⟩,
   ⟨svc, (32 : LpId), by decide +kernel⟩,
   ⟨modCxl 32 (fun x => { x with out := [{}] }) svc, (32 : LpId), by decide +kernel⟩,
   ⟨svc, (30 : LpId), by decide +kernel⟩,
   ⟨svc, (30 : LpId), (7 : Fin 8), by decide +kernel⟩,
   ⟨sess (.eyescan (dieOf 30)) svc, (30 : LpId), (7 : Fin 8), 0x60000000, by decide +kernel⟩,
   ⟨sess (.margin 0 30 123) svc, (30 : LpId), 0, { live := true, owner := .pe 0, res := .margin 0 30 123 }, 0, 123, by decide +kernel⟩,
   ⟨svc, by decide +kernel⟩,
   ⟨modStart (fun x => { x with quar := [(16, { trying := true })], waveEnd := [(16, 9750000000)] }) (modLp 32 (fun l => { l with link := .training }) svc), (16 : PortId), by decide +kernel⟩,
   ⟨modStart (fun x => { x with waveEnd := [(16, 9750000001)] }) svc, (16 : PortId), by decide +kernel⟩,
   ⟨svc, by decide +kernel⟩,
   ⟨modDrey 3 (fun x => { x with moving := some (5, 88, 1) }) svc, (3 : Fin 4), 5, 88, by decide +kernel⟩,
   ⟨modDrey 3 (fun x => { x with moving := some (5, 88, 2) }) svc, (3 : Fin 4), 5, 88, by decide +kernel⟩,
   ⟨modDrey 3 (fun x => { x with moving := some (5, 88, 3) }) svc, (3 : Fin 4), 5, 88, by decide +kernel⟩,
   ⟨modDrey 3 (fun x => { x with moving := some (5, 88, 4) }) svc, (3 : Fin 4), 5, 88, by decide +kernel⟩,
   ⟨svc, (3 : Fin 4), by decide +kernel⟩,
   ⟨(30 : LpId), modMon 30 (fun m => { m with window := 1000, start := 9999999000 }) svc, by decide +kernel⟩,
   ⟨(30 : LpId), modMon 30 (fun m => { m with window := 1000, start := 10000000000 }) svc, by decide +kernel⟩⟩

theorem test_hyps_RequestsAtIngress :
    (∃ (lp : LpId) (s : State), linkLive s lp.val = false)
    ∧ (∃ (lp : LpId) (f : Frame) (s : State) (o : _), linkLive s lp.val = true ∧ earlyOf s lp.val f = some o)
    ∧ (∃ (lp : LpId) (f : Frame) (s : State), linkLive s lp.val = true ∧ earlyOf s lp.val f = none ∧ isCxl s lp.val = false ∧ withinCredits s lp.val f = false)
    ∧ (∃ (lp : LpId) (f : Frame) (a : Nat) (s : State) (o : _) (t : _), enterFrame lp.val f a s = (o, t) ∧ linkLive s lp.val = true ∧ earlyOf s lp.val f = none ∧ isCxl s lp.val = false ∧ isCxl t lp.val = false ∧ withinCredits s lp.val f = true)
    ∧ (∃ (lp : LpId) (f : Frame) (s : State) (t : _), takeCredits lp.val (.pbr f) s = (none, t) ∧ linkLive s lp.val = true ∧ earlyOf s lp.val f = none ∧ isCxl s lp.val = true)
    ∧ (∃ (lp : LpId) (f : Frame) (a : Nat) (s : State) (o : _) (t : _) (u : _), takeCredits lp.val (.pbr f) s = (some o, t) ∧ u = noteEarly lp.val f a o t ∧ linkLive s lp.val = true ∧ earlyOf s lp.val f = none ∧ isCxl s lp.val = true ∧ isCxl u lp.val = true)
    ∧ (∃ (lp : LpId) (s : State), isDevice s lp.val = true)
    ∧ (∃ (lp : LpId) (f : Frame) (s : State), isDevice s lp.val = false ∧ opcodeListed f.cls f.opcode.toNat = false)
    ∧ (∃ (lp : LpId) (f : Frame) (s : State), isDevice s lp.val = false ∧ isHost s lp.val = false ∧ isFabric s lp.val = true ∧ opcodeListed f.cls f.opcode.toNat = true)
    ∧ (∃ (lp : LpId) (f : Frame) (s : State), isDevice s lp.val = false ∧ isFabric s lp.val = false ∧ opcodeListed f.cls f.opcode.toNat = true ∧ f.cls ≠ clsIO ∧ isPosted f = true)
    ∧ (∃ (f : Frame), hchkOk f = false)
    ∧ (∃ (f : Frame), hchkOk f = true ∧ opcodeListed f.cls f.opcode.toNat = false)
    ∧ (∃ (lp : Nat) (f : Frame) (s : State), hchkOk f = true ∧ opcodeListed f.cls f.opcode.toNat = true ∧ isHost s lp = true ∧ f.cls = clsIO ∧ f.opcode = 0xF0)
    ∧ (∃ (lp : Nat) (f : Frame) (s : State), hchkOk f = true ∧ opcodeListed f.cls f.opcode.toNat = true ∧ isHost s lp = true ∧ isPageAccess s lp f = true ∧ (f.cls ≠ clsIO ∨ f.opcode ≠ 0xF0))
    ∧ (∃ (lp : Nat) (f : Frame) (s : State), hchkOk f = true ∧ opcodeListed f.cls f.opcode.toNat = true ∧ isHost s lp = true ∧ isPageAccess s lp f = false ∧ (f.cls ≠ clsIO ∨ f.opcode ≠ 0xF0))
    ∧ (∃ (lp : Nat) (f : Frame) (s : State), hchkOk f = true ∧ opcodeListed f.cls f.opcode.toNat = true ∧ isHost s lp = false ∧ isFabric s lp = true ∧ f.hops = 0)
    ∧ (∃ (lp : Nat) (f : Frame) (s : State), hchkOk f = true ∧ opcodeListed f.cls f.opcode.toNat = true ∧ isHost s lp = false ∧ isFabric s lp = true ∧ f.hops ≠ 0 ∧ f.colour ≠ 3 ∧ takesRequests s = true ∧ throttleHere s { f with hops := f.hops - 1 } = false)
    ∧ (∃ (lp : Nat) (f : Frame) (s : State), hchkOk f = true ∧ opcodeListed f.cls f.opcode.toNat = true ∧ isHost s lp = false ∧ isFabric s lp = false) :=
  ⟨⟨(40 : LpId), svc, by decide +kernel⟩,
   ⟨(10 : LpId), ({} : Frame), modRx 10 (fun r => { r with early := [(frameKey {}, 3)] }) svc, 3, by decide +kernel⟩,
   ⟨(10 : LpId), ({} : Frame), svc, by decide +kernel⟩,
   ⟨(96 : LpId), cmf 1 0, 32, credited, (enterFrame ((96 : LpId)).val (cmf 1 0) 32 credited).1, (enterFrame ((96 : LpId)).val (cmf 1 0) 32 credited).2, rfl, by decide +kernel⟩,
   ⟨(30 : LpId), { cls := 2, opcode := 1 }, modCxl 30 (fun x => { x with used := [(7, 2 ^ 20)] }) svc, (takeCredits ((30 : LpId)).val (.pbr ({ cls := 2, opcode := 1 })) (modCxl 30 (fun x => { x with used := [(7, 2 ^ 20)] }) svc)).2, fstIs (by decide +kernel), by decide +kernel⟩,
   ⟨(30 : LpId), ({} : Frame), 32, svc, (takeCredits ((30 : LpId)).val (.pbr (({} : Frame))) svc).1.getD 0, (takeCredits ((30 : LpId)).val (.pbr (({} : Frame))) svc).2, noteEarly ((30 : LpId)).val (({} : Frame)) 32 ((takeCredits ((30 : LpId)).val (.pbr (({} : Frame))) svc).1.getD 0) ((takeCredits ((30 : LpId)).val (.pbr (({} : Frame))) svc).2), fstIs (by decide +kernel), rfl, by decide +kernel⟩,
   ⟨(96 : LpId), svc, by decide +kernel⟩,
   ⟨(10 : LpId), ({} : Frame), svc, by decide +kernel⟩,
   ⟨(40 : LpId), cmf 1 0, modLp 40 (fun _ => upLp 2 3) svc, by decide +kernel⟩,
   ⟨(30 : LpId), { cls := 1, opcode := 3 }, svc, by decide +kernel⟩,
   ⟨({} : Frame), by decide +kernel⟩,
   ⟨cmf 0xFF 0, by decide +kernel⟩,
   ⟨10, sealHdr { cls := 2, opcode := 0xF0 }, svc, by decide +kernel⟩,
   ⟨10, sealHdr { cls := 2, opcode := 1, addr := 0x1000, length := 4 }, owned, by decide +kernel⟩,
   ⟨10, cmf 1 0, svc, by decide +kernel⟩,
   ⟨20, sealHdr { opcode := 1, hops := 0 }, svc, by decide +kernel⟩,
   ⟨20, sealHdr { cls := 1, opcode := 1, hops := 1 }, svc, by decide +kernel⟩,
   ⟨96, cmf 1 0, svc, by decide +kernel⟩⟩

theorem test_hyps_TranslationAndResponses :
    (∃ (lp : Nat) (pasid : Nat) (f : Frame) (g : Frame) (i : Nat) (fa : Nat) (s : State), g = { f with sid := BitVec.ofNat 12 (didOf s lp), priv := false, colour := 0, hops := 15, copy := false, marked := false, rsv := 0, chan := if isCxl s lp then f.chan else BitVec.ofNat 3 (chanOf f.cls f.opcode.toNat) } ∧ resolve s lp pasid (fAddr g) (reachOf g) = .hit i fa ∧ s.ten.mediated = false ∧ isNotice g = false ∧ isPosted g = false ∧ takesRequests s = true)
    ∧ (∃ (lp : Nat) (pasid : Nat) (f : Frame) (g : Frame) (s : State), g = { f with sid := BitVec.ofNat 12 (didOf s lp), priv := false, colour := 0, hops := 15, copy := false, marked := false, rsv := 0, chan := if isCxl s lp then f.chan else BitVec.ofNat 3 (chanOf f.cls f.opcode.toNat) } ∧ resolve s lp pasid (fAddr g) (reachOf g) = .miss ∧ s.ten.mediated = false ∧ isNotice g = false ∧ isPosted g = false ∧ takesRequests s = true)
    ∧ (∃ (lp : Nat) (pasid : Nat) (f : Frame) (g : Frame) (i : Nat) (fa : Nat) (s : State), g = { f with sid := BitVec.ofNat 12 (didOf s lp), priv := false, colour := 0, hops := 15, copy := false, marked := false, rsv := 0, chan := if isCxl s lp then f.chan else BitVec.ofNat 3 (chanOf f.cls f.opcode.toNat) } ∧ resolve s lp pasid (fAddr g) (reachOf g) = .hit i fa ∧ s.ten.mediated = false ∧ isNotice g = false ∧ isPosted g = false ∧ takesRequests s = false)
    ∧ (∃ (lp : LpId) (f : Frame) (s : State) (t : State) (k : Nat), enterFrame lp.val f (frameLen f) s = (k, t) ∧ earlyOf s lp.val f = none ∧ linkLive s lp.val = false)
    ∧ (∃ (lp : LpId) (f : Frame) (s : State) (t : State) (k : Nat), enterFrame lp.val f (frameLen f) s = (k, t) ∧ earlyOf s lp.val f = none ∧ isCxl s lp.val = true ∧ isFabric s lp.val = false)
    ∧ (∃ (lp : LpId) (f : Frame) (s : State) (t : State) (k : Nat), enterFrame lp.val f (frameLen f) s = (k, t) ∧ earlyOf s lp.val f = none ∧ linkLive s lp.val = true ∧ isCxl s lp.val = false ∧ withinCredits s lp.val f = false)
    ∧ (∃ (lp : LpId) (f : Frame) (s : State) (t : State) (k : Nat), enterFrame lp.val f (frameLen f) s = (k, t) ∧ earlyOf s lp.val f = none ∧ linkLive s lp.val = true ∧ isCxl s lp.val = false ∧ isCxl t lp.val = false ∧ withinCredits s lp.val f = true ∧ hchkOk f = false)
    ∧ (∃ (lp : LpId) (f : Frame) (s : State) (t : State) (k : Nat), enterFrame lp.val f (frameLen f) s = (k, t) ∧ earlyOf s lp.val f = none ∧ linkLive s lp.val = true ∧ isCxl s lp.val = false ∧ isCxl t lp.val = false ∧ withinCredits s lp.val f = true ∧ hchkOk f = true ∧ f.cls = clsBM ∧ f.opcode = 0x81 ∧ f.status = stOK ∧ isFabric t lp.val = false ∧ isHost t lp.val = false ∧ outOf t lp.val f = none)
    ∧ (∃ (lp : LpId) (f : Frame) (s : State) (t : State) (k : Nat) (o : _), enterFrame lp.val f (frameLen f) s = (k, t) ∧ earlyOf s lp.val f = none ∧ linkLive s lp.val = true ∧ isCxl s lp.val = false ∧ isCxl t lp.val = false ∧ withinCredits s lp.val f = true ∧ hchkOk f = true ∧ f.cls = clsBM ∧ f.opcode = 0x81 ∧ f.status = stOK ∧ isFabric t lp.val = false ∧ isHost t lp.val = false ∧ outOf t lp.val f = some o ∧ now t ≠ o.at_ + (cfgOf t lp.val).respTimeout)
    ∧ (∃ (lp : LpId) (f : Frame) (s : State) (t : State) (k : Nat), enterFrame lp.val f (frameLen f) s = (k, t) ∧ earlyOf s lp.val f = none ∧ linkLive s lp.val = true ∧ isCxl s lp.val = false ∧ isCxl t lp.val = false ∧ withinCredits s lp.val f = true ∧ hchkOk f = true ∧ f.cls = clsBM ∧ f.opcode = 0x81 ∧ f.status = stOK ∧ isFabric t lp.val = false ∧ isHost t lp.val = true)
    ∧ (∃ (lp : LpId) (f : Frame) (s : State) (t : State) (k : Nat), enterFrame lp.val f (frameLen f) s = (k, t) ∧ earlyOf s lp.val f = none ∧ linkLive s lp.val = true ∧ isCxl s lp.val = false ∧ isCxl t lp.val = false ∧ withinCredits s lp.val f = true ∧ hchkOk f = true ∧ f.cls = clsBM ∧ f.opcode = 0x81 ∧ f.status = stOK ∧ isFabric t lp.val = true ∧ f.hops ≠ 0 ∧ f.colour ≠ 3)
    ∧ (∃ (lp : LpId) (s : State), (isDen s lp.val = false ∨ isDevice s lp.val = false))
    ∧ (∃ (lp : LpId) (tag : BitVec 16) (s : State), (tget s.net.denOut lp.val).find? (fun o => o.tag == tag.toNat && decide (now s > o.at_ + (cfgOf s lp.val).respTimeout)) = none)
    ∧ (∃ (lp : LpId) (tag : BitVec 16) (s : State) (t : State) (o : OutReq) (l : _) (i : _) (k : _), t = bump .denRespTo lp.val (modOut lp.val (fun l => l.erase o) s) ∧ l = now t :: slide (now t) (cfgOf s lp.val).window (tget (winOf t lp.val).viol 7) ∧ isDen s lp.val = true ∧ isDevice s lp.val = true ∧ (tget s.net.denOut lp.val).find? (fun o => o.tag == tag.toNat && decide (now s > o.at_ + (cfgOf s lp.val).respTimeout)) = some o ∧ o.asker = .slice i k)
    ∧ (∃ (lp : LpId) (s : State), (isCxl s lp.val = false ∨ isDevice s lp.val = false))
    ∧ (∃ (lp : LpId) (tag : BitVec 16) (s : State), (cxlOf s lp.val).out.find? (fun o => o.tag == tag.toNat && decide (now s > o.at_ + (cfgOf s lp.val).respTimeout)) = none)
    ∧ (∃ (lp : LpId) (tag : BitVec 16) (s : State) (o : _) (i : _) (k : _), isCxl s lp.val = true ∧ isDevice s lp.val = true ∧ (cxlOf s lp.val).out.find? (fun o => o.tag == tag.toNat && decide (now s > o.at_ + (cfgOf s lp.val).respTimeout)) = some o ∧ o.asker = .slice i k)
    ∧ (∃ (lp : LpId) (tag : BitVec 16) (s : State) (o : _) (i : _) (k : _), isCxl s lp.val = true ∧ isDevice s lp.val = true ∧ (cxlOf s lp.val).out.find? (fun o => o.tag == tag.toNat && decide (now s > o.at_ + (cfgOf s lp.val).respTimeout)) = some o ∧ o.asker = .sliceWrite i k)
    ∧ (∃ (lp : LpId) (tag : BitVec 16) (s : State) (o : _) (q : Frame), isCxl s lp.val = true ∧ isDevice s lp.val = true ∧ (cxlOf s lp.val).out.find? (fun o => o.tag == tag.toNat && decide (now s > o.at_ + (cfgOf s lp.val).respTimeout)) = some o ∧ o.asker = .frame q ∧ o.io = false ∧ o.read = true) :=
  ⟨⟨10, 0, sealHdr { opcode := 1, cls := 1, chan := 4, addr := 0x1000000000, length := 256 }, { (sealHdr { opcode := 1, cls := 1, chan := 4, addr := 0x1000000000, length := 256 }) with sid := BitVec.ofNat 12 (didOf owned 10), priv := false, colour := 0, hops := 15, copy := false, marked := false, rsv := 0, chan := if isCxl owned 10 then (sealHdr { opcode := 1, cls := 1, chan := 4, addr := 0x1000000000, length := 256 }).chan else BitVec.ofNat 3 (chanOf (sealHdr { opcode := 1, cls := 1, chan := 4, addr := 0x1000000000, length := 256 }).cls (sealHdr { opcode := 1, cls := 1, chan := 4, addr := 0x1000000000, length := 256 }).opcode.toNat) }, 0, 0x40000000, owned, rfl, rfl, by decide +kernel⟩,
   ⟨10, 0, sealHdr { opcode := 1, cls := 1, chan := 4, addr := 0x2000000000, length := 256 }, { (sealHdr { opcode := 1, cls := 1, chan := 4, addr := 0x2000000000, length := 256 }) with sid := BitVec.ofNat 12 (didOf owned 10), priv := false, colour := 0, hops := 15, copy := false, marked := false, rsv := 0, chan := if isCxl owned 10 then (sealHdr { opcode := 1, cls := 1, chan := 4, addr := 0x2000000000, length := 256 }).chan else BitVec.ofNat 3 (chanOf (sealHdr { opcode := 1, cls := 1, chan := 4, addr := 0x2000000000, length := 256 }).cls (sealHdr { opcode := 1, cls := 1, chan := 4, addr := 0x2000000000, length := 256 }).opcode.toNat) }, owned, rfl, rfl, by decide +kernel⟩,
   ⟨10, 0, sealHdr { opcode := 1, cls := 1, chan := 4, addr := 0x1000000000, length := 256 }, { (sealHdr { opcode := 1, cls := 1, chan := 4, addr := 0x1000000000, length := 256 }) with sid := BitVec.ofNat 12 (didOf (inSt .boot owned) 10), priv := false, colour := 0, hops := 15, copy := false, marked := false, rsv := 0, chan := if isCxl (inSt .boot owned) 10 then (sealHdr { opcode := 1, cls := 1, chan := 4, addr := 0x1000000000, length := 256 }).chan else BitVec.ofNat 3 (chanOf (sealHdr { opcode := 1, cls := 1, chan := 4, addr := 0x1000000000, length := 256 }).cls (sealHdr { opcode := 1, cls := 1, chan := 4, addr := 0x1000000000, length := 256 }).opcode.toNat) }, 0, 0x40000000, inSt .boot owned, rfl, rfl, by decide +kernel⟩,
   ⟨(40 : LpId), ({} : Frame), svc, (enterFrame ((40 : LpId)).val (({} : Frame)) (frameLen (({} : Frame))) svc).2, (enterFrame ((40 : LpId)).val (({} : Frame)) (frameLen (({} : Frame))) svc).1, rfl, by decide +kernel⟩,
   ⟨(30 : LpId), ({} : Frame), svc, (enterFrame ((30 : LpId)).val (({} : Frame)) (frameLen (({} : Frame))) svc).2, (enterFrame ((30 : LpId)).val (({} : Frame)) (frameLen (({} : Frame))) svc).1, rfl, by decide +kernel⟩,
   ⟨(10 : LpId), ({} : Frame), svc, (enterFrame ((10 : LpId)).val (({} : Frame)) (frameLen (({} : Frame))) svc).2, (enterFrame ((10 : LpId)).val (({} : Frame)) (frameLen (({} : Frame))) svc).1, rfl, by decide +kernel⟩,
   ⟨(10 : LpId), ({} : Frame), credited, (enterFrame ((10 : LpId)).val (({} : Frame)) (frameLen (({} : Frame))) credited).2, (enterFrame ((10 : LpId)).val (({} : Frame)) (frameLen (({} : Frame))) credited).1, rfl, by decide +kernel⟩,
   ⟨(96 : LpId), sealHdr { opcode := 0x81, cls := 1, chan := 5, tag := 5, did := 0x10 }, credited, (enterFrame ((96 : LpId)).val (sealHdr { opcode := 0x81, cls := 1, chan := 5, tag := 5, did := 0x10 }) (frameLen (sealHdr { opcode := 0x81, cls := 1, chan := 5, tag := 5, did := 0x10 })) credited).2, (enterFrame ((96 : LpId)).val (sealHdr { opcode := 0x81, cls := 1, chan := 5, tag := 5, did := 0x10 }) (frameLen (sealHdr { opcode := 0x81, cls := 1, chan := 5, tag := 5, did := 0x10 })) credited).1, rfl, by decide +kernel⟩,
   ⟨(96 : LpId), sealHdr { opcode := 0x81, cls := 1, chan := 5, tag := 5, did := 0x10 }, modOut 96 (fun _ => [{ tag := 5, sid := 0x10 }]) credited, (enterFrame ((96 : LpId)).val (sealHdr { opcode := 0x81, cls := 1, chan := 5, tag := 5, did := 0x10 }) (frameLen (sealHdr { opcode := 0x81, cls := 1, chan := 5, tag := 5, did := 0x10 })) (modOut 96 (fun _ => [{ tag := 5, sid := 0x10 }]) credited)).2, (enterFrame ((96 : LpId)).val (sealHdr { opcode := 0x81, cls := 1, chan := 5, tag := 5, did := 0x10 }) (frameLen (sealHdr { opcode := 0x81, cls := 1, chan := 5, tag := 5, did := 0x10 })) (modOut 96 (fun _ => [{ tag := 5, sid := 0x10 }]) credited)).1, (outOf ((enterFrame ((96 : LpId)).val (sealHdr { opcode := 0x81, cls := 1, chan := 5, tag := 5, did := 0x10 }) (frameLen (sealHdr { opcode := 0x81, cls := 1, chan := 5, tag := 5, did := 0x10 })) (modOut 96 (fun _ => [{ tag := 5, sid := 0x10 }]) credited)).2) ((96 : LpId)).val (sealHdr { opcode := 0x81, cls := 1, chan := 5, tag := 5, did := 0x10 })).getD default, rfl, by decide +kernel⟩,
   ⟨(10 : LpId), sealHdr { opcode := 0x81, cls := 1, chan := 5, tag := 5, did := 0x100 }, credited, (enterFrame ((10 : LpId)).val (sealHdr { opcode := 0x81, cls := 1, chan := 5, tag := 5, did := 0x100 }) (frameLen (sealHdr { opcode := 0x81, cls := 1, chan := 5, tag := 5, did := 0x100 })) credited).2, (enterFrame ((10 : LpId)).val (sealHdr { opcode := 0x81, cls := 1, chan := 5, tag := 5, did := 0x100 }) (frameLen (sealHdr { opcode := 0x81, cls := 1, chan := 5, tag := 5, did := 0x100 })) credited).1, rfl, by decide +kernel⟩,
   ⟨(20 : LpId), sealHdr { opcode := 0x81, cls := 1, chan := 5, tag := 5, did := 0x100, hops := 1 }, credited, (enterFrame ((20 : LpId)).val (sealHdr { opcode := 0x81, cls := 1, chan := 5, tag := 5, did := 0x100, hops := 1 }) (frameLen (sealHdr { opcode := 0x81, cls := 1, chan := 5, tag := 5, did := 0x100, hops := 1 })) credited).2, (enterFrame ((20 : LpId)).val (sealHdr { opcode := 0x81, cls := 1, chan := 5, tag := 5, did := 0x100, hops := 1 }) (frameLen (sealHdr { opcode := 0x81, cls := 1, chan := 5, tag := 5, did := 0x100, hops := 1 })) credited).1, rfl, by decide +kernel⟩,
   ⟨(30 : LpId), svc, by decide +kernel⟩,
   ⟨(96 : LpId), (5 : BitVec 16), svc, by decide +kernel⟩,
   ⟨(96 : LpId), (5 : BitVec 16), modOut 96 (fun _ => [{ tag := 5, at_ := 9997999999, asker := .slice 1 2 }]) svc, bump .denRespTo ((96 : LpId)).val (modOut ((96 : LpId)).val (fun l => l.erase ({ tag := 5, at_ := 9997999999, asker := .slice 1 2 })) (modOut 96 (fun _ => [{ tag := 5, at_ := 9997999999, asker := .slice 1 2 }]) svc)), { tag := 5, at_ := 9997999999, asker := .slice 1 2 }, now (bump .denRespTo ((96 : LpId)).val (modOut ((96 : LpId)).val (fun l => l.erase ({ tag := 5, at_ := 9997999999, asker := .slice 1 2 })) (modOut 96 (fun _ => [{ tag := 5, at_ := 9997999999, asker := .slice 1 2 }]) svc))) :: slide (now (bump .denRespTo ((96 : LpId)).val (modOut ((96 : LpId)).val (fun l => l.erase ({ tag := 5, at_ := 9997999999, asker := .slice 1 2 })) (modOut 96 (fun _ => [{ tag := 5, at_ := 9997999999, asker := .slice 1 2 }]) svc)))) (cfgOf (modOut 96 (fun _ => [{ tag := 5, at_ := 9997999999, asker := .slice 1 2 }]) svc) ((96 : LpId)).val).window (tget (winOf (bump .denRespTo ((96 : LpId)).val (modOut ((96 : LpId)).val (fun l => l.erase ({ tag := 5, at_ := 9997999999, asker := .slice 1 2 })) (modOut 96 (fun _ => [{ tag := 5, at_ := 9997999999, asker := .slice 1 2 }]) svc))) ((96 : LpId)).val).viol 7), 1, 2, rfl, rfl, by decide +kernel⟩,
   ⟨(96 : LpId), modOut 96 (fun _ => [{ tag := 5, at_ := 9997999999, asker := .slice 1 2 }]) svc, by decide +kernel⟩,
   ⟨(32 : LpId), (5 : BitVec 16), modCxl 32 (fun c => { c with out := [{ tag := 5, at_ := 9998000000 }] }) svc, by decide +kernel⟩,
   ⟨(32 : LpId), (5 : BitVec 16), modCxl 32 (fun c => { c with out := [{ tag := 5, asker := .slice 1 2 }] }) svc, ((cxlOf (modCxl 32 (fun c => { c with out := [{ tag := 5, asker := .slice 1 2 }] }) svc) ((32 : LpId)).val).out.find? (fun o => o.tag == ((5 : BitVec 16)).toNat && decide (now (modCxl 32 (fun c => { c with out := [{ tag := 5, asker := .slice 1 2 }] }) svc) > o.at_ + (cfgOf (modCxl 32 (fun c => { c with out := [{ tag := 5, asker := .slice 1 2 }] }) svc) ((32 : LpId)).val).respTimeout))).getD default, 1, 2, by decide +kernel⟩,
   ⟨(32 : LpId), (5 : BitVec 16), modCxl 32 (fun c => { c with out := [{ tag := 5, asker := .sliceWrite 1 2 }] }) svc, ((cxlOf (modCxl 32 (fun c => { c with out := [{ tag := 5, asker := .sliceWrite 1 2 }] }) svc) ((32 : LpId)).val).out.find? (fun o => o.tag == ((5 : BitVec 16)).toNat && decide (now (modCxl 32 (fun c => { c with out := [{ tag := 5, asker := .sliceWrite 1 2 }] }) svc) > o.at_ + (cfgOf (modCxl 32 (fun c => { c with out := [{ tag := 5, asker := .sliceWrite 1 2 }] }) svc) ((32 : LpId)).val).respTimeout))).getD default, 1, 2, by decide +kernel⟩,
   ⟨(32 : LpId), (5 : BitVec 16), modCxl 32 (fun c => { c with out := [{ tag := 5, read := true, asker := .frame {} }] }) svc, ((cxlOf (modCxl 32 (fun c => { c with out := [{ tag := 5, read := true, asker := .frame {} }] }) svc) ((32 : LpId)).val).out.find? (fun o => o.tag == ((5 : BitVec 16)).toNat && decide (now (modCxl 32 (fun c => { c with out := [{ tag := 5, read := true, asker := .frame {} }] }) svc) > o.at_ + (cfgOf (modCxl 32 (fun c => { c with out := [{ tag := 5, read := true, asker := .frame {} }] }) svc) ((32 : LpId)).val).respTimeout))).getD default, {}, by decide +kernel⟩⟩

theorem test_hyps_CxlMessages :
    (∃ (lp : LpId) (s : State), (isCxl s lp.val = false ∨ lpUp s lp.val = false))
    ∧ (∃ (lp : LpId) (s : State), isCxl s lp.val = true ∧ lpUp s lp.val = true ∧ (lpOf s lp.val).l1 = false ∧ (lpOf s lp.val).dl = .dl0)
    ∧ (∃ (lp : LpId) (s : State) (m : CxlMsg), (∀ e, m ≠ .linkError e) ∧ (∀ k, m ≠ .ack k) ∧ (∀ k b, m ≠ .nak k b) ∧ isCxl s lp.val = true ∧ lpUp s lp.val = true ∧ (lpOf s lp.val).l1 = false ∧ (lpOf s lp.val).dl = .dl0 ∧ (cxlOf s lp.val).held = [])
    ∧ (∃ (lp : LpId) (s : State) (q : _) (m : CxlMsg), (∀ e, m ≠ .linkError e) ∧ (∀ k, m ≠ .ack k) ∧ (∀ k b, m ≠ .nak k b) ∧ isCxl s lp.val = true ∧ lpUp s lp.val = true ∧ (lpOf s lp.val).l1 = false ∧ (lpOf s lp.val).dl = .dl0 ∧ (cxlOf s lp.val).mode = .flit68 ∧ q ≠ flitAfter .flit68 (cxlOf s lp.val).rxSeq ∧ 128 ≤ (q + 256 - flitAfter .flit68 (cxlOf s lp.val).rxSeq) % 256)
    ∧ (∃ (lp : LpId) (s : State) (q : _) (m : CxlMsg), (∀ e, m ≠ .linkError e) ∧ (∀ k, m ≠ .ack k) ∧ (∀ k b, m ≠ .nak k b) ∧ isCxl s lp.val = true ∧ lpUp s lp.val = true ∧ (lpOf s lp.val).l1 = false ∧ (lpOf s lp.val).dl = .dl0 ∧ (cxlOf s lp.val).mode = .flit68 ∧ q ≠ flitAfter .flit68 (cxlOf s lp.val).rxSeq ∧ (q + 256 - flitAfter .flit68 (cxlOf s lp.val).rxSeq) % 256 < 128)
    ∧ (∃ (s : State) (n : _) (m : CxlMsg) (t : _), (∀ f, m ≠ .pbr f) ∧ takeCredits n m (bwCount n true (cxlBytes m) s) = (none, t))
    ∧ (∃ (lp : LpId) (s : State), (isCxl s lp.val = false ∨ (lpOf s lp.val).link ≠ .training ∨ portOn s lp.val = false ∨ s.sec.tableOk = false))
    ∧ (∃ (lp : LpId) (s : State) (rate : _) (x : CxlTrain), isCxl s lp.val = true ∧ (lpOf s lp.val).link = .training ∧ (lpOf s lp.val).idleUntil = none ∧ portOn s lp.val = true ∧ s.sec.tableOk = true ∧ (rateGts rate < 32 ∨ x.rcd = true))
    ∧ (∃ (lp : LpId) (s : State) (rate : _) (x : CxlTrain), isCxl s lp.val = true ∧ (lpOf s lp.val).link = .training ∧ (lpOf s lp.val).idleUntil = none ∧ portOn s lp.val = true ∧ s.sec.tableOk = true ∧ 32 ≤ rateGts rate ∧ x.rcd = false) :=
  ⟨⟨(10 : LpId), svc, by decide +kernel⟩,
   ⟨(30 : LpId), modCxl 30 (fun x => { x with used := [(5, 2 ^ 20)] }) svc, by decide +kernel⟩,
   ⟨(30 : LpId), svc, .bisnp true 0 1, (fun _ h => nomatch h), (fun _ h => nomatch h), (fun _ _ h => nomatch h), by decide +kernel⟩,
   ⟨(30 : LpId), modCxl 30 (fun c => { c with mode := .flit68 }) svc, 200, .bisnp true 0 1, (fun _ h => nomatch h), (fun _ h => nomatch h), (fun _ _ h => nomatch h), by decide +kernel⟩,
   ⟨(30 : LpId), modCxl 30 (fun c => { c with mode := .flit68 }) svc, 5, .bisnp true 0 1, (fun _ h => nomatch h), (fun _ h => nomatch h), (fun _ _ h => nomatch h), by decide +kernel⟩,
   ⟨modCxl 30 (fun x => { x with used := [(5, 2 ^ 20)] }) svc, 30, .bisnp true 0 1, (takeCredits 30 (.bisnp true 0 1) (bwCount 30 true (cxlBytes (.bisnp true 0 1)) (modCxl 30 (fun x => { x with used := [(5, 2 ^ 20)] }) svc))).2, (fun _ h => nomatch h), fstIs (by decide +kernel)⟩,
   ⟨(10 : LpId), svc, by decide +kernel⟩,
   ⟨(40 : LpId), modLp 40 (fun _ => { cfg := { mode := 2 }, link := .training }) svc, .r16, {}, by decide +kernel⟩,
   ⟨(40 : LpId), modLp 40 (fun _ => { cfg := { mode := 2, width := 4 }, link := .training }) svc, .r32, { lanes := 4 }, by decide +kernel⟩⟩

theorem test_hyps_CrossbarGrants :
    (∃ (a : ArbId) (s : State), (tget s.sw.arbs (arbKey a)).cur = none ∧ chooseGrant s (arbKey a) = none ∧ (∀ i, a ≠ .slice i))
    ∧ (∃ (a : ArbId) (s : State) (i : _), a = .slice i ∧ (tget s.sw.arbs (arbKey a)).cur = none ∧ chooseGrant s (arbKey a) = none)
    ∧ (∃ (a : ArbId) (s : State) (x : _), (tget s.sw.arbs (arbKey a)).cur = none ∧ chooseGrant s (arbKey a) = some x)
    ∧ (∃ (a : ArbId) (s : State) (x : XReq) (n : _), (tget s.sw.arbs (arbKey a)).cur = some x ∧ s.sw.reqs = [x] ∧ x.dst = .lp n ∧ x.f.cls ≠ clsBM ∧ x.arrived < frameLen x.f)
    ∧ (∃ (s : State) (key : Nat) (x : XReq), chooseGrant s key = some x)
    ∧ (∃ (s : State) (key : Nat) (x : XReq) (y : _), chooseGrant s key = some x ∧ arbOf y = key ∧ mayGrant s y = true ∧ offers (s.sw.reqs.filter (fun x => arbOf x == key && mayGrant s x)) y = true ∧ y ∈ s.sw.reqs) :=
  ⟨⟨.port 48, svc, by decide +kernel⟩,
   ⟨.slice 1, svc, 1, by decide +kernel⟩,
   ⟨.port 48, crossing, crossing1, by decide +kernel⟩,
   ⟨.port 48, modSw (fun w => { w with reqs := [{ f := { opcode := 1, did := 0x100 }, dst := .lp 96 }], arbs := [(48, { cur := some { f := { opcode := 1, did := 0x100 }, dst := .lp 96 } })] }) svc, { f := { opcode := 1, did := 0x100 }, dst := .lp 96 }, 96, by decide +kernel⟩,
   ⟨crossing, 48, crossing1, by decide +kernel⟩,
   ⟨crossing, 48, crossing1, crossing1, by decide +kernel⟩⟩

theorem test_hyps_EgressService :
    (∃ (lp : LpId) (s : State), (lpUp s lp.val = false ∨ (lpOf s lp.val).dl ≠ .dl0 ∨ (lpOf s lp.val).l1 = true))
    ∧ (∃ (lp : LpId) (s : State) (t : State), t = countDeferred lp.val (shaperRefill s) ∧ lpUp s lp.val = true ∧ (lpOf s lp.val).dl = .dl0 ∧ (lpOf s lp.val).l1 = false ∧ (∀ q, q < 8 → eligible t lp.val q = false))
    ∧ (∃ (lp : LpId) (s : State) (t : State) (q : _) (v : _) (h : _), t = countDeferred lp.val (shaperRefill s) ∧ chooseQueue lp.val t = (some q, v) ∧ lpUp s lp.val = true ∧ (lpOf s lp.val).dl = .dl0 ∧ (lpOf s lp.val).l1 = false ∧ headFree v lp.val q = some h ∧ gateSays v lp.val q (frameLen h.f) = .go)
    ∧ (∃ (lp : LpId) (s : State) (t : State), t = countDeferred lp.val (shaperRefill s) ∧ eligible t lp.val 7 = true)
    ∧ (∃ (n : Nat) (fuel : Nat) (s : State) (t : State) (q : Nat), dwrr n fuel s = (some q, t) ∧ (egressOf s n).next ≤ 6) :=
  ⟨⟨(40 : LpId), svc, by decide +kernel⟩,
   ⟨(10 : LpId), svc, countDeferred ((10 : LpId)).val (shaperRefill svc), rfl, by decide +kernel⟩,
   ⟨(10 : LpId), modQueue 87 (fun q => { q with frames := [{ f := { opcode := 1, cls := 3 }, avail := 32 }] }) credited, countDeferred ((10 : LpId)).val (shaperRefill (modQueue 87 (fun q => { q with frames := [{ f := { opcode := 1, cls := 3 }, avail := 32 }] }) credited)), (chooseQueue ((10 : LpId)).val (countDeferred ((10 : LpId)).val (shaperRefill (modQueue 87 (fun q => { q with frames := [{ f := { opcode := 1, cls := 3 }, avail := 32 }] }) credited)))).1.getD 0, (chooseQueue ((10 : LpId)).val (countDeferred ((10 : LpId)).val (shaperRefill (modQueue 87 (fun q => { q with frames := [{ f := { opcode := 1, cls := 3 }, avail := 32 }] }) credited)))).2, (headFree ((chooseQueue ((10 : LpId)).val (countDeferred ((10 : LpId)).val (shaperRefill (modQueue 87 (fun q => { q with frames := [{ f := { opcode := 1, cls := 3 }, avail := 32 }] }) credited)))).2) ((10 : LpId)).val ((chooseQueue ((10 : LpId)).val (countDeferred ((10 : LpId)).val (shaperRefill (modQueue 87 (fun q => { q with frames := [{ f := { opcode := 1, cls := 3 }, avail := 32 }] }) credited)))).1.getD 0)).getD default, rfl, fstIs (by decide +kernel), by decide +kernel⟩,
   ⟨(10 : LpId), modQueue 87 (fun q => { q with frames := [{ f := { opcode := 1, cls := 3 }, avail := 32 }] }) credited, countDeferred ((10 : LpId)).val (shaperRefill (modQueue 87 (fun q => { q with frames := [{ f := { opcode := 1, cls := 3 }, avail := 32 }] }) credited)), rfl, by decide +kernel⟩,
   ⟨10, 8, modQueue 86 (fun q => { q with frames := [{ f := { opcode := 1 }, avail := 32 }] }) credited, (dwrr 10 8 (modQueue 86 (fun q => { q with frames := [{ f := { opcode := 1 }, avail := 32 }] }) credited)).2, (dwrr 10 8 (modQueue 86 (fun q => { q with frames := [{ f := { opcode := 1 }, avail := 32 }] }) credited)).1.getD 0, fstIs (by decide +kernel), by decide +kernel⟩⟩

theorem test_hyps_HoldsShapersAndRuleSwaps :
    (∃ (s : State) (id : _), s.sw.merges.find? (fun m => m.id == id) = none)
    ∧ (∃ (s : State) (id : _) (m : _), s.sw.merges.find? (fun m => m.id == id) = some m ∧ now s ≤ m.deadline)
    ∧ (∃ (s : State) (id : _) (m : _), s.sw.merges.find? (fun m => m.id == id) = some m ∧ m.deadline < now s)
    ∧ (∃ (s : State) (p : PortId), (portOf s p.val).freeze = false)
    ∧ (∃ (s : State) (p : PortId) (x : _) (n : _), (portOf s p.val).freeze = true ∧ s.sw.arbs = [] ∧ s.sw.reqs = [x] ∧ x.dst = .lp n ∧ n / 2 = p.val ∧ x.since + (cfgOf s n).freezeLimit < now s)
    ∧ (∃ (s : State) (did : BitVec 12), (tget s.sw.holds did.toNat).why ≠ some .route)
    ∧ (∃ (s : State) (did : BitVec 12), (tget s.sw.holds did.toNat).why = some .route ∧ ((tget s.sw.holds did.toNat).until_ ≤ now s ∨ didQuiet s (tget s.sw.holds did.toNat).oldLp did.toNat = true))
    ∧ (∃ (s : State) (did : BitVec 12), now s < (tget s.sw.holds did.toNat).until_ ∧ didQuiet s (tget s.sw.holds did.toNat).oldLp did.toNat = false)
    ∧ (∃ (s : State), now s % 128 ≠ 0)
    ∧ (∃ (s : State), s.tm.suspended = true)
    ∧ (∃ (s : State), s.tm.refilled = now s + 1)
    ∧ (∃ (s : State), now s % 128 = 0 ∧ s.tm.refilled ≠ now s + 1 ∧ s.tm.suspended = false ∧ s.sw.queues = [] ∧ s.tm.held = [] ∧ s.tm.shapers = [])
    ∧ (∃ (s : State) (k : _) (x : _), now s % 128 = 0 ∧ s.tm.refilled ≠ now s + 1 ∧ s.tm.suspended = false ∧ s.sw.queues = [] ∧ s.tm.held = [] ∧ s.tm.shapers = [(k, x)] ∧ x.configured = true)
    ∧ (∃ (s : State) (f : Frame), liveBind s (handleAt f.data 0) = none)
    ∧ (∃ (s : State) (f : Frame) (x : _), liveBind s (handleAt f.data 0) = some x)
    ∧ (∃ (s : State) (b : _) (x : _) (y : _), y = shaperOf s (hIdx b) ∧ liveBind s b = some x ∧ y.par.throttle = true ∧ y.lastDec = none)
    ∧ (∃ (s : State) (b : _), liveBind s b = none)
    ∧ (∃ (s : State) (b : _) (x : _) (y : _), y = shaperOf s (hIdx b) ∧ liveBind s b = some x ∧ y.re < y.par.rate * 2 ^ 24 ∧ y.lastNotice + y.par.recov < now s)
    ∧ (∃ (s : State) (b : _), now s ≤ (shaperOf s (hIdx b)).lastNotice + (shaperOf s (hIdx b)).par.recov)
    ∧ (∃ (s : State) (lp : LpId) (u : _), (tgOf s lp.val).openUntil = some u ∧ u ≤ now s)
    ∧ (∃ (s : State) (lp : LpId) (u : _), (tgOf s lp.val).openUntil = some u ∧ now s < u)
    ∧ (∃ (s : State) (lp : LpId) (t : _), (tgOf s lp.val).committed = some t ∧ now s < t)
    ∧ (∃ (s : State) (lp : LpId) (t : _), (tgOf s lp.val).committed = some t ∧ t ≤ now s)
    ∧ (∃ (h : Handle) (s : State), (ruleSetOf s h).swapAt = none)
    ∧ (∃ (h : Handle) (s : State) (k : _), (ruleSetOf s h).swapAt = some k ∧ now s < k)
    ∧ (∃ (h : Handle) (s : State) (k : _), (ruleSetOf s h).swapAt = some k ∧ k ≤ now s ∧ (ruleSetOf s h).withRecall = false)
    ∧ (∃ (h : Handle) (s : State), (ruleSetOf s h).awaitDrain = false)
    ∧ (∃ (h : Handle) (s : State), (ruleSetOf s h).awaitDrain = true ∧ (ruleSetOf s h).swapAt = none ∧ s.ten.gates = [])
    ∧ (∃ (h : Handle) (s : State), liveHandle s h = false)
    ∧ (∃ (h : Handle) (s : State), (bindOf s (hIdx h)).step = 2 ∧ (bindQuiet s h = false ∨ (bindOf s (hIdx h)).posted ≠ 0))
    ∧ (∃ (h : Handle) (s : State), liveHandle s h = true ∧ (bindOf s (hIdx h)).step = 4 ∧ (sliceOf s (bindOf s (hIdx h)).slice).persistent = false)
    ∧ (∃ (h : Handle) (s : State), liveHandle s h = true ∧ (bindOf s (hIdx h)).step = 4 ∧ ownsSlice s (bindOf s (hIdx h)).slice = true ∧ max (bindOf s (hIdx h)).lastEpoch (bindOf s (hIdx h)).highEpoch ≤ s.hoard.durable)
    ∧ (∃ (h : Handle) (s : State), (bindOf s (hIdx h)).step = 4 ∧ (sliceOf s (bindOf s (hIdx h)).slice).persistent = true ∧ ownsSlice s (bindOf s (hIdx h)).slice = true ∧ s.hoard.durable < max (bindOf s (hIdx h)).lastEpoch (bindOf s (hIdx h)).highEpoch) :=
  ⟨⟨svc, 1, by decide +kernel⟩,
   ⟨modSw (fun w => { w with merges := [{ id := 1, deadline := 10000000001 }] }) svc, 1, ((modSw (fun w => { w with merges := [{ id := 1, deadline := 10000000001 }] }) svc).sw.merges.find? (fun m => m.id == 1)).getD default, by decide +kernel⟩,
   ⟨modSw (fun w => { w with merges := [{ id := 1, deadline := 9999999999 }] }) svc, 1, ((modSw (fun w => { w with merges := [{ id := 1, deadline := 9999999999 }] }) svc).sw.merges.find? (fun m => m.id == 1)).getD default, by decide +kernel⟩,
   ⟨svc, (48 : PortId), by decide +kernel⟩,
   ⟨modPort 48 (fun x => { x with freeze := true }) (modSw (fun w => { w with reqs := [{ crossing1 with since := 9989999999 }] }) svc), (48 : PortId), { crossing1 with since := 9989999999 }, 96, by decide +kernel⟩,
   ⟨svc, (0x100 : BitVec 12), by decide +kernel⟩,
   ⟨modSw (fun w => { w with holds := [(0x100, { why := some .route, until_ := 10000000000 })] }) svc, (0x100 : BitVec 12), by decide +kernel⟩,
   ⟨modTx 10 (fun t => { t with frames := [{ f := { did := 0x100 } }] }) (modSw (fun w => { w with holds := [(0x100, { why := some .route, until_ := 10000000001, oldLp := 10 })] }) svc), (0x100 : BitVec 12), by decide +kernel⟩,
   ⟨atNs 10000000001 svc, by decide +kernel⟩,
   ⟨modTm (fun t => { t with suspended := true }) svc, by decide +kernel⟩,
   ⟨modTm (fun t => { t with refilled := 10000000001 }) svc, by decide +kernel⟩,
   ⟨svc, by decide +kernel⟩,
   ⟨modTm (fun t => { t with shapers := [(65616, { configured := true })] }) svc, 65616, { configured := true }, by decide +kernel⟩,
   ⟨svc, ({} : Frame), by decide +kernel⟩,
   ⟨owned, ({ data := leBytes 4 0x10000000 } : Frame), (liveBind owned (handleAt (({ data := leBytes 4 0x10000000 } : Frame)).data 0)).getD default, by decide +kernel⟩,
   ⟨modTm (fun t => { t with shapers := [(0, { configured := true, par := { rate := 1000 } })] }) owned, 0x10000000, (liveBind (modTm (fun t => { t with shapers := [(0, { configured := true, par := { rate := 1000 } })] }) owned) 0x10000000).getD default, shaperOf (modTm (fun t => { t with shapers := [(0, { configured := true, par := { rate := 1000 } })] }) owned) (hIdx 0x10000000), rfl, by decide +kernel⟩,
   ⟨svc, (0 : Handle), by decide +kernel⟩,
   ⟨modTm (fun t => { t with shapers := [(0, { configured := true, started := true, par := { rate := 1000 } })] }) owned, (0x10000000 : Handle), (liveBind (modTm (fun t => { t with shapers := [(0, { configured := true, started := true, par := { rate := 1000 } })] }) owned) ((0x10000000 : Handle))).getD default, shaperOf (modTm (fun t => { t with shapers := [(0, { configured := true, started := true, par := { rate := 1000 } })] }) owned) (hIdx ((0x10000000 : Handle))), rfl, by decide +kernel⟩,
   ⟨modTm (fun t => { t with shapers := [(0, { configured := true, lastNotice := 10000000000 })] }) owned, 0x10000000, by decide +kernel⟩,
   ⟨modTg 10 (fun g => { g with openUntil := some 10000000000 }) svc, (10 : LpId), ((tgOf (modTg 10 (fun g => { g with openUntil := some 10000000000 }) svc) ((10 : LpId)).val).openUntil).getD default, by decide +kernel⟩,
   ⟨modTg 10 (fun g => { g with openUntil := some 10000000001 }) svc, (10 : LpId), ((tgOf (modTg 10 (fun g => { g with openUntil := some 10000000001 }) svc) ((10 : LpId)).val).openUntil).getD default, by decide +kernel⟩,
   ⟨modTg 10 (fun g => { g with committed := some 10000000001 }) svc, (10 : LpId), ((tgOf (modTg 10 (fun g => { g with committed := some 10000000001 }) svc) ((10 : LpId)).val).committed).getD default, by decide +kernel⟩,
   ⟨modTg 10 (fun g => { g with committed := some 10000000000 }) svc, (10 : LpId), ((tgOf (modTg 10 (fun g => { g with committed := some 10000000000 }) svc) ((10 : LpId)).val).committed).getD default, by decide +kernel⟩,
   ⟨0x70000000, owned, by decide +kernel⟩,
   ⟨0x70000000, rset (fun r => { r with swapAt := some 10000000001 }), ((ruleSetOf (rset (fun r => { r with swapAt := some 10000000001 })) 0x70000000).swapAt).getD default, by decide +kernel⟩,
   ⟨0x70000000, rset (fun r => { r with swapAt := some 10000000000 }), ((ruleSetOf (rset (fun r => { r with swapAt := some 10000000000 })) 0x70000000).swapAt).getD default, by decide +kernel⟩,
   ⟨0x70000000, owned, by decide +kernel⟩,
   ⟨0x70000000, rset (fun r => { r with awaitDrain := true }), by decide +kernel⟩,
   ⟨0x10000000, svc, by decide +kernel⟩,
   ⟨0x10000000, modBind 0 (fun b => { b with step := 2 }) (modOut 96 (fun _ => [{ tag := 5, binding := 0x10000000 }]) owned), by decide +kernel⟩,
   ⟨0x10000000, modBind 0 (fun b => { b with step := 4 }) owned, by decide +kernel⟩,
   ⟨0x10000000, modBind 0 (fun b => { b with step := 4 }) owned, by decide +kernel⟩,
   ⟨0x10000000, modBind 0 (fun b => { b with step := 4, highEpoch := 1 }) (modTen (fun t => { t with slices := [(0, { live := true, persistent := true })] }) owned), by decide +kernel⟩⟩

theorem test_hyps_BrockRequests :
    (∃ (f : Frame), hchkOk f = false)
    ∧ (∃ (f : Frame), hchkOk f = true ∧ cmWellFormed f = false)
    ∧ (∃ (i : SliceId) (lp : LpId) (f : Frame) (s : State) (u : State), u = bumpC .lookups i.val 0 1 (ctxOf s f) s ∧ hchkOk f = true ∧ cmWellFormed f = true ∧ (u.dev.st = .hibernate ∨ (slOf u i.val).lost.getLsbD lp.val = true))
    ∧ (∃ (i : SliceId) (lp : LpId) (f : Frame) (s : State) (u : State) (l : Nat), u = bumpC .lookups i.val 0 1 (ctxOf s f) s ∧ l = lineOf (fAddr f) ∧ hchkOk f = true ∧ cmWellFormed f = true ∧ u.dev.st ≠ .hibernate ∧ (slOf u i.val).lost.getLsbD lp.val = false ∧ coherentLine u l = false ∧ isAtomic f = false)
    ∧ (∃ (i : SliceId) (lp : LpId) (f : Frame) (s : State) (u : State) (l : Nat) (v : _) (k : _), u = bumpC .lookups i.val 0 1 (ctxOf s f) s ∧ l = lineOf (fAddr f) ∧ gateCheck i.val f u = (.pass, v) ∧ hchkOk f = true ∧ cmWellFormed f = true ∧ u.dev.st ≠ .hibernate ∧ (slOf u i.val).lost.getLsbD lp.val = false ∧ coherentLine u l = true ∧ remoteLp u l = none ∧ freeTrk v i.val = some k ∧ busyTrk v i.val l = none)
    ∧ (∃ (i : SliceId) (lp : LpId) (f : Frame) (s : State) (u : State) (l : Nat) (v : _), u = bumpC .lookups i.val 0 1 (ctxOf s f) s ∧ l = lineOf (fAddr f) ∧ gateCheck i.val f u = (.pass, v) ∧ freeTrk v i.val = none ∧ hchkOk f = true ∧ cmWellFormed f = true ∧ u.dev.st ≠ .hibernate ∧ (slOf u i.val).lost.getLsbD lp.val = false ∧ coherentLine u l = true ∧ remoteLp u l = none ∧ remoteLp v l = none)
    ∧ (∃ (i : SliceId) (lp : LpId) (f : Frame) (s : State) (u : State) (l : Nat) (v : _) (rs : _), u = bumpC .lookups i.val 0 1 (ctxOf s f) s ∧ l = lineOf (fAddr f) ∧ gateCheck i.val f u = (.refuse rs, v) ∧ hchkOk f = true ∧ cmWellFormed f = true ∧ u.dev.st ≠ .hibernate ∧ (slOf u i.val).lost.getLsbD lp.val = false ∧ coherentLine u l = true ∧ remoteLp u l = none ∧ isWrite f = false)
    ∧ (∃ (i : SliceId) (lp : LpId) (f : Frame) (s : State) (u : State) (l : Nat) (v : _) (k : _) (b : _), u = bumpC .lookups i.val 0 1 (ctxOf s f) s ∧ l = lineOf (fAddr f) ∧ gateCheck i.val f u = (.pass, v) ∧ hchkOk f = true ∧ cmWellFormed f = true ∧ u.dev.st ≠ .hibernate ∧ (slOf u i.val).lost.getLsbD lp.val = false ∧ coherentLine u l = true ∧ remoteLp u l = none ∧ freeTrk v i.val = some k ∧ busyTrk v i.val l = some b) :=
  ⟨⟨({} : Frame), by decide +kernel⟩,
   ⟨cmf 1 64, by decide +kernel⟩,
   ⟨(1 : SliceId), (10 : LpId), cmf 1 0, inSt .hibernate coh, bumpC .lookups ((1 : SliceId)).val 0 1 (ctxOf (inSt .hibernate coh) (cmf 1 0)) (inSt .hibernate coh), rfl, by decide +kernel⟩,
   ⟨(1 : SliceId), (10 : LpId), cmf 1 0, owned, bumpC .lookups ((1 : SliceId)).val 0 1 (ctxOf owned (cmf 1 0)) owned, lineOf (fAddr (cmf 1 0)), rfl, rfl, by decide +kernel⟩,
   ⟨(1 : SliceId), (10 : LpId), cmf 1 0, coh, bumpC .lookups ((1 : SliceId)).val 0 1 (ctxOf coh (cmf 1 0)) coh, lineOf (fAddr (cmf 1 0)), (gateCheck ((1 : SliceId)).val (cmf 1 0) (bumpC .lookups ((1 : SliceId)).val 0 1 (ctxOf coh (cmf 1 0)) coh)).2, (freeTrk ((gateCheck ((1 : SliceId)).val (cmf 1 0) (bumpC .lookups ((1 : SliceId)).val 0 1 (ctxOf coh (cmf 1 0)) coh)).2) ((1 : SliceId)).val).getD default, rfl, rfl, fstIs (isPass (by decide +kernel)), by decide +kernel⟩,
   ⟨(1 : SliceId), (10 : LpId), cmf 1 0, taken, bumpC .lookups ((1 : SliceId)).val 0 1 (ctxOf taken (cmf 1 0)) taken, lineOf (fAddr (cmf 1 0)), (gateCheck ((1 : SliceId)).val (cmf 1 0) (bumpC .lookups ((1 : SliceId)).val 0 1 (ctxOf taken (cmf 1 0)) taken)).2, rfl, rfl, fstIs (isPass (by decide +kernel)), noTrk _, by decide +kernel⟩,
   ⟨(1 : SliceId), (10 : LpId), cmf 1 0, modRules 0x70000000 (fun r => { r with committed := [] }) coh, bumpC .lookups ((1 : SliceId)).val 0 1 (ctxOf (modRules 0x70000000 (fun r => { r with committed := [] }) coh) (cmf 1 0)) (modRules 0x70000000 (fun r => { r with committed := [] }) coh), lineOf (fAddr (cmf 1 0)), (gateCheck 1 (cmf 1 0) (bumpC .lookups 1 0 1 (ctxOf (modRules 0x70000000 (fun r => { r with committed := [] }) coh) (cmf 1 0)) (modRules 0x70000000 (fun r => { r with committed := [] }) coh))).2, 0, rfl, rfl, fstIs (isRefusal (by decide +kernel)), by decide +kernel⟩,
   ⟨(1 : SliceId), (10 : LpId), cmf 1 0, modTrk 1 2047 (fun t => { t with used := true, line := 0x1000000, phase := .run }) coh, bumpC .lookups ((1 : SliceId)).val 0 1 (ctxOf (modTrk 1 2047 (fun t => { t with used := true, line := 0x1000000, phase := .run }) coh) (cmf 1 0)) (modTrk 1 2047 (fun t => { t with used := true, line := 0x1000000, phase := .run }) coh), lineOf (fAddr (cmf 1 0)), (gateCheck ((1 : SliceId)).val (cmf 1 0) (bumpC .lookups ((1 : SliceId)).val 0 1 (ctxOf (modTrk 1 2047 (fun t => { t with used := true, line := 0x1000000, phase := .run }) coh) (cmf 1 0)) (modTrk 1 2047 (fun t => { t with used := true, line := 0x1000000, phase := .run }) coh))).2, (freeTrk ((gateCheck ((1 : SliceId)).val (cmf 1 0) (bumpC .lookups ((1 : SliceId)).val 0 1 (ctxOf (modTrk 1 2047 (fun t => { t with used := true, line := 0x1000000, phase := .run }) coh) (cmf 1 0)) (modTrk 1 2047 (fun t => { t with used := true, line := 0x1000000, phase := .run }) coh))).2) ((1 : SliceId)).val).getD default, (busyTrk ((gateCheck ((1 : SliceId)).val (cmf 1 0) (bumpC .lookups ((1 : SliceId)).val 0 1 (ctxOf (modTrk 1 2047 (fun t => { t with used := true, line := 0x1000000, phase := .run }) coh) (cmf 1 0)) (modTrk 1 2047 (fun t => { t with used := true, line := 0x1000000, phase := .run }) coh))).2) ((1 : SliceId)).val (lineOf (fAddr (cmf 1 0)))).getD default, rfl, rfl, fstIs (isPass (by decide +kernel)), by decide +kernel⟩⟩

theorem test_hyps_BrockNoticesAndSnoopAnswers :
    (∃ (i : SliceId) (lp : LpId) (f : Frame) (s : State) (u : State) (l : Nat) (k : _), u = bumpC .lookups i.val 0 1 (ctxOf s f) s ∧ l = lineOf (fAddr f) ∧ hchkOk f = true ∧ cmWellFormed f = true ∧ (slOf u i.val).lost.getLsbD lp.val = false ∧ f.opcode = 0x11 ∧ dirKey u i.val l = some k ∧ recordsOwner u i.val k lp.val = true)
    ∧ (∃ (i : SliceId) (lp : LpId) (f : Frame) (s : State) (u : State) (l : Nat), u = bumpC .lookups i.val 0 1 (ctxOf s f) s ∧ l = lineOf (fAddr f) ∧ hchkOk f = true ∧ cmWellFormed f = true ∧ (slOf u i.val).lost.getLsbD lp.val = false ∧ f.opcode = 0x11 ∧ dirKey u i.val l = none)
    ∧ (∃ (i : SliceId) (lp : LpId) (f : Frame) (s : State) (u : State) (l : Nat) (k : _), u = bumpC .lookups i.val 0 1 (ctxOf s f) s ∧ l = lineOf (fAddr f) ∧ hchkOk f = true ∧ cmWellFormed f = true ∧ (slOf u i.val).lost.getLsbD lp.val = false ∧ f.opcode = 0x12 ∧ dirKey u i.val l = some k ∧ (dirAt u i.val k).coarse = false ∧ recordsAgent (dirAt u i.val k) lp.val = true ∧ recordsOwner u i.val k lp.val = false)
    ∧ (∃ (i : SliceId) (lp : LpId) (f : Frame) (s : State) (u : State) (l : Nat), u = bumpC .lookups i.val 0 1 (ctxOf s f) s ∧ l = lineOf (fAddr f) ∧ hchkOk f = true ∧ cmWellFormed f = true ∧ (slOf u i.val).lost.getLsbD lp.val = false ∧ f.opcode = 0x12 ∧ dirKey u i.val l = none)
    ∧ (∃ (i : SliceId) (lp : LpId) (f : Frame) (s : State) (u : State) (l : Nat), u = bumpC .lookups i.val 0 1 (ctxOf s f) s ∧ l = lineOf (fAddr f) ∧ hchkOk f = true ∧ cmWellFormed f = true ∧ (slOf u i.val).lost.getLsbD lp.val = false ∧ f.opcode = 0x10 ∧ dirKey u i.val l = none)
    ∧ (∃ (i : SliceId) (lp : LpId) (f : Frame) (s : State) (u : State) (l : Nat) (k : _) (v : _), u = bumpC .lookups i.val 0 1 (ctxOf s f) s ∧ l = lineOf (fAddr f) ∧ takeDirty l (lineFrom f.data) (f.status == stPoison) u = (false, v) ∧ hchkOk f = true ∧ cmWellFormed f = true ∧ (slOf u i.val).lost.getLsbD lp.val = false ∧ f.opcode = 0x10 ∧ dirKey u i.val l = some k ∧ recordsOwner u i.val k lp.val = true)
    ∧ (∃ (i : SliceId) (lp : LpId) (s : State) (u : State) (f : Frame), u = bumpC .lookups i.val 0 1 (ctxOf s f) s ∧ hchkOk f = true ∧ cmWellFormed f = true ∧ f.tag.toNat < 0x800 ∧ dueOf u i.val f.tag.toNat lp.val = none)
    ∧ (∃ (i : SliceId) (lp : LpId) (s : State) (u : State) (f : Frame) (d : Due), u = bumpC .lookups i.val 0 1 (ctxOf s f) s ∧ hchkOk f = true ∧ cmWellFormed f = true ∧ f.tag.toNat < 0x800 ∧ dueOf u i.val f.tag.toNat lp.val = some d ∧ now u < d.deadline)
    ∧ (∃ (i : SliceId) (lp : LpId) (s : State) (k : Fin 2048) (d : Due), dueOf s i.val k.val lp.val = some d ∧ d.deadline < now s)
    ∧ (∃ (i : SliceId) (lp : LpId) (s : State) (k : Fin 2048) (d : Due), dueOf s i.val k.val lp.val = some d ∧ now s ≤ d.deadline)
    ∧ (∃ (i : SliceId) (lp : LpId) (s : State) (k : Fin 2048), dueOf s i.val k.val lp.val = none) :=
  ⟨⟨(1 : SliceId), (10 : LpId), cmf 0x11 0, held 2, bumpC .lookups ((1 : SliceId)).val 0 1 (ctxOf (held 2) (cmf 0x11 0)) (held 2), lineOf (fAddr (cmf 0x11 0)), (dirKey (bumpC .lookups ((1 : SliceId)).val 0 1 (ctxOf (held 2) (cmf 0x11 0)) (held 2)) ((1 : SliceId)).val (lineOf (fAddr (cmf 0x11 0)))).getD default, rfl, rfl, by decide +kernel⟩,
   ⟨(1 : SliceId), (10 : LpId), cmf 0x11 0, coh, bumpC .lookups ((1 : SliceId)).val 0 1 (ctxOf coh (cmf 0x11 0)) coh, lineOf (fAddr (cmf 0x11 0)), rfl, rfl, by decide +kernel⟩,
   ⟨(1 : SliceId), (10 : LpId), cmf 0x12 0, held 1, bumpC .lookups ((1 : SliceId)).val 0 1 (ctxOf (held 1) (cmf 0x12 0)) (held 1), lineOf (fAddr (cmf 0x12 0)), (dirKey (bumpC .lookups ((1 : SliceId)).val 0 1 (ctxOf (held 1) (cmf 0x12 0)) (held 1)) ((1 : SliceId)).val (lineOf (fAddr (cmf 0x12 0)))).getD default, rfl, rfl, by decide +kernel⟩,
   ⟨(1 : SliceId), (10 : LpId), cmf 0x12 0, coh, bumpC .lookups ((1 : SliceId)).val 0 1 (ctxOf coh (cmf 0x12 0)) coh, lineOf (fAddr (cmf 0x12 0)), rfl, rfl, by decide +kernel⟩,
   ⟨(1 : SliceId), (10 : LpId), cmf 0x10 64, coh, bumpC .lookups ((1 : SliceId)).val 0 1 (ctxOf coh (cmf 0x10 64)) coh, lineOf (fAddr (cmf 0x10 64)), rfl, rfl, by decide +kernel⟩,
   ⟨(1 : SliceId), (10 : LpId), cmf 0x10 64, held 2, bumpC .lookups ((1 : SliceId)).val 0 1 (ctxOf (held 2) (cmf 0x10 64)) (held 2), lineOf (fAddr (cmf 0x10 64)), (dirKey (bumpC .lookups ((1 : SliceId)).val 0 1 (ctxOf (held 2) (cmf 0x10 64)) (held 2)) ((1 : SliceId)).val (lineOf (fAddr (cmf 0x10 64)))).getD default, (takeDirty (lineOf (fAddr (cmf 0x10 64))) (lineFrom (cmf 0x10 64).data) ((cmf 0x10 64).status == stPoison) (bumpC .lookups ((1 : SliceId)).val 0 1 (ctxOf (held 2) (cmf 0x10 64)) (held 2))).2, rfl, rfl, fstIs (by decide +kernel), by decide +kernel⟩,
   ⟨(1 : SliceId), (10 : LpId), coh, bumpC .lookups ((1 : SliceId)).val 0 1 (ctxOf coh (sealHdr { opcode := 0x90, tag := 0x7FF })) coh, sealHdr { opcode := 0x90, tag := 0x7FF }, rfl, by decide +kernel⟩,
   ⟨(1 : SliceId), (10 : LpId), modTrk 1 2047 (fun t => { t with used := true, due := [{ lp := 10, op := 0x21, deadline := 10000000001 }] }) coh, bumpC .lookups ((1 : SliceId)).val 0 1 (ctxOf (modTrk 1 2047 (fun t => { t with used := true, due := [{ lp := 10, op := 0x21, deadline := 10000000001 }] }) coh) (sealHdr { opcode := 0x90, tag := 0x7FF })) (modTrk 1 2047 (fun t => { t with used := true, due := [{ lp := 10, op := 0x21, deadline := 10000000001 }] }) coh), sealHdr { opcode := 0x90, tag := 0x7FF }, { lp := 10, op := 0x21, deadline := 10000000001 }, rfl, by decide +kernel⟩,
   ⟨(1 : SliceId), (10 : LpId), modTrk 1 2047 (fun t => { t with used := true, due := [{ lp := 10, op := 0x21, deadline := 9999999999 }] }) coh, (2047 : Fin 2048), { lp := 10, op := 0x21, deadline := 9999999999 }, by decide +kernel⟩,
   ⟨(1 : SliceId), (10 : LpId), modTrk 1 2047 (fun t => { t with used := true, due := [{ lp := 10, op := 0x21, deadline := 10000000000 }] }) coh, (2047 : Fin 2048), { lp := 10, op := 0x21, deadline := 10000000000 }, by decide +kernel⟩,
   ⟨(1 : SliceId), (10 : LpId), coh, (2047 : Fin 2048), by decide +kernel⟩⟩

theorem test_hyps_SliceDataAndDrey :
    (∃ (i : SliceId) (s : State) (k : Fin 2048), (trkOf s i.val k.val).used = false)
    ∧ (∃ (i : SliceId) (s : State) (k : Fin 2048), (trkOf s i.val k.val).used = true ∧ (trkOf s i.val k.val).asked = 3 ∧ (trkOf s i.val k.val).fwd = false ∧ (trkOf s i.val k.val).bulk = true)
    ∧ (∃ (i : SliceId) (s : State), (slOf s i.val).memHold = [])
    ∧ (∃ (i : SliceId) (s : State) (l : BitVec 46), (slOf s i.val).memHold = [l.toNat] ∧ (slOf s i.val).wbWait = [] ∧ (slOf s i.val).trks = [])
    ∧ (∃ (i : SliceId) (s : State), (slOf s i.val).sweeps = [])
    ∧ (∃ (i : SliceId) (s : State) (lp : LpId), (slOf s i.val).sweeps = [lp.val] ∧ (slOf s i.val).dir = [])
    ∧ (∃ (i : SliceId) (s : State), (slOf s i.val).misses = [])
    ∧ (∃ (i : SliceId) (s : State) (v : BitVec 23) (k : _), (slOf s i.val).misses = [(v.toNat, [k])] ∧ (slOf s i.val).trks = [])
    ∧ (∃ (k : Fin 4) (s : State), quota s * 3 ≤ dirtyCount s k.val * 4 ∧ dirtyCount s k.val < quota s ∧ (dreyOf s k.val).capHold = false ∧ memoryRuns s = true)
    ∧ (∃ (k : Fin 4) (s : State), memoryRuns s = true ∧ dirtyCount s k.val * 2 < quota s ∧ (dreyOf s k.val).capHold = false)
    ∧ (∃ (k : Fin 4) (s : State), quota s ≤ dirtyCount s k.val ∧ 0 < quota s ∧ (dreyOf s k.val).capHold = false ∧ memoryRuns s = true)
    ∧ (∃ (k : Fin 4) (s : State), quota s ≤ dirtyCount s k.val * 2 ∧ dirtyCount s k.val * 4 < quota s * 3 ∧ (dreyOf s k.val).capHold = true ∧ memoryRuns s = true)
    ∧ (∃ (k : Fin 4) (s : State) (u : _), u = capUpdate k.val s ∧ memoryRuns s = true ∧ (dreyOf u k.val).cleaning = true)
    ∧ (∃ (k : Fin 4) (s : State), memoryRuns s = true ∧ now s < (dreyOf s k.val).periodStart + s.scrubHours * 3600000000000)
    ∧ (∃ (k : Fin 4) (s : State), memoryRuns s = true ∧ (dreyOf s k.val).periodStart + s.scrubHours * 3600000000000 ≤ now s)
    ∧ (∃ (k : Fin 4) (s : State) (e : WordError) (r : _), memoryRuns s = true ∧ corrects e.symbols = true ∧ r = (e.pc * 256 + e.bank) * 2 ^ 32 + e.row ∧ tget (dreyOf s k.val).rowErrs r + 1 < 16) :=
  ⟨⟨(1 : SliceId), coh, (0 : Fin 2048), by decide +kernel⟩,
   ⟨(1 : SliceId), modTrk 1 2047 (fun t => { t with used := true, asked := 3, bulk := true }) coh, (2047 : Fin 2048), by decide +kernel⟩,
   ⟨(1 : SliceId), coh, by decide +kernel⟩,
   ⟨(1 : SliceId), modSl 1 (fun x => { x with memHold := [7] }) coh, (7 : BitVec 46), by decide +kernel⟩,
   ⟨(1 : SliceId), coh, by decide +kernel⟩,
   ⟨(1 : SliceId), modSl 1 (fun x => { x with sweeps := [10] }) coh, (10 : LpId), by decide +kernel⟩,
   ⟨(1 : SliceId), coh, by decide +kernel⟩,
   ⟨(1 : SliceId), modSl 1 (fun x => { x with misses := [(7, [3])] }) coh, (7 : BitVec 23), 3, by decide +kernel⟩,
   ⟨(0 : Fin 4), manyDirty (3 * 2 ^ 20) false, by rw [show ((0 : Fin 4) : Nat) = 0 from rfl, dirtyCount_manyDirty]; decide, by rw [show ((0 : Fin 4) : Nat) = 0 from rfl, dirtyCount_manyDirty]; decide, rfl, by decide +kernel⟩,
   ⟨(0 : Fin 4), coh, by decide +kernel⟩,
   ⟨(0 : Fin 4), manyDirty (2 ^ 22) false, by rw [show ((0 : Fin 4) : Nat) = 0 from rfl, dirtyCount_manyDirty]; decide, by decide, rfl, by decide +kernel⟩,
   ⟨(0 : Fin 4), manyDirty (2 ^ 21) true, by rw [show ((0 : Fin 4) : Nat) = 0 from rfl, dirtyCount_manyDirty]; decide, by rw [show ((0 : Fin 4) : Nat) = 0 from rfl, dirtyCount_manyDirty]; decide, rfl, by decide +kernel⟩,
   ⟨(0 : Fin 4), { svc with dur := { svc.dur with dirtyCap := 0 } }, capUpdate ((0 : Fin 4)).val ({ svc with dur := { svc.dur with dirtyCap := 0 } }), rfl, by decide +kernel⟩,
   ⟨(0 : Fin 4), modDrey 0 (fun x => { x with periodStart := 1 }) svc, by decide +kernel⟩,
   ⟨(0 : Fin 4), atNs 86400000000000 svc, by decide +kernel⟩,
   ⟨(0 : Fin 4), modDrey 0 (fun d => { d with rowErrs := [(0, 14)] }) svc, { addr := 0, pc := 0, bank := 0, row := 0, symbols := [0, 71] }, 0, by decide +kernel⟩⟩

end Sys2Proof.Tests
end

section
/-! The stall of a Den link's acknowledgements: when `ackStall` takes the link down, and when it leaves the state alone (R123). -/

namespace Sys2Proof.Machine

/-- ACK_STALL_TIMEOUT is `ackStall` on the named port, settled. -/
theorem exec_ackStallTimeout (lp : LpId) (s : State) : exec (.ackStallTimeout lp) s = .next (settle (ackStall lp.val s)) := rfl

theorem ackStall_eq_fall_of_stalled {n : Nat} {s : State} (hlive : linkLive s n = true)
    (hout : (txOf s n).next ≠ (txOf s n).unacked) (hdue : (txOf s n).lastAdv + 1000000 ≤ now s) : ackStall n s = fall n 0 s := by
  have hnotEarly : ¬ now s < (txOf s n).lastAdv + 1000000 := Nat.not_lt.mpr hdue
  simp [ackStall, hlive, hout, hnotEarly]

theorem ackStall_eq_self_of_none_outstanding {n : Nat} {s : State} (hnone : (txOf s n).next = (txOf s n).unacked) :
    ackStall n s = s := by
  simp [ackStall, hnone]

theorem ackStall_eq_self_of_not_due {n : Nat} {s : State} (hearly : now s < (txOf s n).lastAdv + 1000000) :
    ackStall n s = s := by
  simp [ackStall, hearly]

end Sys2Proof.Machine

namespace Sys2Proof.Proofs

open Sys2Proof Sys2Proof.Machine

/-- Settles O39: ACK_STALL_TIMEOUT is `ackStall` settled, whose guard fails only on a live link with a flit outstanding whose 1 ms has passed. -/
theorem ackStallDeclaresLinkDown : Obligations.AckStallDeclaresLinkDown := by
  intro lp s
  rw [exec_ackStallTimeout]
  refine ⟨fun hlive hout hdue => ?_, fun hnone => ?_, fun hearly => ?_⟩
  · rw [ackStall_eq_fall_of_stalled hlive hout hdue]
  · rw [ackStall_eq_self_of_none_outstanding hnone]
  · rw [ackStall_eq_self_of_not_due hearly]

end Sys2Proof.Proofs
end

section
/-! The PFAIL_N pin: its fall and rise, the short pulse, and the 2 µs after which HIBERNATE acts (R413). -/

namespace Sys2Proof.Machine

theorem exec_pfailNFall (s : State) : exec .pfailNFall s = .next (settle (pfailFall s)) := rfl

theorem exec_pfailNShortPulse (s : State) : exec .pfailNShortPulse s = .next (settle (pfailShort s)) := rfl

theorem exec_pfailNRise (s : State) :
    exec .pfailNRise s = .next (settle { s with hib := { s.hib with pfailLow := false } }) := rfl

theorem exec_hibernate (s : State) : exec .hibernate s = .next (settle (if pfailHeld s then powerFail s else s)) := rfl

theorem pfailFall_of_high {s : State} (hhigh : s.hib.pfailLow = false) :
    pfailFall s = { s with hib := { s.hib with pfailLow := true, lowSince := now s } } := by
  simp [pfailFall, hhigh]

theorem pfailFall_eq_self_of_low {s : State} (hlow : s.hib.pfailLow = true) : pfailFall s = s := by
  simp [pfailFall, hlow]

theorem pfailShort_of_low_early {s : State} (hlow : s.hib.pfailLow = true) (hearly : now s < s.hib.lowSince + 2000) :
    pfailShort s = bump .shortPfail 0 { s with hib := { s.hib with pfailLow := false } } := by
  simp [pfailShort, hlow, hearly]

theorem pfailHeld_iff {s : State} : pfailHeld s = true ↔ s.hib.pfailLow = true ∧ s.hib.lowSince + 2000 ≤ now s := by
  simp [pfailHeld]

end Sys2Proof.Machine

namespace Sys2Proof.Proofs

open Sys2Proof Sys2Proof.Machine

/-- Settles O33: the fall starts the count only on a high pin, the rise ends it, and HIBERNATE acts exactly when `pfailHeld_iff` says that 2 µs have passed. -/
theorem pfailActsAfterTwoMicroseconds : Obligations.PfailActsAfterTwoMicroseconds := by
  intro s
  rw [exec_pfailNFall, exec_pfailNRise, exec_pfailNShortPulse, exec_hibernate]
  refine ⟨fun hhigh => ?fallHigh, fun hlow => ?fallLow, rfl, fun hlow hearly => ?shortPulse,
    fun _ hearly => ?heldEarly, fun hlow hdue => ?heldLong⟩
  case fallHigh => rw [pfailFall_of_high hhigh]
  case fallLow => rw [pfailFall_eq_self_of_low hlow]
  case shortPulse => rw [pfailShort_of_low_early hlow hearly]
  case heldEarly =>
    have hnot : ¬ pfailHeld s = true := fun hheld => Nat.not_le.mpr hearly (pfailHeld_iff.mp hheld).2
    rw [if_neg hnot]
  case heldLong => rw [if_pos (pfailHeld_iff.mpr ⟨hlow, hdue⟩)]

end Sys2Proof.Proofs
end

section
/-! A write of MBX_NTC_CONS: a page access reaches the binding that `pageBinding` names, and a consumer index that overruns the notice ring is counted and not taken (R462, R464). -/

namespace Sys2Proof.Machine

/-- MBX_NTC_CONS_WRITE is `writeCons` on the binding whose page the host reaches, settled. -/
theorem exec_mbxNtcConsWrite (r : PageRef) (v : BitVec 32) (s : State) :
    exec (.mbxNtcConsWrite r v) s = .next (settle (onPage r true (bump .pageMiss 0) (fun i => writeCons i v) s)) := rfl

/-- The states that take requests (R18) are among those in which the Sett runs (R17). -/
theorem settRuns_of_takesRequests {s : State} (htakes : takesRequests s = true) : settRuns s = true := by
  cases hst : s.dev.st <;> simp [takesRequests, settRuns, hst] at htakes ⊢

/-- A page access is served: through a live port, in a state that takes requests, on a page that a binding has. -/
theorem onPage_of_binding {r : PageRef} {s : State} {i : Nat} (hup : lpUp s r.lp.val = true)
    (htakes : takesRequests s = true) (hpage : pageBinding s r.lp.val r.pasid.toNat r.page = some i)
    (posted : Bool) (miss : State → State) (serve : Nat → State → State) :
    onPage r posted miss serve s = serve i s := by
  simp [onPage, settRuns_of_takesRequests htakes, hup, hpage, htakes]

theorem writeCons_of_overrun {i : Nat} {v : BitVec 32} {s : State}
    (hover : 128 < ((tget s.ten.rings i).prod - v).toNat) : writeCons i v s = bump .ignCons 0 s :=
  if_pos hover

end Sys2Proof.Machine

namespace Sys2Proof.Proofs

open Sys2Proof Sys2Proof.Machine

/-- Settles O26: the access reaches `writeCons` on the page's binding, whose guard against more than 128 outstanding notices only counts the write. -/
theorem consumerIndexOverrunIsIgnored : Obligations.ConsumerIndexOverrunIsIgnored := by
  intro r s i v hup htakes hpage hover
  rw [exec_mbxNtcConsWrite, onPage_of_binding hup htakes hpage, writeCons_of_overrun hover]

end Sys2Proof.Proofs
end

section
/-! A count can forward an interrupt and so set an MSI-X pending bit (R505, R680); it leaves the rest of the PE mailbox alone. -/

namespace Sys2Proof.Machine

/-- The registers of the PE mailbox but for the pending bits of MSI-X, which a forwarded interrupt may set. -/
def mbxButPending (s : State) : MbxSt := { s.mbx with pba := 0 }

theorem mbxButPending_slots (s : State) : (mbxButPending s).slots = s.mbx.slots := rfl

theorem mbxButPending_ignored (s : State) : (mbxButPending s).ignored = s.mbx.ignored := rfl

@[simp] theorem mbxButPending_msix (v : Nat) (s : State) : mbxButPending (msix v s) = mbxButPending s := by
  unfold msix
  split <;> rfl

@[simp] theorem mbxButPending_sicPend (src n : Nat) (s : State) : mbxButPending (sicPend src n s) = mbxButPending s := by
  unfold sicPend
  dsimp only
  split
  · exact mbxButPending_msix _ _
  · rfl

@[simp] theorem mbxButPending_sicEdge (src : Nat) (s : State) : mbxButPending (sicEdge src s) = mbxButPending s := by
  unfold sicEdge
  dsimp only
  split
  · exact mbxButPending_sicPend _ _ _
  · split
    · exact mbxButPending_sicPend _ _ _
    · rfl

@[simp] theorem mbxButPending_slotStep (key n block : Nat) (c : CtrCtx) (p : PerfSlot) (s : State) :
    mbxButPending (slotStep key n block c p s) = mbxButPending s := by
  unfold slotStep
  dsimp only
  split
  · refine (mbxButPending_sicEdge _ _).trans ?_
    split <;> rfl
  · split <;> rfl

@[simp] theorem mbxButPending_slotCount (key n block : Nat) (c : CtrCtx) (s : State) :
    mbxButPending (slotCount key n block c s) = mbxButPending s := by
  rw [slotCount_eq_fold]
  refine List.foldlRecOn (motive := fun t => mbxButPending t = mbxButPending s) _ _ rfl fun t ht p _ => ?_
  rw [mbxButPending_slotStep, ht]

@[simp] theorem mbxButPending_bumpC (k : Ctr) (unit idx n : Nat) (c : CtrCtx) (s : State) :
    mbxButPending (bumpC k unit idx n c s) = mbxButPending s := by
  unfold bumpC
  dsimp only
  split
  · split
    · exact mbxButPending_sicEdge _ _
    · exact (mbxButPending_slotCount _ _ _ _ _).trans (mbxButPending_sicEdge _ _)
  · split
    · rfl
    · exact mbxButPending_slotCount _ _ _ _ _

@[simp] theorem bump_mbx_slots (k : Ctr) (unit : Nat) (s : State) : (bump k unit s).mbx.slots = s.mbx.slots := by
  rw [bump, ← mbxButPending_slots, mbxButPending_bumpC, mbxButPending_slots]

@[simp] theorem bump_mbx_ignored (k : Ctr) (unit : Nat) (s : State) : (bump k unit s).mbx.ignored = s.mbx.ignored := by
  rw [bump, ← mbxButPending_ignored, mbxButPending_bumpC, mbxButPending_ignored]

end Sys2Proof.Machine
end

section
/-! The mailbox slots under a write of MBX_DOORBELL and of MBX_DONE: what one bit does, then what a list of bits does by induction over it (R504, R507). -/

namespace Sys2Proof.Machine

/-! A slot that stands in one state moves to another: what both registers do to the table of slots. -/

/-- The table of slots after slot `k` moved to `b`, when it stood in `a`. -/
def moveSlot (a b : SlotState) (t : Tab SlotState) (k : Nat) : Tab SlotState :=
  if tget t k = a then tset t k b else t

theorem tget_moveSlot (a b : SlotState) (t : Tab SlotState) (k j : Nat) :
    tget (moveSlot a b t k) j = if j = k ∧ tget t j = a then b else tget t j := by
  by_cases hk : tget t k = a
  · by_cases hj : j = k
    · subst hj
      simp [moveSlot, hk]
    · simp [moveSlot, hk, hj, tget_tset_ne]
  · have hnot : ¬ (j = k ∧ tget t j = a) := fun ⟨hj, h⟩ => hk (hj ▸ h)
    simp [moveSlot, hk, hnot]

theorem tget_foldl_moveSlot (a b : SlotState) (ks : List Nat) (t : Tab SlotState) (j : Nat) :
    tget (ks.foldl (moveSlot a b) t) j = if j ∈ ks ∧ tget t j = a then b else tget t j := by
  induction ks generalizing t with
  | nil => simp
  | cons k ks ih =>
    rw [List.foldl_cons, ih, tget_moveSlot]
    by_cases hj : j = k
    · subst hj
      by_cases hstate : tget t j = a <;> simp [hstate]
    · simp [hj]

/-! One bit of MBX_DOORBELL. -/

theorem ringSlot_of_free {s : State} {k : Nat} (hfree : tget s.mbx.slots k = .free) :
    ringSlot s k = modCmd (fun c => { c with peQueue := c.peQueue ++ [k] })
      (modMbx (fun m => { m with slots := tset m.slots k .posted }) s) := by
  simp [ringSlot, hfree]

theorem ringSlot_of_not_free {s : State} {k : Nat} (hbusy : tget s.mbx.slots k ≠ .free) :
    ringSlot s k = bump .ignDoorbell 0 (modMbx (fun m => { m with ignored := m.ignored + 1 }) s) := by
  simp [ringSlot, hbusy]

theorem ringSlot_slots (s : State) (k : Nat) :
    (ringSlot s k).mbx.slots = moveSlot .free .posted s.mbx.slots k := by
  by_cases hfree : tget s.mbx.slots k = .free
  · simp [ringSlot_of_free hfree, moveSlot, hfree]
  · simp [ringSlot_of_not_free hfree, moveSlot, hfree]

theorem ringSlot_peQueue (s : State) (k : Nat) :
    (ringSlot s k).cmd.peQueue = s.cmd.peQueue ++ [k].filter (fun j => tget s.mbx.slots j == .free) := by
  by_cases hfree : tget s.mbx.slots k = .free
  · simp [ringSlot_of_free hfree, hfree]
  · simp [ringSlot_of_not_free hfree, hfree]

theorem ringSlot_ignored (s : State) (k : Nat) :
    (ringSlot s k).mbx.ignored
      = s.mbx.ignored + BitVec.ofNat 32 ([k].filter (fun j => tget s.mbx.slots j != .free)).length := by
  by_cases hfree : tget s.mbx.slots k = .free
  · simp [ringSlot_of_free hfree, hfree]
  · simp [ringSlot_of_not_free hfree, hfree]

/-- A doorbell bit leaves the tenants, the ports, the switch, the device state and the log alone. -/
theorem ringSlot_frame (s : State) (k : Nat) :
    (ringSlot s k).ten = s.ten ∧ (ringSlot s k).net = s.net ∧ (ringSlot s k).sw = s.sw
      ∧ (ringSlot s k).dev = s.dev ∧ (ringSlot s k).log = s.log := by
  by_cases hfree : tget s.mbx.slots k = .free
  · simp [ringSlot_of_free hfree]
  · simp [ringSlot_of_not_free hfree]

/-- Ringing a slot does not change which of the other slots pass a test. -/
theorem filter_slots_ringSlot {s : State} {k : Nat} {ks : List Nat} (hk : k ∉ ks) (p : SlotState → Bool) :
    ks.filter (fun j => p (tget (ringSlot s k).mbx.slots j)) = ks.filter (fun j => p (tget s.mbx.slots j)) := by
  refine List.filter_congr fun j hj => ?_
  have hne : j ≠ k := fun h => hk (h ▸ hj)
  rw [ringSlot_slots, tget_moveSlot, if_neg fun h => hne h.1]

/-! A list of doorbell bits, taken in its order. -/

theorem foldl_ringSlot_slots (ks : List Nat) (s : State) :
    (ks.foldl ringSlot s).mbx.slots = ks.foldl (moveSlot .free .posted) s.mbx.slots :=
  (List.foldl_hom (fun s : State => s.mbx.slots) fun s k => (ringSlot_slots s k).symm).symm

theorem foldl_ringSlot_peQueue {ks : List Nat} (hks : ks.Nodup) (s : State) :
    (ks.foldl ringSlot s).cmd.peQueue = s.cmd.peQueue ++ ks.filter (fun j => tget s.mbx.slots j == .free) := by
  induction ks generalizing s with
  | nil => simp
  | cons k ks ih =>
    obtain ⟨hk, hks⟩ := List.nodup_cons.mp hks
    rw [List.foldl_cons, ih hks, filter_slots_ringSlot hk (· == .free), ringSlot_peQueue, List.append_assoc,
      ← List.filter_append, List.singleton_append]

theorem foldl_ringSlot_ignored {ks : List Nat} (hks : ks.Nodup) (s : State) :
    (ks.foldl ringSlot s).mbx.ignored
      = s.mbx.ignored + BitVec.ofNat 32 (ks.filter (fun j => tget s.mbx.slots j != .free)).length := by
  induction ks generalizing s with
  | nil => simp
  | cons k ks ih =>
    obtain ⟨hk, hks⟩ := List.nodup_cons.mp hks
    rw [List.foldl_cons, ih hks, filter_slots_ringSlot hk (· != .free), ringSlot_ignored, BitVec.add_assoc,
      ← BitVec.ofNat_add, ← List.length_append, ← List.filter_append, List.singleton_append]

theorem foldl_ringSlot_frame (ks : List Nat) (s : State) :
    (ks.foldl ringSlot s).ten = s.ten ∧ (ks.foldl ringSlot s).net = s.net ∧ (ks.foldl ringSlot s).sw = s.sw
      ∧ (ks.foldl ringSlot s).dev = s.dev ∧ (ks.foldl ringSlot s).log = s.log := by
  induction ks generalizing s with
  | nil => simp
  | cons k ks ih => simpa [ringSlot_frame s k] using ih (ringSlot s k)

/-! One bit of MBX_DONE, and a list of them: the slots change and nothing else. -/

theorem clearDone_eq (s : State) (k : Nat) :
    clearDone s k = { s with mbx := { s.mbx with slots := moveSlot .done .free s.mbx.slots k } } := by
  by_cases hdone : tget s.mbx.slots k = .done
  · simp [clearDone, modMbx, moveSlot, hdone]
  · simp [clearDone, moveSlot, hdone]

theorem foldl_clearDone (ks : List Nat) (s : State) :
    ks.foldl clearDone s
      = { s with mbx := { s.mbx with slots := ks.foldl (moveSlot .done .free) s.mbx.slots } } := by
  induction ks generalizing s with
  | nil => rfl
  | cons k ks ih => rw [List.foldl_cons, ih, clearDone_eq, List.foldl_cons]

/-! The two register writes. -/

/-- The slots whose bits a written word sets, in rising order. -/
def namedSlots (v : BitVec 32) : List Nat := (List.range 16).filter (fun k => v.getLsbD k)

theorem mem_namedSlots {v : BitVec 32} {k : Nat} : k ∈ namedSlots v ↔ k < 16 ∧ v.getLsbD k = true := by
  simp [namedSlots]

theorem nodup_namedSlots (v : BitVec 32) : (namedSlots v).Nodup := List.nodup_range.filter _

theorem filter_namedSlots (v : BitVec 32) (p : Nat → Bool) :
    (namedSlots v).filter p = (List.range 16).filter (fun k => v.getLsbD k && p k) := by
  simp [namedSlots, List.filter_filter, Bool.and_comm]

theorem exec_mbxDoorbellWrite {s : State} (htakes : takesDoorbells s = true) (v : BitVec 32) :
    exec (.mbxDoorbellWrite v) s = .next (settle ((namedSlots v).foldl ringSlot s)) := by
  change Host.Outcome.next (settle (doorbell v s)) = _
  rw [doorbell, if_pos htakes, namedSlots]

theorem exec_mbxDoneClear {s : State} (hup : peUp s = true) (v : BitVec 32) :
    exec (.mbxDoneClear v) s = .next (settle
      { s with mbx := { s.mbx with slots := (namedSlots v).foldl (moveSlot .done .free) s.mbx.slots } }) := by
  change Host.Outcome.next (settle (doneWrite v s)) = _
  rw [doneWrite, if_pos hup, ← namedSlots, foldl_clearDone]

end Sys2Proof.Machine

namespace Sys2Proof.Proofs

open Sys2Proof Sys2Proof.Machine

/-- Settles O22: each register write folds its one-bit operation over the slots that the word names, and what the fold does to the slots, the queue and the count is an induction over that list, which holds no slot twice. -/
theorem slotsMoveBetweenFreePostedAndDone : Obligations.SlotsMoveBetweenFreePostedAndDone := by
  refine ⟨fun v s htakes => ⟨_, exec_mbxDoorbellWrite htakes v, fun k hk => ?posted, ?queue, ?ignored,
      foldl_ringSlot_frame _ s⟩,
    fun v s hup => ⟨_, exec_mbxDoneClear hup v, fun k => ?freed, rfl⟩⟩
  case posted => simp [foldl_ringSlot_slots, tget_foldl_moveSlot, mem_namedSlots, hk]
  case queue => rw [foldl_ringSlot_peQueue (nodup_namedSlots v), filter_namedSlots]
  case ignored => rw [foldl_ringSlot_ignored (nodup_namedSlots v), filter_namedSlots]
  case freed => simp [tget_foldl_moveSlot, mem_namedSlots, and_assoc]

end Sys2Proof.Proofs
end

section
/-! A completion of a source that the completing pair has not active: ignored, and counted in the controller's own counter (R675). -/

namespace Sys2Proof.Machine

/-- SIC_COMPLETE is `sicComplete` on the named pair and source, settled. -/
theorem exec_sicComplete (p : Fin 2) (src : Fin 2048) (s : State) :
    exec (.sicComplete p src) s = .next (settle (sicComplete p src.val s)) := rfl

theorem sicComplete_of_not_active {p : Fin 2} {src : Nat} {s : State} (hinactive : (tget s.sic.srcs src).active ≠ some p) :
    sicComplete p src s = { s with sic := { s.sic with spurious := s.sic.spurious + 1 } } :=
  if_pos (bne_iff_ne.mpr hinactive)

end Sys2Proof.Machine

namespace Sys2Proof.Proofs

open Sys2Proof Sys2Proof.Machine

/-- Settles O46: SIC_COMPLETE is `sicComplete` settled, whose first guard takes a source that is not active on the pair and changes only the count. -/
theorem spuriousCompletionsAreCounted : Obligations.SpuriousCompletionsAreCounted := by
  intro p src s hinactive
  rw [exec_sicComplete, sicComplete_of_not_active hinactive]

end Sys2Proof.Proofs
end

section
/-! What every step ends in: each command settles its own effect, no Grave cause survives that end, and an idle tick moves time and what counts it (R17, R375, R655). -/

namespace Sys2Proof.Machine

/-- Every arm of `exec` is its family's operation, settled. -/
theorem exec_eq_settle (i : Instr) (s : State) : ∃ t, exec i s = .next (settle t) := by
  cases i <;> exact ⟨_, rfl⟩

/-- A command whose operation leaves `u` ends in `u` settled. -/
theorem exec_eq_of {i : Instr} {s t u : State} (hexec : exec i s = finishStep t) (htu : t = u) :
    exec i s = .next (settle u) :=
  htu ▸ hexec

@[simp] theorem changeState_dev (nw : DevState) (c : Cause) (s : State) :
    (changeState nw c s).dev = { s.dev with st := nw } := by
  simp [changeState]

/-! Masking the data path touches the switch, the credits it gives back and the counters, not the device state. -/

@[simp] theorem bumpAt_dev (c : Ctr) (lp : Option Nat) (s : State) : (bumpAt c lp s).dev = s.dev := by
  cases lp <;> simp [bumpAt]

@[simp] theorem cxlSend_dev (n : Nat) (m : CxlMsg) (s : State) : (cxlSend n m s).dev = s.dev := by
  rw [cxlSend]
  split
  · simp [cxlPut]
  · simp

@[simp] theorem returnCredits_dev (lp chan cells : Nat) (cxl : Bool) (s : State) :
    (returnCredits lp chan cells cxl s).dev = s.dev := by
  rw [returnCredits]
  split_ifs <;> simp

@[simp] theorem copyGone_dev (orig : Nat) (s : State) : (copyGone orig s).dev = s.dev := by
  rw [copyGone]
  split_ifs <;> simp

@[simp] theorem dropCrossing_dev (n id : Nat) (s : State) : (dropCrossing n id s).dev = s.dev := by
  rw [dropCrossing]
  exact foldl_keeps State.dev _ (fun s q => by simp [dropQueued]) _ s

@[simp] theorem discardMasked_dev (s : State) : (discardMasked s).dev = s.dev := by
  rw [discardMasked]
  refine (foldl_keeps State.dev _ (fun s x => by simp) _ _).trans ?_
  refine (modSw_frame _ _).2.1.trans (foldl_keeps State.dev _ (fun s x => ?_) _ s)
  cases x.dst <;> simp

theorem enterGrave_graveReq (code block : Nat) {s : State} (hnone : s.dev.graveReq = none) :
    (enterGrave code block s).dev.graveReq = none := by
  rw [enterGrave]
  split
  · exact hnone
  · simp [dataPathOff]

/-- The end of a step leaves no Grave cause: one that arose in it has entered Grave. -/
theorem settle_graveReq (s : State) : (settle s).dev.graveReq = none := by
  rw [settle]
  split
  · exact enterGrave_graveReq _ _ (by simp)
  · assumption

/-! One tick of an empty queue. -/

theorem tick_of_vaon_off {s : State} (hoff : s.pins.vaon = false) : tick s = s := by
  simp [tick, hoff]

/-- The slew of a tick moves what is left of it and its increment only. -/
theorem slewTick_eq (f : FtSt) : slewTick f = { f with slew := (slewTick f).slew, inc := (slewTick f).inc } := by
  simp only [slewTick]
  split
  · rfl
  · split <;> rfl

/-- A tick with VAON, but for the time that HOLDOVER counts. -/
def tickTime (s : State) : State :=
  let t := { s with ft := slewTick { s.ft with acc := s.ft.acc + BitVec.ofNat 80 s.ft.inc } }
  { t with io := { t.io with ppsOut := t.io.ppsOut && decide (now t % 1000000000 < 100000) } }

theorem tick_of_vaon {s : State} (hon : s.pins.vaon = true) :
    tick s = tickTime s ∨ ∃ n, tick s = bumpC .holdoverNs 0 0 n {} (tickTime s) := by
  have htick : tick s = if (tickTime s).ft.mode = .holdover then bumpC .holdoverNs 0 0 (now (tickTime s) - now s) {} (tickTime s) else tickTime s :=
    if_pos hon
  rw [htick]
  split
  · exact .inr ⟨_, rfl⟩
  · exact .inl rfl

/-- What `tickTime` moves of fabric time: the accumulator by the increment, the slew and the increment. -/
theorem tickTime_ft (s : State) :
    (tickTime s).ft.acc = s.ft.acc + BitVec.ofNat 80 s.ft.inc
      ∧ (tickTime s).ft = { s.ft with acc := (tickTime s).ft.acc, slew := (tickTime s).ft.slew, inc := (tickTime s).ft.inc } := by
  have hslew := slewTick_eq { s.ft with acc := s.ft.acc + BitVec.ofNat 80 s.ft.inc }
  have hacc : (tickTime s).ft.acc = s.ft.acc + BitVec.ofNat 80 s.ft.inc := congrArg FtSt.acc hslew
  exact ⟨hacc, by rw [hacc]; exact hslew⟩

/-- A count moves the counters, and what a wrap sets off at the interrupt controller and in its outputs. -/
theorem bumpC_eq (k : Ctr) (unit idx n : Nat) (c : CtrCtx) (s : State) :
    bumpC k unit idx n c s = { s with ctr := (bumpC k unit idx n c s).ctr, sic := (bumpC k unit idx n c s).sic, mbx := (bumpC k unit idx n c s).mbx, outbox := (bumpC k unit idx n c s).outbox } := by
  have hframe := bumpC_frame k unit idx n c s
  generalize bumpC k unit idx n c s = t at hframe
  cases t
  simp only at hframe
  simp [hframe]

/-! The end of a quiet step. -/

theorem settleLinks_of_quiet {s : State} (h : s.net.fallen = []) (fuel : Nat) : settleLinks fuel s = s := by
  cases fuel <;> simp [settleLinks, h]

theorem endDeadWrites_of_quiet {s : State} (h : ∀ x ∈ s.sw.reqs, deadWrite s x = false) : endDeadWrites s = s := by
  have hnone : s.sw.reqs.filter (deadWrite s) = [] := List.filter_eq_nil_iff.mpr fun x hx => by simp [h x hx]
  simp [endDeadWrites, hnone]

theorem flushFailures_of_quiet {s : State} (h : s.dur.failedTo = []) : flushFailures s = s := by
  simp [flushFailures, h]

theorem failStarts_of_quiet {s : State} (h : startingPorts s = []) : failStarts s = s := by
  simp [failStarts, h]

theorem flushProgress_of_quiet {s : State} (h : s.hoard.flushing = none) : flushProgress s = s := by
  simp [flushProgress, h]

theorem drainProgress_of_quiet {s : State} (h : s.dev.drainStep = 0) : drainProgress s = s := by
  simp [drainProgress, h]

theorem holdCheck_of_quiet {s : State} (h : s.dur.holdup = 0 ∨ s.dur.exceeded = decide (holdEstimate s > s.dur.holdup)) :
    holdCheck s = s := by
  rcases h with h | h
  · simp [holdCheck, h]
  · simp [holdCheck, ← h]

theorem endScans_of_quiet {s : State} (h : s.ten.sessions = []) : endScans s = s := by
  simp [endScans, h]

theorem pokeCommands_of_quiet {s : State} (h : s.cmd.running = []) : pokeCommands s = s := by
  simp [pokeCommands, h]

theorem servePageReads_of_quiet {s : State} (h : s.ten.pageReads = []) : servePageReads s = s := by
  simp only [servePageReads, modTen, h, List.filter_nil, List.foldl_nil]
  rw [← h]

/-- Where links, dead writes, flushes, starts, the drain, the hold-up, sessions, commands and page reads have nothing to do and no Grave cause arose, the end of a step does nothing. -/
theorem settle_of_quiet {s : State} (h : Quiet s) : settle s = s := by
  obtain ⟨hlinks, hwrites, hflush, hstarts, hflushing, hdrain, hhold, hsessions, hcmds, hreads, hcause⟩ := h
  rw [settle, settleLinks_of_quiet hlinks, endDeadWrites_of_quiet hwrites, flushFailures_of_quiet hflush,
    failStarts_of_quiet hstarts, flushProgress_of_quiet hflushing, drainProgress_of_quiet hdrain,
    holdCheck_of_quiet hhold, endScans_of_quiet hsessions, pokeCommands_of_quiet hcmds, servePageReads_of_quiet hreads,
    hcause]

end Sys2Proof.Machine

namespace Sys2Proof.Proofs

open Sys2Proof Sys2Proof.Machine

/-- Settles O1: `step` matches on the queue. -/
theorem stepRunsTheFrontCommand : Obligations.StepRunsTheFrontCommand := by
  intro c rest s hqueue
  rw [step, hqueue]

/-- Settles O2: without VAON a tick is the identity; with it, it is `tickTime`, and in HOLDOVER a count on top of that. -/
theorem emptyQueueTicks : Obligations.EmptyQueueTicks := by
  intro s hempty
  refine ⟨tick s, by rw [step, hempty], tick_of_vaon_off, fun hon => ?moves, ?frame, ?time⟩
  case moves =>
    rcases tick_of_vaon hon with h | ⟨n, h⟩
    · exact h ▸ ⟨(tickTime_ft s).1, rfl⟩
    · rw [h]
      exact ⟨by simp [(tickTime_ft s).1], by simp only [bumpC_frame]; rfl⟩
  all_goals
    cases hpin : s.pins.vaon
    case false => rw [tick_of_vaon_off hpin]
  case frame.true =>
    rcases tick_of_vaon hpin with h | ⟨n, h⟩
    · rw [h]; rfl
    · rw [h, bumpC_eq]; rfl
  case time.true =>
    rcases tick_of_vaon hpin with h | ⟨n, h⟩
    · rw [h]; exact (tickTime_ft s).2
    · rw [h]; simpa using (tickTime_ft s).2

/-- Settles O3: every arm of `exec` settles its family's operation. -/
theorem everyCommandCompletes : Obligations.EveryCommandCompletes := exec_eq_settle

/-- Settles O4: each part of `settle` finds nothing to do. -/
theorem quietStatesSettle : Obligations.QuietStatesSettle := fun _ => settle_of_quiet

/-- Settles O6: the reset state holds no link, request, flush, start, session, command or cause. -/
theorem resetHasNoGraveCause : Obligations.ResetHasNoGraveCause :=
  ⟨rfl, rfl, fun _ h => absurd h List.not_mem_nil, rfl, rfl, rfl, rfl, .inl rfl, rfl, rfl, rfl, rfl⟩

/-- Settles O5: a tick leaves the device state alone, and a command ends in a settled state, where no cause is pending. -/
theorem noGraveCauseOutlivesAStep : Obligations.NoGraveCauseOutlivesAStep := by
  intro s t hnone hstep
  cases hqueue : s.pending with
  | nil =>
    obtain ⟨u, htick, -, -, hframe, -⟩ := emptyQueueTicks s hqueue
    obtain rfl : u = t := Host.Outcome.next.inj (htick.symm.trans hstep)
    rw [hframe]
    exact hnone
  | cons c rest =>
    rw [stepRunsTheFrontCommand c rest s hqueue] at hstep
    obtain ⟨u, hexec⟩ := exec_eq_settle c { s with pending := rest }
    obtain rfl : settle u = t := Host.Outcome.next.inj (hexec.symm.trans hstep)
    exact settle_graveReq u

end Sys2Proof.Proofs
end

section
/-! Encodings read back: fields of byte runs, then frames, flit bodies, handles and directory entries (R8, R109, R138, R183, R301, R389); and the mailbox buffers (DESIGN CHOICE, assumption 5). -/

namespace Sys2Proof.Machine

/-! A field of a run of bytes. -/

@[simp] theorem length_leBytes (n v : Nat) : (leBytes n v).length = n := by
  induction n generalizing v with
  | zero => rfl
  | succ n ih => simp [leBytes, ih]

@[simp] theorem length_zeros (n : Nat) : (zeros n).length = n := List.length_replicate

theorem leNat_leBytes (n v : Nat) : leNat (leBytes n v) = v % 256 ^ n := by
  induction n generalizing v with
  | zero => simp [leBytes, leNat, Nat.mod_one]
  | succ n ih => simp [leBytes, leNat, ih, Nat.pow_succ', Nat.mod_mul]

/-- A field that lies in the first of two runs is read there. -/
theorem fieldAt_append_left {a b : Bytes} {off n : Nat} (h : off + n ≤ a.length) :
    fieldAt (a ++ b) off n = fieldAt a off n := by
  rw [fieldAt, fieldAt, List.drop_append_of_le_length (by omega), List.take_append_of_le_length (by simp; omega)]

/-- A field that lies behind the first of two runs is read in the second. -/
theorem fieldAt_append_right {a b : Bytes} {off n : Nat} (h : a.length ≤ off) :
    fieldAt (a ++ b) off n = fieldAt b (off - a.length) n := by
  simp only [fieldAt, List.drop_append, List.drop_eq_nil_of_le h, List.nil_append]

theorem fieldAt_leBytes (n v : Nat) : fieldAt (leBytes n v) 0 n = v % 256 ^ n := by
  rw [fieldAt, List.drop_zero, List.take_of_length_le (length_leBytes n v).le, leNat_leBytes]

@[simp] theorem fieldAt_cons_zero_one (b : Byte) (p : Bytes) : fieldAt (b :: p) 0 1 = b.toNat := by
  simp [fieldAt, leNat]

@[simp] theorem fieldAt_cons_succ (b : Byte) (p : Bytes) (off n : Nat) : fieldAt (b :: p) (off + 1) n = fieldAt p off n := rfl

/-- A bit that a flag set is the flag. -/
theorem bitOf_of_eq_b2n {v k : Nat} {b : Bool} (h : v / 2 ^ k % 2 = b2n b) : bitOf v k = b := by
  rw [bitOf, Nat.testBit_eq_decide_div_mod_eq, h]
  cases b <;> rfl

theorem b2n_le_one (b : Bool) : b2n b ≤ 1 := by
  cases b <;> decide

theorem ofNat_toNat_mod {w n : Nat} (a : BitVec w) (hn : n = 2 ^ w) : BitVec.ofNat w (a.toNat % n) = a := by
  subst hn
  simp

/-! The five encodings. -/

/-- A frame's header fields, its reserved bits and its payload (R183). -/
theorem parseFrame_frameBytes (f : Frame) : parseFrame (frameBytes f) = f := by
  have hdata : (frameBytes f).drop 32 = f.data := by
    rw [frameBytes, List.drop_append_of_le_length (by simp [headerBytes]), List.drop_of_length_le (by simp [headerBytes]), List.nil_append]
  rw [parseFrame, hdata]
  simp only [frameBytes, headerBytes, fieldAt_append_left, fieldAt_append_right, fieldAt_leBytes, List.length_append, length_leBytes,
    List.length_cons, List.length_nil, Nat.reduceAdd, Nat.reduceSub, Nat.reduceLeDiff]
  obtain ⟨opcode, colour, prio, hops, copy, marked, chan, cls, priv, did, sid, binding, tag, length, addr, status, epoch, hchk, rsv, data⟩ := f
  have hcolour := colour.isLt
  have hhops := hops.isLt
  have hchan := chan.isLt
  have hcls := cls.isLt
  have hcopy := b2n_le_one copy
  have hmarked := b2n_le_one marked
  have hpriv := b2n_le_one priv
  simp only [Frame.mk.injEq]
  refine ⟨?opcode, ?colour, ?prio, ?hops, ?copy, ?marked, ?chan, ?cls, ?priv, ?did, ?sid, ?binding, ?tag, ?length, ?addr, ?status, ?epoch, ?hchk, ?rsv, trivial⟩
  case copy => exact bitOf_of_eq_b2n (by simp only [Nat.reducePow]; omega)
  case marked => exact bitOf_of_eq_b2n (by simp only [Nat.reducePow]; omega)
  case priv => exact bitOf_of_eq_b2n (by simp only [Nat.reducePow, bitsOf]; omega)
  all_goals exact BitVec.eq_of_toNat_eq (by simp [bitsOf]; omega)

theorem list_of_length_eight {l : List Nat} (h : l.length = 8) : ∃ a b c d e f g i, l = [a, b, c, d, e, f, g, i] := by
  match l, h with
  | [a, b, c, d, e, f, g, i], _ => exact ⟨a, b, c, d, e, f, g, i, rfl⟩

/-- The body of an INIT flit (R109). -/
theorem initFrom_initBody (m : InitMsg) (k : Nat) (hlen : m.credits.length = 8) (hbound : ∀ c ∈ m.credits, c < 65536) :
    initFrom (initBody m ++ zeros k) = m := by
  obtain ⟨subtype, version, lp, width, twin, twinPartner, twinNamed, partnerNamed, resume, serial, sendStamp, echoed, residence, credits, resumeAck, resumeSeq⟩ := m
  obtain ⟨a, b, c, d, e, f, g, i, rfl⟩ := list_of_length_eight hlen
  have hrange : List.range 8 = [0, 1, 2, 3, 4, 5, 6, 7] := rfl
  have htwin := b2n_le_one twinNamed
  have hpartner := b2n_le_one partnerNamed
  have hresume := b2n_le_one resume
  simp [initFrom, initBody, hrange, fieldAt_append_left, fieldAt_append_right, fieldAt_leBytes] at hbound ⊢
  refine ⟨?twin, ?partner, ?resume, ?serial, ?stamp, ?echoed, ?residence, hbound, ?ack, ?seq⟩
  case twin | partner | resume => exact bitOf_of_eq_b2n (by simp only [Nat.reducePow]; omega)
  all_goals exact ofNat_toNat_mod _ (by norm_num)

/-- The body of a CTRL flit (R138). -/
theorem ctrlFrom_ctrlBody (m : CtrlMsg) (k : Nat) : ctrlFrom (ctrlBody m ++ zeros k) = m := by
  obtain ⟨subtype, subject, width, serial, lastDelivered⟩ := m
  simp [ctrlFrom, ctrlBody, fieldAt_append_left, fieldAt_append_right, fieldAt_leBytes]
  exact ⟨ofNat_toNat_mod _ (by norm_num), ofNat_toNat_mod _ (by norm_num)⟩

/-- The body of a TIME flit whose values fit their fields (R389). -/
theorem timeFrom_timeBody (m : TimeMsg) (k : Nat) (hsteps : m.steps < 256) (hprio : m.gmPrio < 256) (hexchange : m.exchange < 65536)
    (hgm : m.gmSerial < 2 ^ 64) (hsender : m.senderSerial < 2 ^ 64) (hsend : m.sendTime < 2 ^ 64) (ht1 : m.t1 < 2 ^ 64) (ht2 : m.t2 < 2 ^ 64)
    (hepoch : m.epoch < 2 ^ 64) (hstart : m.epochStart < 2 ^ 48) (hperiod : m.period < 2 ^ 32) (hpending : m.pendingPeriod < 2 ^ 32)
    (hbase : m.base < 2 ^ 48) (hchange : m.changeTime < 2 ^ 48) (hdurable : m.durable < 2 ^ 64) (hsubtree : m.subtree < 2 ^ 64)
    (hfloor : m.floor < 2 ^ 64) : timeFrom (timeBody m ++ zeros k) = m := by
  obtain ⟨subtype, traceable, holdover, leaving, changePending, steps, gmPrio, exchange, gmSerial, senderSerial, sendTime, t1, t2, epoch, epochStart, period, pendingPeriod, base, changeTime, durable, subtree, floor⟩ := m
  have htraceable := b2n_le_one traceable
  have hholdover := b2n_le_one holdover
  have hleaving := b2n_le_one leaving
  have hpendingFlag := b2n_le_one changePending
  simp [timeFrom, timeBody, ftOf, fieldAt_append_left, fieldAt_append_right, fieldAt_leBytes] at *
  refine ⟨?_, ?_, ?_, ?_, ?_⟩
  case refine_1 | refine_2 | refine_3 | refine_4 => exact bitOf_of_eq_b2n (by simp only [Nat.reducePow]; omega)
  omega

/-! Handles and directory entries. -/

/-- A handle's type, index and generation (R8). -/
theorem handle_mkHandle {ty idx gen : Nat} (hty : ty < 16) (hidx : idx < 2 ^ 20) (hgen : gen < 256) :
    hType (mkHandle ty idx gen) = ty ∧ hIdx (mkHandle ty idx gen) = idx ∧ hGen (mkHandle ty idx gen) = gen := by
  have hfits : ty * 2 ^ 28 + idx * 256 + gen < 2 ^ 32 := by omega
  simp only [hType, hIdx, hGen, mkHandle, BitVec.toNat_ofNat, Nat.mod_eq_of_lt hfits]
  omega

/-- A directory entry's word (R301). -/
theorem entryOf_entryWord (e : DirEntry) (hla : e.la < 2 ^ 46) (hst : e.st < 16) (hnptr : e.nptr < 8) (hfidx : e.fidx < 4) (htrk : e.trk < 2 ^ 12) :
    entryOf (entryWord e) = e := by
  obtain ⟨la, st, coarse, nptr, fidx, fv, px, ref, shr, trk, echk⟩ := e
  have hcoarse := b2n_le_one coarse
  have hfv := b2n_le_one fv
  have hpx := b2n_le_one px
  have href := b2n_le_one ref
  have hshr := shr.isLt
  simp only [entryOf, entryWord, entryBits, bitsOf, DirEntry.mk.injEq] at *
  refine ⟨?la, ?st, ?coarse, ?nptr, ?fidx, ?fv, ?px, ?ref, ?shr, ?trk, ?echk⟩
  case coarse | fv | px | ref => exact bitOf_of_eq_b2n (by omega)
  case shr | echk => exact BitVec.eq_of_toNat_eq (by rw [BitVec.toNat_ofNat]; omega)
  all_goals omega

/-! Cell memories. -/

/-- A run of bytes leaves every byte outside it alone. -/
theorem memGet_memWrite_of_outside (m : List Host.Cell) (p : Bytes) {a b : Nat} (h : b < a ∨ a + p.length ≤ b) :
    memGet (memWrite m a p) b = memGet m b := by
  induction p generalizing m a with
  | nil => rfl
  | cons c p ih =>
    rw [List.length_cons] at h
    rw [memWrite, ih _ (by omega), memGet_memPut_ne _ _ _ _ (by omega)]

theorem memRead_succ (m : List Host.Cell) (a n : Nat) : memRead m a (n + 1) = memGet m a :: memRead m (a + 1) n := by
  simp [memRead, List.range_succ_eq_map, Function.comp_def, Nat.add_comm, Nat.add_left_comm]

/-- A run of bytes reads back. -/
theorem memRead_memWrite (m : List Host.Cell) (a : Nat) (p : Bytes) : memRead (memWrite m a p) a p.length = p := by
  induction p generalizing m a with
  | nil => rfl
  | cons b p ih =>
    rw [List.length_cons, memRead_succ, memWrite, ih, memGet_memWrite_of_outside _ p (.inl a.lt_succ_self), memGet_memPut_self]

end Sys2Proof.Machine

namespace Sys2Proof.Proofs

open Sys2Proof Sys2Proof.Machine

/-- Settles O10: each encoding's fields lie where its reader looks for them. -/
theorem encodingsRoundTrip : Obligations.EncodingsRoundTrip :=
  ⟨parseFrame_frameBytes, initFrom_initBody, ctrlFrom_ctrlBody, timeFrom_timeBody, fun _ _ _ => handle_mkHandle, entryOf_entryWord⟩

/-- Settles O11, by induction on the bytes written. -/
theorem buffersReadWhatWasWritten : Obligations.BuffersReadWhatWasWritten :=
  fun m a p => ⟨memRead_memWrite m a p, fun _ => memGet_memWrite_of_outside m p⟩

end Sys2Proof.Proofs
end

section
/-! What a refused command leaves alone (R514), the order of the checks (R513), and Grave (R655). -/

namespace Sys2Proof.Machine

/-- The parts of the state that commands act on: a completion's record, count and delivery, and the count of its origin's rate, lie outside it. -/
def commandView (s : State) : State :=
  { s with
    io := {}, log := {}, sic := {}, ctr := {}, mbx := {}, i3c := {}, scrubHours := 0, therm := {}, free := 0, outbox := []
    sw := { routes := s.sw.routes, queues := s.sw.queues, groups := s.sw.groups }
    ten := { objs := s.ten.objs, slices := s.ten.slices, bindings := s.ten.bindings, ruleSets := s.ten.ruleSets, leases := s.ten.leases, sessions := s.ten.sessions } }

@[simp] theorem commandView_bumpC (k : Ctr) (unit idx n : Nat) (c : CtrCtx) (s : State) :
    commandView (bumpC k unit idx n c s) = commandView s := by
  simp [commandView]

@[simp] theorem commandView_bump (k : Ctr) (unit : Nat) (s : State) : commandView (bump k unit s) = commandView s := by
  simp [commandView]

@[simp] theorem commandView_record (r : SpoorRec) (s : State) : commandView (record r s) = commandView s := by
  simp [commandView]

@[simp] theorem commandView_msix (v : Nat) (s : State) : commandView (msix v s) = commandView s := by
  simp [commandView]

@[simp] theorem commandView_emit (o : Out) (s : State) : commandView (emit o s) = commandView s := rfl

@[simp] theorem commandView_raiseX (src : XIn) (dst : XOut) (f : Frame) (arrived orig : Nat) (s : State) :
    commandView (raiseX src dst f arrived orig s) = commandView s := by
  cases dst with
  | slice i => rfl
  | lp n =>
    simp only [raiseX, commandView, modSw_sw, modSw_frame]
    split <;> simp

@[simp] theorem commandView_notifyHost (b : Handle) (vec word : Nat) (s : State) :
    commandView (notifyHost b vec word s) = commandView s := by
  rw [notifyHost]
  split
  · rfl
  · split_ifs <;> simp

@[simp] theorem commandView_deliver (c : Completion) (s : State) : commandView (deliver c s) = commandView s := by
  simp only [deliver]
  split
  case h_1 =>
    split
    · rfl
    · split
      · rw [commandView_msix]; rfl
      · rfl
  case h_2 => simp
  case h_3 =>
    split
    · rfl
    · split
      · rfl
      · rw [commandView_notifyHost]; rfl
  case h_4 => rfl

@[simp] theorem commandView_completeCmd (r : Running) (s : State) : commandView (completeCmd r s) = commandView s := by
  rw [completeCmd]
  simp only [commandView_deliver, commandView_bumpC]
  split <;> simp

@[simp] theorem commandView_countRate (r : Route) (s : State) : commandView (countRate r s) = commandView s := by
  cases r with
  | tenant b =>
    rw [countRate]
    split <;> rfl
  | pe k | i3c e t | firmware f => rfl

/-- A refused command keeps what commands act on. -/
theorem commandView_refuseCmd (op : Nat) (q : Req) (st : Status) (d : Nat) (h : Handle) (s : State) :
    commandView (refuseCmd op q st d h s) = commandView s :=
  commandView_completeCmd _ s

/-! The checks. -/

/-- Checks 9 and 10, after the lease's: the states, the sessions and the capacities. -/
def checkStates (c : CmdSpec) (q : Req) (p : Bytes) (s : State) : Option (Status × Nat × Handle) :=
  if q.lease ≠ 0 && !leaseMine s (tget s.ten.leases (hIdx q.lease)) q.route then some (.locked, 0, q.lease)
  else if !stateServes s c q.route p || !c.state s q.route p then some (.badState, 0, 0)
  else match c.held s q.route p with
    | some h => some (.conflict, 0, h)
    | none => if c.cap s q.route p then none else some (.noResource, 0, 0)

/-- The checks from the handles on. -/
def checkHandles (c : CmdSpec) (q : Req) (p : Bytes) (s : State) : Option (Status × Nat × Handle) :=
  match firstHandle s ((q.lease, [10], true) :: c.handles p) with
  | some st => some (st, 0, 0)
  | none => match lockedBy s q.route (c.names s p) with
    | some h => some (.locked, 0, h)
    | none => checkStates c q p s

/-- Past the origin and its rate, the fields decide, and then the handles. -/
def checkFields (c : CmdSpec) (q : Req) (p : Bytes) (s : State) : Option (Status × Nat × Handle) :=
  match firstBad ((3, decide (q.flags.toNat < 2)) :: c.args s p) with
  | some off => some (.invalidArg, off, 0)
  | none => checkHandles c q p s

theorem checkCmd_of_origin {c : CmdSpec} {q : Req} {p : Bytes} {s : State} (hwho : c.who s q.route p = true) (hwait : originWait s q.route = 0) :
    checkCmd c q p s = checkFields c q p s := by
  rw [checkCmd, if_neg (by simp [hwho]), if_neg (by simp [hwait])]
  rfl

theorem firstBad_cons_of_good {off : Nat} {ok : Bool} (l : List (Nat × Bool)) (hok : ok = true) :
    firstBad ((off, ok) :: l) = firstBad l := by
  simp [firstBad, hok]

theorem handleStatus_status {s : State} {h : Handle} {types : List Nat} {nullOk : Bool} {st : Status}
    (hst : handleStatus s h types nullOk = some st) : st = .badHandle ∨ st = .staleHandle := by
  rw [handleStatus] at hst
  split_ifs at hst <;> simp_all

/-- A handle check that fails is BAD_HANDLE or STALE_HANDLE. -/
theorem firstHandle_status {s : State} {l : List (Handle × List Nat × Bool)} {st : Status} (hst : firstHandle s l = some st) :
    st = .badHandle ∨ st = .staleHandle := by
  obtain ⟨e, -, he⟩ := List.exists_of_findSome?_eq_some hst
  exact handleStatus_status he

/-! Grave. -/

/-- A running device at whose crossbar a request waits whose credits go back once it is discarded. -/
def waitingRequest : State :=
  { State.reset with
    dev := { State.reset.dev with st := .service }
    sw := { State.reset.sw with reqs := [{ id := 1, src := .port 0, orig := 1 }], origs := [(1, { left := 1, cells := 1 })] } }

end Sys2Proof.Machine

namespace Sys2Proof.Proofs

open Sys2Proof Sys2Proof.Machine

/-- Refutes O7: entering Grave empties what is held for sending first, and masks the data path after it; the request that masking discards from the crossbar gives its credits back to the port it came by, which so holds something for sending again. -/
theorem not_graveStopsTheDevice : ¬ Obligations.GraveStopsTheDevice := by
  intro h
  obtain ⟨-, -, -, -, htx, -⟩ := h.1 0 0 waitingRequest (by decide) (by decide)
  exact absurd htx (by decide +kernel)

/-- Settles O8: `checkCmd` looks at one check after the other. -/
theorem checksDecideInOrder : Obligations.ChecksDecideInOrder := by
  intro c q p s
  refine ⟨fun hwho => ?denied, fun hwho hwait => ?busy, fun hwho hwait => ⟨fun off hbad => ?field, fun hflags hargs => ⟨fun st hst => ?handle, fun hhandles => ?rest⟩⟩⟩
  case denied => simp [checkCmd, hwho]
  case busy => simp [checkCmd, hwho, hwait]
  case field =>
    have hfirst : firstBad ((3, decide (q.flags.toNat < 2)) :: c.args s p) = some off := by
      rcases hbad with ⟨hflags, rfl⟩ | ⟨hflags, hargs⟩
      · simp only [firstBad, List.find?_cons, decide_eq_false hflags.not_gt, Bool.not_false, Option.map_some]
      · rw [firstBad_cons_of_good _ (decide_eq_true hflags), hargs]
    rw [checkCmd_of_origin hwho hwait, checkFields, hfirst]
  all_goals
    have hfields : firstBad ((3, decide (q.flags.toNat < 2)) :: c.args s p) = none := by
      rw [firstBad_cons_of_good _ (decide_eq_true hflags), hargs]
    rw [checkCmd_of_origin hwho hwait, checkFields, hfields]
  case handle => exact ⟨by rw [checkHandles, hst], firstHandle_status hst⟩
  case rest =>
    rw [checkHandles, hhandles]
    refine ⟨fun h hlocked => ?locked, fun hfree hlease hmine => ?lease, fun hfree hlease => ⟨fun hstate => ?state, fun hserves => ?serves, fun hserves hstate => ⟨fun h hheld => ?held, fun hheld hcap => ?cap, fun hheld hcap => ?pass⟩⟩⟩
    case locked => rw [hlocked]
    case lease => rw [hfree, checkStates, if_pos (by simpa [hmine] using hlease)]
    all_goals
      have hown : (decide (q.lease ≠ 0) && !leaseMine s (tget s.ten.leases (hIdx q.lease)) q.route) = false := by
        rcases hlease with h | h <;> simp [h]
      rw [hfree, checkStates, if_neg (Bool.eq_false_iff.mp hown)]
    case state => simp [hstate]
    case serves => simp [hserves]
    case held => simp [hserves, hstate, hheld]
    case cap => simp [hserves, hstate, hheld, hcap]
    case pass => simp [hserves, hstate, hheld, hcap]

/-- Settles O9: a refusal counts and completes, and neither touches what commands act on. -/
theorem refusedCommandsHaveNoEffect : Obligations.RefusedCommandsHaveNoEffect := by
  intro c q p s t st d h hruns hpfail hcheck ht
  have hop : (c.op == 0x0103 && pfailHeld s) = false := by
    by_cases h : c.op = 0x0103
    · simp [hpfail h]
    · simp [h]
  have hrefused : t = refuseCmd c.op q st d h (if st = .busy then bump .rateRef (Route.cls q.route) s else countRate q.route s) :=
    ht.trans (runCmd_refused c q p s st d h hruns hop hcheck)
  have hview : commandView t = commandView s := by
    rw [hrefused, commandView_refuseCmd]
    split <;> simp
  simp only [commandView, State.mk.injEq, SwSt.mk.injEq, TenSt.mk.injEq] at hview
  exact ⟨hrefused, by simp only [hview, and_self]⟩

end Sys2Proof.Proofs
end

section
/-! The `device`, `log` and `counter` commands: an admitted command answers what its run gives (R520, R522, R538, R613, R650, R654, R660, R687). -/

namespace Sys2Proof.Machine

/-- An admitted command that runs to OK answers with its run's answer and state. -/
theorem answers_of_run {i : Instr} {c : CmdSpec} {q : Req} {p : Bytes} {s t : State} {o : CmdOut}
    (hexec : exec i s = finishStep (runCmd c q p s)) (hadm : Admitted c q p s)
    (hrun : c.run { q := q } p (counted q s) = (o, t)) (hok : o.status = .ok) : Answers i c q p s o t :=
  answers_of_execute hexec hadm (executeCmd_ok hrun hok)

/-- An admitted command that runs to a status without effect answers it in the counted state (R514). -/
theorem answers_of_run_refused {i : Instr} {c : CmdSpec} {q : Req} {p : Bytes} {s t : State} {o : CmdOut}
    (hexec : exec i s = finishStep (runCmd c q p s)) (hadm : Admitted c q p s)
    (hrun : c.run { q := q } p (counted q s) = (o, t)) (hok : (o.status == .ok) = false) (hpart : (o.status == .partialDone) = false)
    (hkeeps : c.keeps o.status = false) : Answers i c q p s o (counted q s) :=
  answers_of_execute hexec hadm (executeCmd_none hrun hok hpart hkeeps)

/-- An admitted command whose run reads the state and answers OK or PARTIAL. -/
theorem answers_of_run_partial {i : Instr} {c : CmdSpec} {q : Req} {p : Bytes} {s t : State} {o : CmdOut}
    (hexec : exec i s = finishStep (runCmd c q p s)) (hadm : Admitted c q p s)
    (hrun : c.run { q := q } p (counted q s) = (o, t)) (hst : o.status = .ok ∨ o.status = .partialDone) : Answers i c q p s o t := by
  refine answers_of_execute hexec hadm ?_
  rw [executeCmd, hrun]
  rcases hst with h | h <;> simp [h]

theorem zeros_two : zeros 2 = [0, 0] := rfl
theorem zeros_three : zeros 3 = [0, 0, 0] := rfl

/-- A first-error record that does not stand on the very tick is emptied, and its line falls (R660, R661). -/
theorem clearErr_of_older {b : Nat} {s : State} (h : (tget s.errs b).valid = false ∨ (tget s.errs b).stamp ≠ ftCount s) :
    clearErr b s = sicLevel (8 * b) false { s with errs := tset s.errs b {} } := by
  rw [clearErr, if_neg]
  · rfl
  · rcases h with h | h <;> simp [h]

/-- `device.reset` is ignored and counted in Hibernate (R22), where commands do not run. -/
theorem exec_deviceReset_of_runs {q : Req} {p : Bytes} {s : State} (hruns : commandsRun s = true) :
    exec (.deviceReset q p) s = finishStep (runCmd specReset q p s) := by
  have hst : (s.dev.st == .hibernate) = false := by
    by_contra h
    simp_all [commandsRun]
  change finishStep _ = _
  rw [hst]
  rfl

/-- A push-pull pin reads its own level (R520). -/
theorem pinLevel_of_pushPull {pin : Nat} {s : State} (h : tget s.pwr.gpioMode pin = 2) : pinLevel pin s = (tget s.pwr.gpioLevel pin, s) := by
  simp [pinLevel, h]

end Sys2Proof.Machine

namespace Sys2Proof.Proofs

open Sys2Proof Sys2Proof.Machine

/-- Settles O12: each admitted command answers what its run gives for the named fields. -/
theorem deviceLogAndCounterCommands : Obligations.DeviceLogAndCounterCommands := by
  intro q p s u hu
  subst hu
  refine ⟨fun ha => answers_of_run rfl ha rfl rfl, fun ha => answers_of_run rfl ha rfl rfl,
    fun ha hto hdone => ?off, fun ha hto hdone => ?busy, fun ha hto => ?test, fun ha hto => ?service, fun ha hto hupd => ?drain,
    fun ha hstep => ?reset, fun hst => ?resetCounted, fun ha hh hm => ?gpio, fun start o ha hstart hone ho => ?logRead,
    fun ha hb => ?summary, fun b ha hb hne hclear hold => ?firstError, fun ha hk => ?forward, fun ha hk ht => ?subFm, fun ha hk ht => ?subBmc,
    fun h v ha hscope hopen => ?create, fun ha => answers_of_run rfl ha rfl rfl, fun ha hk hfl => ?counterRead⟩
  case off => exact answers_of_run rfl ha (by simp [specTransition, hto, hdone, zeros_two, modStart, rememberCmd]; rfl) rfl
  case busy => exact answers_of_run_refused rfl ha (by simp [specTransition, hto, hdone]; rfl) rfl rfl rfl
  case test => exact answers_of_run rfl ha (by simp [specTransition, hto, zeros_two]; rfl) rfl
  case service => exact answers_of_run rfl ha (by simp [specTransition, hto, zeros_two]; rfl) rfl
  case drain => exact answers_of_run rfl ha (by simp [specTransition, hto, hupd, zeros_two]; rfl) rfl
  case reset => exact answers_of_run (exec_deviceReset_of_runs ha.1) ha (by simp [specReset, hstep, rememberCmd, modStart]) rfl
  case resetCounted =>
    change finishStep _ = _
    simp [hst, finishStep]
  case gpio =>
    have hnamed : ¬ handleAt p 0 = 0#32 := hh
    exact answers_of_run rfl ha (by simp [specGpio, hnamed, hm, pinLevel_of_pushPull, zeros_three]) rfl
  case logRead =>
    refine answers_of_run_partial rfl ha (by simp only [specLogRead, hstart, if_neg hone, ho]) ?_
    dsimp only
    split <;> simp
  case summary => exact answers_of_run rfl ha (by simp [specLogStatus, hb]) rfl
  case firstError => exact answers_of_run rfl ha (by simp [specLogStatus, hb, hne, hclear, clearErr_of_older hold]) rfl
  case forward => exact answers_of_run rfl ha (by simp [specSubscribe, hk]) rfl
  case subFm => exact answers_of_run rfl ha (by simp [specSubscribe, hk, ht, modLog]) rfl
  case subBmc => exact answers_of_run rfl ha (by simp [specSubscribe, hk, ht, modLog]) rfl
  case create => exact answers_of_run rfl ha (by simp [specGroupCreate, hscope, hopen, modGroup, tmod, slotCountOf]) rfl
  case counterRead => exact answers_of_run rfl ha (by simp [specCounterRead, hk, hfl, bitOf]) rfl

end Sys2Proof.Proofs
end

section
/-! The `port` and `diag` commands (R50, R63, R78, R133, R195, R210, R220, R520, R521, R598). -/

namespace Sys2Proof.Machine

/-- A creation that no staging reserved a handle for takes the lowest free index. -/
theorem newObject_of_free {ty i : Nat} {x : CmdCtx} {s v : State} {h : Handle} (hres : x.reserved = 0) (hfree : lowestFree s ty = some i)
    (htake : (h, v) = takeIndex ty i s) : newObject ty x s = (some h, v) := by
  simp only [newObject, hres, hfree, ← htake, ne_self_iff_false, if_false]

/-- The draw of a scan's time takes no time. -/
@[simp] theorem now_scanTime (n : Nat) (s : State) : now (scanTime n s).2 = now s := rfl

@[simp] theorem linkLive_modLp_downs (n : Nat) (s : State) : linkLive (modLp n (fun l => { l with downs := [] }) s) n = linkLive s n := by
  simp [linkLive]

@[simp] theorem isDen_modLp_downs (n : Nat) (s : State) : isDen (modLp n (fun l => { l with downs := [] }) s) n = isDen s n := by
  simp [isDen, cfgOf]

theorem linkLive_of_up {s : State} {n : Nat} (h : (lpOf s n).link = .up) : linkLive s n = true := by
  simp [linkLive, h]

end Sys2Proof.Machine

namespace Sys2Proof.Proofs

open Sys2Proof Sys2Proof.Machine

/-- Settles O13: each admitted command answers what its run gives for the named fields. -/
theorem portAndLaneCommands : Obligations.PortAndLaneCommands := by
  intro q p s u n hu hn
  subst hu hn
  refine ⟨fun c v w ha hc hv hw => ⟨fun hkeep => ?configure, fun hset hwas hlive => ?failback⟩, fun ha hstop => ?enable, fun ha hstop => ?enableLive,
    fun t ha ht hhalf => ?disableHalf, fun t ha ht hboth => ?disableBoth, fun ha => answers_of_run rfl ha rfl rfl,
    fun ha hbusy => ?retrainBusy, fun ha hno hheld hlink => ?retrainQuarantined, fun ha hno hheld hup hden => ?retrainCxl, fun ha hno hheld hup hden => ?retrainDen,
    fun ha hk hdl => ?power, fun ha hk hdl => ?powerDl2, fun ha => answers_of_run rfl ha rfl rfl,
    fun d w ha hd hwhy hne => ?routeBusy, fun d ha hd hwhy hordered => ?route, fun d ha hd hwhy hordered hkind hother => ?routeHeld,
    fun i h v ha hfree hv => ?mcastCreate, fun ha => answers_of_run rfl ha rfl rfl, fun ha => answers_of_run rfl ha rfl rfl,
    fun h v ha hopen => ?prbs, fun m k pat g chk out v ha hres hout => ?prbsStop, fun h v w ha hopen hw => ?eyescan, fun h v r ha hopen hnear hr => ?survey,
    fun ha => answers_of_run rfl ha rfl rfl⟩
  case configure =>
    subst hc hv hw
    refine answers_of_run rfl ha ?_ rfl
    rcases hkeep with h | h | h <;> simp [specPortConfigure, h]
  case failback =>
    subst hc hv hw
    refine answers_of_run rfl ha ?_ rfl
    simp [specPortConfigure, hset, hwas] at hlive ⊢
    simp [hlive]
  case enable => exact answers_of_run rfl ha (by simp [specPortEnable, hstop]) rfl
  case enableLive => exact answers_of_run rfl ha (by simp [specPortEnable, hstop]) rfl
  case disableHalf => exact answers_of_run rfl ha (by simp only [specPortDisable, ← ht, hhalf]; rfl) rfl
  case disableBoth => exact answers_of_run rfl ha (by simp only [specPortDisable, ← ht, hboth]; rfl) rfl
  case retrainBusy =>
    refine answers_of_run_refused (t := counted q s) rfl ha ?_ rfl rfl rfl
    rcases hbusy with h | h <;> simp [specPortRetrain, h]
  case retrainQuarantined => exact answers_of_run rfl ha (by simp [specPortRetrain, hno, hheld, hlink]) rfl
  case retrainCxl => exact answers_of_run rfl ha (by simp [specPortRetrain, hno, hheld, hup, hden]) rfl
  case retrainDen => exact answers_of_run rfl ha (by simp [specPortRetrain, hno, hheld, hup, hden, linkLive_of_up]) rfl
  case power => exact answers_of_run rfl ha (by simp [specPortPower, hk, hdl]) rfl
  case powerDl2 => exact answers_of_run rfl ha (by simp [specPortPower, hk, hdl]) rfl
  case routeBusy => exact answers_of_run_refused rfl ha (by simp [specRouteSet, ← hd, hwhy, hne]; rfl) rfl rfl rfl
  case route =>
    refine answers_of_run rfl ha ?_ rfl
    rcases hwhy with h | h <;> simp [specRouteSet, ← hd, h, hordered, modSw]
  case routeHeld =>
    refine answers_of_run rfl ha ?_ rfl
    rcases hwhy with h | h <;> simp [specRouteSet, ← hd, h, hordered, hkind, hother, modSw] <;> rfl
  case mcastCreate =>
    exact answers_of_run rfl ha (by simp only [specMcastCreate, newObject_of_free (x := { q := q }) rfl hfree hv]; rfl) rfl
  case prbs => exact answers_of_run rfl ha (by simp [specPrbs, hopen]) rfl
  case prbsStop =>
    refine answers_of_run rfl ha ?_ rfl
    cases chk <;> simp [specPrbsStop, hres] at hout ⊢ <;> simp [← hout]
  case eyescan => exact answers_of_run rfl ha (by simp only [specEyescan, now_scanTime, hopen, hw]) rfl
  case survey => exact answers_of_run rfl ha (by simp only [specSurvey, now_scanTime, hopen, hnear, hr]) rfl

end Sys2Proof.Proofs
end

section
/-! The `traffic` commands (R199, R225, R228, R242, R251, R259, R266, R270, R274). -/

namespace Sys2Proof.Machine

theorem now_takeIndex {ty i : Nat} {s v : State} {h : Handle} (htake : (h, v) = takeIndex ty i s) : now v = now s := by
  obtain rfl : v = (takeIndex ty i s).2 := congrArg Prod.snd htake
  rfl

end Sys2Proof.Machine

namespace Sys2Proof.Proofs

open Sys2Proof Sys2Proof.Machine

/-- Settles O14: each admitted command answers what its run gives for the named fields. -/
theorem trafficCommands : Obligations.TrafficCommands := by
  intro q p s u n h hu hn hh
  subst hu hn hh
  refine ⟨fun ha => answers_of_run rfl ha rfl rfl, fun ha => answers_of_run rfl ha rfl rfl, fun ha => answers_of_run rfl ha rfl rfl,
    fun i m v ha hfree hv => ?meterCreate, fun ha => answers_of_run rfl ha rfl rfl, fun ha => answers_of_run rfl ha rfl rfl,
    fun on die ha hon hdie hne => ?attach, fun on die ha hon hdie hnull => ?detach, fun ha hst => ?shaperNow, fun ha hservice hdrain => ?shaperLater,
    fun ha => answers_of_run rfl ha rfl rfl, fun ha hcopy => ?copy0, fun ha hcopy => ?copy1, fun v t ha hv hnone ht => ?commit, fun v t ha hv hsome => ?commitBusy⟩
  case meterCreate =>
    refine answers_of_run rfl ha ?_ rfl
    simp only [specMeterCreate, newObject_of_free (x := { q := q }) rfl hfree hv, meterFrom, now_takeIndex hv]
    rfl
  case attach =>
    have hnamed : ¬ handleAt p 0 = 0#32 := hne
    exact answers_of_run rfl ha (by simp [specMeterAttach, ← hon, ← hdie, hnamed, modTm]) rfl
  case detach => exact answers_of_run rfl ha (by simp [specMeterAttach, ← hon, ← hdie, hnull, modTm]) rfl
  case shaperNow =>
    refine answers_of_run rfl ha ?_ rfl
    rcases hst with h | h <;> simp [specShaperSet, h]
  case shaperLater => exact answers_of_run rfl ha (by simp [specShaperSet, hservice, hdrain, modTm, tmod]) rfl
  case copy0 => exact answers_of_run rfl ha (by simp [specTgWrite, hcopy]) rfl
  case copy1 => exact answers_of_run rfl ha (by simp [specTgWrite, hcopy]) rfl
  case commit =>
    subst hv ht
    exact answers_of_run rfl ha (by simp [specTgCommit, hnone]) rfl
  case commitBusy =>
    subst hv
    exact answers_of_run_refused rfl ha (by simp [specTgCommit, hsome]; rfl) rfl rfl rfl

end Sys2Proof.Proofs
end

section
/-! The `bind` and `slice` commands on tenants, slices and bindings (R438 to R461, R493, R495, R519). -/

namespace Sys2Proof.Machine

/-- In direct mode a binding is made at the lowest free index, and its delta written (R447). -/
theorem makeBinding_of_unmediated {op i : Nat} {q : Req} {p : Bytes} {u v w : State} {g : Handle} {b : Binding} (hmed : u.ten.mediated = false)
    (hfree : lowestFree u 1 = some i) (htake : (g, v) = takeIndex 1 i u) (hb : b = bindFrom p ((freePage v (fieldAt p 12 1)).getD 0) v.hoard.durable)
    (hw : w = { v with ten := { v.ten with bindings := tset v.ten.bindings (hIdx g) b, rings := tset v.ten.rings (hIdx g) default } }) :
    makeBinding op { q := q } p u = withDelta op g (.binding (hIdx g) b (objOf w 1 (hIdx g))) (bindingBytes g b) true w := by
  have hmedv : ¬ v.ten.mediated = true := by
    obtain rfl : v = (takeIndex 1 i u).2 := congrArg Prod.snd htake
    exact Bool.eq_false_iff.mp hmed
  rw [makeBinding, newObject_of_free (x := { q := q }) rfl hfree htake]
  dsimp only
  rw [if_neg hmedv, hw, hb]
  rfl

end Sys2Proof.Machine

namespace Sys2Proof.Proofs

open Sys2Proof Sys2Proof.Machine

/-- Settles O15: each admitted command answers what its run gives for the named fields, the delta of a change with it. -/
theorem tenantAndSliceCommands : Obligations.TenantAndSliceCommands := by
  intro q p s u h hu hh
  subst hu hh
  refine ⟨fun i g t v w n ha hfree hv ht hw hn => ?tenantCreate, fun ha hstrict hlow => ?denied, fun t w n ha hstrict ht hw hn => ?tenantSet,
    fun w n ha hw hn => ?tenantDestroy, fun ha => answers_of_run rfl ha rfl rfl, fun i g r v w n ha hfree hv hr hw hn => ?sliceCreate,
    fun r w n ha hr hw hn => ?sliceSet, fun w n ha hw hn => ?sliceDestroy, fun ha => answers_of_run rfl ha rfl rfl⟩
  case tenantCreate =>
    subst ht hw hn
    exact answers_of_run rfl ha (by simp only [specTenantCreate, newObject_of_free (x := { q := q }) rfl hfree hv]; rfl) rfl
  case denied => exact answers_of_run_refused rfl ha (by simp [specTenantSet, hstrict, hlow]; rfl) rfl rfl rfl
  case tenantSet =>
    subst ht hw hn
    refine answers_of_run rfl ha ?_ rfl
    rcases hstrict with h | h <;> simp [specTenantSet, h] <;> rfl
  case tenantDestroy =>
    subst hw hn
    exact answers_of_run rfl ha rfl rfl
  case sliceCreate =>
    subst hr hw hn
    exact answers_of_run rfl ha (by simp only [specSliceCreate, newObject_of_free (x := { q := q }) rfl hfree hv]; rfl) rfl
  case sliceSet =>
    subst hr hw hn
    exact answers_of_run rfl ha rfl rfl
  case sliceDestroy =>
    rw [hn, hw]
    exact answers_of_run rfl ha (by simp only [specSliceDestroy, withDelta]; rfl) rfl

/-- Settles O16: each admitted command answers what its run gives for the named fields. -/
theorem bindingCommands : Obligations.BindingCommands := by
  intro q p s u h hu hh
  subst hu hh
  refine ⟨fun i g b v w n ha hmed hfree hv hb hw hn => ?create, fun r ha hmed hroute hr hok => ?mediatedFm, fun v ha hmed hroute hv => ?mediatedTenant,
    fun ha hflag => ?destroyNow, fun ha hflag => ?destroyWait, fun ha => answers_of_run rfl ha rfl rfl, fun ha => answers_of_run rfl ha rfl rfl,
    fun ha hnone => ?approveNone, fun m r ha hreq hhandles hok hr => ?approve, fun ha hnone => ?refuseNone, fun m ha hreq => ?refuse,
    fun ha => answers_of_run rfl ha rfl rfl⟩
  case create =>
    refine answers_of_run rfl ha ?_ rfl
    simp only [specBindCreate, hmed, Bool.false_and, Bool.false_eq_true, if_false]
    rw [makeBinding_of_unmediated hmed hfree hv hb hw, hn]
    rfl
  case mediatedFm =>
    subst hr
    exact answers_of_run rfl ha (by simp [specBindCreate, hroute]) hok
  case mediatedTenant =>
    subst hv
    exact answers_of_run rfl ha (by simp only [specBindCreate, hmed, hroute, beq_self_eq_true, Bool.and_self, if_true]; rfl) rfl
  case destroyNow => exact answers_of_run rfl ha (by simp [specBindDestroy, hflag]) rfl
  case destroyWait => exact answers_of_run rfl ha (by simp [specBindDestroy, hflag]) rfl
  case approveNone => exact answers_of_run_refused rfl ha (by simp only [specBindApprove, hnone]; rfl) rfl rfl rfl
  case approve =>
    subst hr
    exact answers_of_run rfl ha (by simp only [specBindApprove, hreq, hhandles]; rfl) hok
  case refuseNone => exact answers_of_run_refused rfl ha (by simp only [specBindRefuse, hnone]; rfl) rfl rfl rfl
  case refuse => exact answers_of_run rfl ha (by simp only [specBindRefuse, hreq]; rfl) rfl

end Sys2Proof.Proofs
end

section
/-! The `gate` commands: rule sets, gates and leases (R441, R469 to R488, R513, R520, R523, R757). -/

namespace Sys2Proof.Machine

/-- A swap tick lies at least 2 µs ahead, on the grid of 1,024 ns, and is the first such instant (R481). -/
theorem swapTick_bounds (s : State) : now s + 2000 ≤ swapTick s ∧ swapTick s < now s + 2000 + 1024 ∧ swapTick s % 1024 = 0 := by
  have hround : swapTick s = (now s + 2000 + 1024 - 1) / 1024 * 1024 := rfl
  omega

/-- A tenant may write a rule of a priority up to 127 over a slice of its own (R479). -/
def ownRule (s : State) (o : Handle) (r : BitVec 128) : Bool :=
  decide (ruPrio r ≤ 127) && (match ruSlice s r with
    | some (_, sl) => sl.owner == o
    | none => false)

theorem specRuleWrite_run (x : CmdCtx) (p : Bytes) (s : State) :
    specRuleWrite.run x p s =
      if (ruleSetOf s (handleAt p 0)).owner ≠ 0 && !(ruleList p).all (ownRule s (ruleSetOf s (handleAt p 0)).owner) then ({ status := .denied, h1 := handleAt p 0 }, s)
      else ({ h1 := handleAt p 0 }, modRules (handleAt p 0) (fun r => { r with staged := ruleList p }) s) := rfl

theorem ownRule_of_own {s : State} {o : Handle} {x : BitVec 128} (hprio : ruPrio x ≤ 127) (hslice : ∃ g sl, ruSlice s x = some (g, sl) ∧ sl.owner = o) :
    ownRule s o x = true := by
  obtain ⟨g, sl, hsl, hown⟩ := hslice
  simp [ownRule, hprio, hsl, hown]

theorem ownRule_of_high {s : State} {o : Handle} {x : BitVec 128} (hprio : 127 < ruPrio x) : ownRule s o x = false := by
  simp [ownRule, hprio]

/-! Staging under a lease. -/

theorem now_nameLease (h : Handle) (s : State) : now (nameLease h s) = now s := by
  rw [nameLease]
  split <;> simp

theorem committing_nameLease (h : Handle) (i : Nat) (s : State) :
    (tget (nameLease h s).ten.leases i).committing = (tget s.ten.leases i).committing := by
  rw [nameLease]
  split
  · rfl
  · by_cases hi : i = hIdx h
    · subst hi; simp
    · simp [tget_tmod_ne, hi]

theorem lowestFree_nameLease (h : Handle) (s : State) (ty : Nat) : lowestFree (nameLease h s) ty = lowestFree s ty := by
  rw [nameLease]
  split <;> rfl

/-- A commit applies what is staged over the lease, and waits on the lease too (R487). -/
theorem commitSpec_run (l : List CmdSpec) (x : CmdCtx) (p : Bytes) (s : State) :
    (commitSpec l).run x p s =
      if (tget s.ten.leases (hIdx (handleAt p 0))).committing then ({ status := .busy, h1 := handleAt p 0 }, s)
      else
        let r := applyStaged l (tget s.ten.leases (hIdx (handleAt p 0))).staged []
          (modTen (fun t => { t with leases := tmod t.leases (hIdx (handleAt p 0)) (fun y => { y with staged := [], committing := true, named := now s }) }) s)
        ({ r.1 with h1 := handleAt p 0, waits := r.1.waits ++ [.gateLease (handleAt p 0)] }, r.2) := rfl

/-- A command without a Deadline that names a lease and passes its checks is staged under it, with the lease named anew (R487, R488). -/
theorem runCmd_staged {c : CmdSpec} {q : Req} {p : Bytes} {s : State} (hruns : commandsRun s = true) (hpfail : c.op = 0x0103 → pfailHeld s = false)
    (hcheck : checkCmd c q p s = none) (hdeadline : q.deadline = 0) (hlease : q.lease ≠ 0) :
    runCmd c q p s = stageCmd c q p (nameLease q.lease (counted q s)) := by
  have hop : (c.op == 0x0103 && pfailHeld s) = false := by
    by_cases h : c.op = 0x0103
    · simp [hpfail h]
    · simp [h]
  simp only [runCmd, hruns, hop, hcheck, hdeadline, Bool.not_true, Bool.or_self, Bool.false_eq_true, ne_self_iff_false, decide_false, Bool.false_and, if_false,
    if_pos hlease, counted]

end Sys2Proof.Machine

namespace Sys2Proof.Proofs

open Sys2Proof Sys2Proof.Machine

/-- Settles O17: each admitted command answers what its run gives for the named fields. -/
theorem gateCommands : Obligations.GateCommands := by
  intro q p s u h r hu hh hr
  subst hu hh hr
  refine ⟨fun i g v w n ha hfree hv hw hn => ?create, fun n ha hswap hgen hn => ?destroy, fun ha hbusy => ?destroyBusy, fun ha hown => ?writeFm,
    fun ha hown hall => ?writeTenant, fun x ha hown hx hprio => ?writeDenied, fun n v ha hswap hgen hv hn => ?commit, fun ha hbusy => ?commitBusy,
    swapTick_bounds _, fun g on ha hg hon hwas => ?configureSame, fun g on ha hg hon hwas => ?configure, fun ha => answers_of_run rfl ha rfl rfl,
    fun ha hk => ?gateStatus, fun ha hk => ?ruleStatus⟩
  case create =>
    rw [hn, hw]
    exact answers_of_run rfl ha (by simp only [specSetCreate, newObject_of_free (x := { q := q }) rfl hfree hv]; rfl) rfl
  case destroy =>
    rw [hn]
    exact answers_of_run rfl ha (by simp only [specSetDestroy, hswap, hgen, Option.isSome_none, Bool.or_self, Bool.false_eq_true, if_false]) rfl
  case destroyBusy =>
    refine answers_of_run_refused (t := counted q s) rfl ha ?_ rfl rfl rfl
    rcases hbusy with h | h <;> simp only [specSetDestroy, h, Bool.true_or, Bool.or_true, if_true]
  case writeFm => exact answers_of_run rfl ha (by rw [specRuleWrite_run, hown]; rfl) rfl
  case writeTenant =>
    have hlist : (ruleList p).all (ownRule (counted q s) (ruleSetOf (counted q s) (handleAt p 0)).owner) = true :=
      List.all_eq_true.mpr fun x hx => ownRule_of_own (hall x hx).1 (hall x hx).2
    exact answers_of_run rfl ha (by simp only [specRuleWrite_run, hlist, Bool.not_true, Bool.and_false, Bool.false_eq_true, if_false]) rfl
  case writeDenied =>
    have hlist : (ruleList p).all (ownRule (counted q s) (ruleSetOf (counted q s) (handleAt p 0)).owner) = false :=
      List.all_eq_false.mpr ⟨x, hx, by simp [ownRule_of_high hprio]⟩
    refine answers_of_run_refused (t := counted q s) rfl ha ?_ rfl rfl rfl
    simp only [specRuleWrite_run, hlist, decide_eq_true hown, Bool.not_false, Bool.and_self, if_true]
  case commit =>
    rw [hn, hv]
    exact answers_of_run rfl ha (by simp only [specGateCommit, hswap, hgen, Option.isSome_none, Bool.or_self, Bool.false_eq_true, if_false]) rfl
  case commitBusy =>
    refine answers_of_run_refused (t := counted q s) rfl ha ?_ rfl rfl rfl
    rcases hbusy with h | h <;> simp only [specGateCommit, h, Bool.true_or, Bool.or_true, if_true]
  case configureSame =>
    subst hg hon
    exact answers_of_run rfl ha (by simp [specGateConfigure, hwas]) rfl
  case configure =>
    subst hg hon
    exact answers_of_run rfl ha (by simp [specGateConfigure, hwas]) rfl
  case gateStatus => exact answers_of_run rfl ha (by simp [specGateStatus, hk]) rfl
  case ruleStatus => exact answers_of_run rfl ha (by simp [specGateStatus, hk]) rfl

/-- Settles O18: taking, committing and releasing a lease by their runs, and a command that names a lease by `runCmd_staged`. -/
theorem leaseCommands : Obligations.LeaseCommands := by
  intro q p s u h hu hh
  subst hu hh
  refine ⟨fun i g v ha hnone hfree hv => ?take, fun e ha hsome => ?locked, fun ha hbusy => ?commitBusy, fun w o v ha hidle hw hstaged hok => ?commit,
    fun w o v ha hidle hw hstaged hok hpart => ?commitFails, fun ha hbusy => ?releaseBusy, fun ha hidle => ?release,
    fun c v hruns hpfail hcheck hdeadline hlease hidle hcreates hv => ?stage, fun c ty i g v w hruns hpfail hcheck hdeadline hlease hidle hcreates hfree hv hw => ?stageCreation⟩
  case take => exact answers_of_run rfl ha (by simp only [specLeaseTake, hnone, newObject_of_free (x := { q := q }) rfl hfree hv]; rfl) rfl
  case locked => exact answers_of_run_refused rfl ha (by simp only [specLeaseTake, hsome]; rfl) rfl rfl rfl
  case commitBusy => exact answers_of_run_refused rfl ha (by simp only [specLeaseCommit, commitSpec, hbusy, if_true]; rfl) rfl rfl rfl
  case commit =>
    subst hw
    refine answers_of_run rfl ha ?_ hok
    simp only [specLeaseCommit, commitSpec_run, hidle, Bool.false_eq_true, if_false, tmod, modTen, ← hstaged]
  case commitFails =>
    subst hw
    refine answers_of_run_refused (t := v) rfl ha ?_ (by simpa using hok) (by simpa using hpart) rfl
    simp only [specLeaseCommit, commitSpec_run, hidle, Bool.false_eq_true, if_false, tmod, modTen, ← hstaged]
  case releaseBusy => exact answers_of_run_refused rfl ha (by simp only [specLeaseRelease, hbusy, if_true]; rfl) rfl rfl rfl
  case release => exact answers_of_run rfl ha (by simp only [specLeaseRelease, hidle, Bool.false_eq_true, if_false]) rfl
  case stage =>
    rw [runCmd_staged hruns hpfail hcheck hdeadline hlease, stageCmd, committing_nameLease, if_neg (Bool.eq_false_iff.mp hidle), hcreates, hv, ← now_nameLease q.lease (counted q s)]
  case stageCreation =>
    rw [runCmd_staged hruns hpfail hcheck hdeadline hlease, stageCmd, committing_nameLease, if_neg (Bool.eq_false_iff.mp hidle), hcreates, hw, ← now_nameLease q.lease (counted q s), ← now_takeIndex hv]
    simp only [lowestFree_nameLease, hfree, ← hv]

end Sys2Proof.Proofs
end

section
/-! The `coh` and `hoard` commands (R325, R341, R347, R352, R360, R370, R371, R395, R398, R416, R420 to R422, R432, R435, R520). -/

namespace Sys2Proof.Machine

/-- While commands run, the answer of Hibernate has no part in `coh.drey_flush` (R370). -/
theorem exec_cohDreyFlush_of_runs {q : Req} {p : Bytes} {s : State} (hruns : commandsRun s = true) :
    exec (.cohDreyFlush q p) s = finishStep (runCmd specCohDreyFlush q p s) :=
  congrArg finishStep (notInHibernate_runs _ _ _ _ _ hruns)

/-- While commands run, the answer of Hibernate has no part in `hoard.dirty_cap` (R373). -/
theorem exec_hoardDirtyCap_of_runs {q : Req} {p : Bytes} {s : State} (hruns : commandsRun s = true) :
    exec (.hoardDirtyCap q p) s = finishStep (runCmd specHoardDirtyCap q p s) :=
  congrArg finishStep (notInHibernate_runs _ _ _ _ _ hruns)

/-- While commands run, the answer of Hibernate has no part in `hoard.configure` (R437). -/
theorem exec_hoardConfigure_of_runs {q : Req} {p : Bytes} {s : State} (hruns : commandsRun s = true) :
    exec (.hoardConfigure q p) s = finishStep (runCmd specHoardConfigure q p s) :=
  congrArg finishStep (notInHibernate_runs _ _ _ _ _ hruns)

/-- A field of 0 leaves the hold-up parameters as they are (R416, R420). -/
theorem holdupParameters_eq (p : Bytes) (d : DurSt) (s : State) (hs : s.dur = d) :
    (let s := if fieldAt p 4 4 = 0 then s else { s with dur := { s.dur with tDev := fieldAt p 4 4 * 1000 } }
     if fieldAt p 8 4 = 0 then s else { s with dur := { s.dur with holdup := fieldAt p 8 4 } })
      = { s with dur := { d with tDev := if fieldAt p 4 4 = 0 then d.tDev else fieldAt p 4 4 * 1000, holdup := if fieldAt p 8 4 = 0 then d.holdup else fieldAt p 8 4 } } := by
  subst hs
  split_ifs <;> rfl

end Sys2Proof.Machine

namespace Sys2Proof.Proofs

open Sys2Proof Sys2Proof.Machine

/-- Settles O19: each admitted command answers what its run gives for the named fields. -/
theorem coherenceAndHoardCommands : Obligations.CoherenceAndHoardCommands := by
  intro q p s u n hu hn
  subst hu hn
  refine ⟨fun x ha hscope hx => ?snoopTimeout, fun x ha hscope hx => ?portCaches, fun l k ha hl hkey => ?entry, fun l ha hl hkey => ?noEntry,
    fun h ha hh => ?policy, fun ha => ?flush, fun ha => answers_of_run rfl ha rfl rfl,
    fun ha => answers_of_run rfl ha rfl rfl, fun ha => answers_of_run rfl ha rfl rfl,
    fun x y ha hx hy => ⟨fun hzero => ?keepPeriod, fun hne hgm => ?ownPeriod, fun hne hgm => ?gridPeriod⟩, fun ha => answers_of_run rfl ha rfl rfl,
    fun ha => answers_of_run (exec_hoardDirtyCap_of_runs ha.1) ha rfl rfl, fun m ha hmoving => ?journalBusy, fun ha hidle => ?journalSet,
    fun ha => answers_of_run rfl ha rfl rfl⟩
  case snoopTimeout =>
    refine answers_of_run rfl ha ?_ rfl
    by_cases h : fieldAt p 8 4 = 0 <;> simp [specCohConfigure, hscope, hx, h]
  case portCaches =>
    refine answers_of_run rfl ha ?_ rfl
    by_cases h : fieldAt p 8 4 = 0 <;> simp [specCohConfigure, hscope, hx, h]
  case entry => exact answers_of_run rfl ha (by simp only [specCohEntryRead, ← hl, hkey]) rfl
  case noEntry => exact answers_of_run rfl ha (by simp only [specCohEntryRead, ← hl, hkey]; rfl) rfl
  case policy =>
    subst hh
    exact answers_of_run rfl ha rfl rfl
  case keepPeriod =>
    refine answers_of_run (exec_hoardConfigure_of_runs ha.1) ha ?_ rfl
    simp only [specHoardConfigure, ← hx, hzero, if_true]
    rw [holdupParameters_eq p _ _ rfl, hy]
  case ownPeriod =>
    refine answers_of_run (exec_hoardConfigure_of_runs ha.1) ha ?_ rfl
    simp only [specHoardConfigure, ← hx, hne, hgm, Bool.false_eq_true, if_false]
    rw [holdupParameters_eq p _ _ rfl, hy]
    rfl
  case gridPeriod =>
    refine answers_of_run (exec_hoardConfigure_of_runs ha.1) ha ?_ rfl
    simp only [specHoardConfigure, ← hx, hne, hgm, if_false, if_true]
    rw [holdupParameters_eq p _ _ rfl, hy]
    rfl
  case flush => exact answers_of_run (exec_cohDreyFlush_of_runs ha.1) ha (by simp only [specCohDreyFlush]) rfl
  case journalBusy => exact answers_of_run_refused rfl ha (by simp [specHoardJournalSet, hmoving]; rfl) rfl rfl rfl
  case journalSet => exact answers_of_run rfl ha (by simp [specHoardJournalSet, hidle, modJ]) rfl

end Sys2Proof.Proofs
end

section
/-! The `time`, `power` and `cage` commands (R380 to R384, R524, R617 to R631, R643 to R648, R696 to R717). -/

namespace Sys2Proof.Machine

/-! What `power.domain_set` answers, by where the domain stands (R629). -/

section

variable {d : Nat} {k t : Pd} {wave : Bool} {s : State}

theorem requestDomain_of_there (hidle : (domOf s d).target = none) (hst : (domOf s d).st = k) : requestDomain d k wave s = (.already, s) := by
  simp [requestDomain, hidle, hst]

theorem requestDomain_of_other (hidle : (domOf s d).target = none) (hst : (domOf s d).st ≠ k) :
    requestDomain d k wave s = (.started, startTransition d k s) := by
  simp [requestDomain, hidle, hst]

theorem requestDomain_of_same (htarget : (domOf s d).target = some k) (hfree : (domOf s d).queued = none) : requestDomain d k wave s = (.joined, s) := by
  simp [requestDomain, htarget, hfree]

theorem requestDomain_of_behind (htarget : (domOf s d).target = some t) (hne : t ≠ k) (hfree : (domOf s d).queued = none) :
    requestDomain d k wave s = (.queued, modDom d (fun y => { y with queued := some k, qWave := wave }) s) := by
  simp [requestDomain, htarget, hfree, hne]

theorem requestDomain_of_queued {z : Pd} (htarget : (domOf s d).target = some t) (hqueued : (domOf s d).queued = some z) :
    requestDomain d k wave s = (.queued, modDom d (fun y => { y with queued := some k, qWave := wave }) (replaceQueued d s)) := by
  simp [requestDomain, htarget, hqueued]

end

theorem specDomainSet_run (x : CmdCtx) (p : Bytes) (s : State) :
    specDomainSet.run x p s =
      ({ payload := leBytes 1 (fieldAt p 2 1) ++ leBytes 1 (b2n ((requestDomain (fieldAt p 0 2) (pdOf (fieldAt p 2 1)) false s).1 = .queued)) ++ zeros 6
         waits := if bitOf (fieldAt p 3 1) 0 then [] else match (requestDomain (fieldAt p 0 2) (pdOf (fieldAt p 2 1)) false s).1 with
           | .already => []
           | .started | .joined => [.domain (fieldAt p 0 2) false]
           | .queued => [.domain (fieldAt p 0 2) true] },
       (requestDomain (fieldAt p 0 2) (pdOf (fieldAt p 2 1)) false s).2) := rfl

theorem zeros_seven : zeros 7 = leBytes 1 (b2n false) ++ zeros 6 := rfl

/-- An observed clock that stops while it is observed is told once (R650). -/
theorem observedStop_of_observed {s : State} (hout : s.pwr.obsOut ≠ 0) (hnew : s.pwr.obsStopped = false) :
    observedStop s = raise { code := 0x0A03, cls := .notice, block := 164, arg := s.pwr.obsClk } { s with pwr := { s.pwr with obsStopped := true } } := by
  simp [observedStop, hout, hnew]

end Sys2Proof.Machine

namespace Sys2Proof.Proofs

open Sys2Proof Sys2Proof.Machine

/-- Settles O20: each admitted command answers what its run gives for the named fields. -/
theorem timePowerAndCageCommands : Obligations.TimePowerAndCageCommands := by
  intro q p s u c hu hc
  subst hu hc
  refine ⟨fun t ha ht => ⟨fun hgm hext hok => ?external, fun hgm hext hmode => ?free, fun hgm hext hmode => ?keep, fun hgm => ?follower⟩,
    fun ha hmode => ?setPending, fun ha hmode => ?setNow, fun ha => answers_of_run rfl ha rfl rfl,
    fun d k w ha hd hk hw => ?domainSet, fun ha hone => ?oneDomain, fun ha hall => ?allDomains, fun ha hout => ?clkEnd, fun h v w ha hout hses hw => ?clkobs,
    fun v ha hv => ?cageSet, fun ha hall => ?allCages, fun ha hone => ?oneCage⟩
  case external => exact answers_of_run rfl ha (by simp [specTimeConfigure, modIo, ← ht, hgm, hext, hok]) rfl
  case free =>
    refine answers_of_run rfl ha ?_ rfl
    rcases hext with h | h <;> simp [specTimeConfigure, modIo, ← ht, hgm, h, hmode]
  case keep =>
    refine answers_of_run rfl ha ?_ rfl
    rcases hext with h | h <;> simp [specTimeConfigure, modIo, ← ht, hgm, h, hmode]
  case follower => exact answers_of_run rfl ha (by simp [specTimeConfigure, modIo, ← ht, hgm]) rfl
  case setPending => exact answers_of_run rfl ha (by simp [specTimeSet, hmode, modIo]) rfl
  case setNow => exact answers_of_run rfl ha (by simp [specTimeSet, hmode]) rfl
  case domainSet =>
    subst hd hk hw
    refine ⟨fun hidle hst => ?there, fun hidle hst => ?other, fun ht hq => ?same, fun t ht hne hq => ?behind, fun t z ht hq => ?queued⟩
    case there => exact answers_of_run rfl ha (by simp [specDomainSet_run, requestDomain_of_there hidle hst, zeros_seven]) rfl
    case other => exact answers_of_run rfl ha (by simp [specDomainSet_run, requestDomain_of_other hidle hst, zeros_seven]) rfl
    case same => exact answers_of_run rfl ha (by simp [specDomainSet_run, requestDomain_of_same ht hq, zeros_seven]) rfl
    case behind => exact answers_of_run rfl ha (by simp [specDomainSet_run, requestDomain_of_behind ht hne hq]; rfl) rfl
    case queued => exact answers_of_run rfl ha (by simp [specDomainSet_run, requestDomain_of_queued ht hq]; rfl) rfl
  case oneDomain => exact answers_of_run rfl ha (by simp [specDomainStatus, hone]) rfl
  case allDomains => exact answers_of_run rfl ha (by simp [specDomainStatus, hall]) rfl
  case clkEnd => exact answers_of_run rfl ha (by simp [specClkobs, hout]) rfl
  case clkobs =>
    have hsession : (if handleAt p 0 = 0 then ((openSession q.route .clkobs 0 (counted q s)).1.getD 0, (openSession q.route .clkobs 0 (counted q s)).2) else (handleAt p 0, counted q s)) = (h, v) := by
      rcases hses with ⟨hne, rfl, rfl⟩ | ⟨hnull, hopen⟩
      · rw [if_neg hne]
      · rw [if_pos hnull, hopen]; rfl
    subst hw
    constructor
    · intro hclk
      exact answers_of_run rfl ha (by simp only [specClkobs, if_neg hout, hsession, hclk, if_true]) rfl
    · intro hclk
      refine answers_of_run rfl ha ?_ rfl
      simp only [specClkobs, if_neg hout, hsession, hclk, Bool.false_eq_true, if_false]
      rw [observedStop_of_observed hout rfl]
  case cageSet =>
    refine ⟨fun hact => ?noAction, fun hact hgate => ?onHigh, fun hact hgate => ?on, fun hact hport => ?offPort, fun hact hport => ?off, fun hact => ?cleared⟩
    case noAction => exact answers_of_run rfl ha (by simp [specCageSet, hact, ← hv]) rfl
    case onHigh => exact answers_of_run rfl ha (by simp [specCageSet, hact, ← hv, hgate]) rfl
    case on => exact answers_of_run rfl ha (by simp [specCageSet, hact, ← hv, hgate]) rfl
    case offPort => exact answers_of_run rfl ha (by simp [specCageSet, hact, ← hv, hport]) rfl
    case off => exact answers_of_run rfl ha (by simp [specCageSet, hact, ← hv, hport]) rfl
    case cleared => exact answers_of_run rfl ha (by simp [specCageSet, hact, ← hv]) rfl
  case allCages => exact answers_of_run rfl ha (by simp [specCageStatus, hall]) rfl
  case oneCage => exact answers_of_run rfl ha (by simp [specCageStatus, hone]) rfl

end Sys2Proof.Proofs
end

section
/-! The `secure` commands (R515, R554, R562 to R583). -/

namespace Sys2Proof.Machine

/-- A command that ends with a status its effect stands under answers what its run gives. -/
theorem answers_of_run_kept {i : Instr} {c : CmdSpec} {q : Req} {p : Bytes} {s t : State} {o : CmdOut}
    (hx : exec i s = finishStep (runCmd c q p s)) (ha : Admitted c q p s) (hr : c.run { q := q } p (counted q s) = (o, t)) (hk : c.keeps o.status = true) :
    Answers i c q p s o t :=
  answers_of_execute hx ha (executeCmd_kept hr hk)

/-- The bytes that a chunk's upload holds before it: none for a first chunk (R563). -/
def chunkBase (p held : Bytes) : Bytes := if bitOf (fieldAt p 1 1) 0 then [] else held

/-- A chunk is out of its place, or past its region's end (R563, R565). -/
def chunkMisplaced (p : Bytes) (stager : Option Route) (complete : Bool) (held : Bytes) (room : Nat) : Bool :=
  (bitOf (fieldAt p 1 1) 0 && fieldAt p 4 4 != 0) || (!bitOf (fieldAt p 1 1) 0 && (stager.isNone || complete || fieldAt p 4 4 != held.length))
    || decide ((chunkBase p held).length + (p.drop 12).length > room)

theorem chunkMisplaced_of {p : Bytes} {stager : Option Route} {complete : Bool} {held : Bytes} {room : Nat}
    (h : (bitOf (fieldAt p 1 1) 0 = true ∧ fieldAt p 4 4 ≠ 0)
      ∨ (bitOf (fieldAt p 1 1) 0 = false ∧ (stager = none ∨ complete = true ∨ fieldAt p 4 4 ≠ held.length))
      ∨ room < (if bitOf (fieldAt p 1 1) 0 then 0 else held.length) + (p.drop 12).length) :
    chunkMisplaced p stager complete held room = true := by
  rcases h with ⟨hf, ho⟩ | ⟨hf, ho⟩ | hroom
  · simp [chunkMisplaced, hf, ho]
  · rcases ho with h | h | h <;> simp [chunkMisplaced, hf, h]
  · have hlen : (chunkBase p held).length = if bitOf (fieldAt p 1 1) 0 then 0 else held.length := by
      unfold chunkBase; split <;> rfl
    simp only [chunkMisplaced, hlen, decide_eq_true hroom, gt_iff_lt, Bool.or_true]

/-- A chunk in its place goes behind what its upload holds. -/
theorem chunk_placed {p : Bytes} {stager : Option Route} {complete : Bool} {held b : Bytes} {room : Nat}
    (h : (bitOf (fieldAt p 1 1) 0 = true ∧ fieldAt p 4 4 = 0 ∧ b = p.drop 12)
      ∨ (bitOf (fieldAt p 1 1) 0 = false ∧ stager.isSome = true ∧ complete = false ∧ fieldAt p 4 4 = held.length ∧ b = held ++ p.drop 12))
    (hroom : b.length ≤ room) : chunkMisplaced p stager complete held room = false ∧ chunkBase p held ++ p.drop 12 = b := by
  rcases h with ⟨hf, ho, rfl⟩ | ⟨hf, hs, hc, ho, rfl⟩
  · have : ¬ (p.drop 12).length > room := by omega
    simp [chunkMisplaced, chunkBase, hf, ho] at this ⊢
    exact this
  · have hs' : stager.isNone = false := by simpa using hs
    rw [List.length_append] at hroom
    have hfits : ¬ held.length + (p.drop 12).length > room := Nat.not_lt.mpr hroom
    simp only [chunkMisplaced, chunkBase, hf, hs', hc, ho, Bool.false_eq_true, if_false, decide_eq_false hfits]
    simp

/-- What `secure.fw_stage` has found before its chunk's place counts: an update, or another origin's upload (R515). -/
def stageBusy (x : CmdCtx) (old : Part) (s : State) : Bool :=
  s.sec.updating || (match old.stager with
    | some r => !old.complete && !sameOrigin r x.q.route
    | none => false)

/-- The part that a chunk in its place leaves (R563, R564). -/
def stagedPart (x : CmdCtx) (p b : Bytes) (s : State) : Part :=
  { bytes := b, complete := bitOf (fieldAt p 1 1) 1, valid := bitOf (fieldAt p 1 1) 1 && (if bitOf (fieldAt p 1 1) 1 then imageFails s.fuses (fieldAt p 0 1) b else none).isNone, stager := some x.q.route }

section
variable {x : CmdCtx} {p b : Bytes} {s : State} {k : Nat} {old : Part}

theorem stageBusy_of {x : CmdCtx} {old : Part} {s : State}
    (h : s.sec.updating = true ∨ ∃ r, old.stager = some r ∧ old.complete = false ∧ sameOrigin r x.q.route = false) : stageBusy x old s = true := by
  rcases h with h | ⟨r, hr, hc, hs⟩
  · simp [stageBusy, h]
  · simp [stageBusy, hr, hc, hs]

theorem not_stageBusy_of {x : CmdCtx} {old : Part} {s : State} (hup : s.sec.updating = false)
    (h : ∀ r, old.stager = some r → old.complete = true ∨ sameOrigin r x.q.route = true) : stageBusy x old s = false := by
  cases hr : old.stager with
  | none => simp [stageBusy, hup, hr]
  | some r => rcases h r hr with h | h <;> simp [stageBusy, hup, hr, h]

variable (hk : k = partKey (1 - s.sec.activeBank) (fieldAt p 0 1)) (hold : old = tget s.sec.parts k)
include hk hold

theorem stageChunk_of_busy (h : stageBusy x old s = true) : stageChunk x p s = ({ status := .busy }, s) := by
  subst hk hold
  exact if_pos h

theorem stageChunk_of_misplaced (h : stageBusy x old s = false) (hm : chunkMisplaced p old.stager old.complete old.bytes (partRoom (fieldAt p 0 1)) = true) :
    stageChunk x p s = ({ status := .invalidArg, detail := 68 },
      if old.stager.isSome && !old.complete then modSec (fun y => { y with parts := tset y.parts k { old with valid := false } }) s else s) := by
  subst hk hold
  exact (if_neg (by simp only [Bool.not_eq_true]; exact h)).trans (if_pos hm)

theorem stageChunk_of_placed (h : stageBusy x old s = false) (hm : chunkMisplaced p old.stager old.complete old.bytes (partRoom (fieldAt p 0 1)) = false)
    (hb : chunkBase p old.bytes ++ p.drop 12 = b) :
    stageChunk x p s = (match if bitOf (fieldAt p 1 1) 1 then imageFails s.fuses (fieldAt p 0 1) b else none with
      | some d => ({ status := .authFail, detail := d }, modSec (fun y => { y with parts := tset y.parts k (stagedPart x p b s) }) s)
      | none => ({}, modSec (fun y => { y with parts := tset y.parts k (stagedPart x p b s) }) s)) := by
  subst hk hold hb
  exact (if_neg (by simp only [Bool.not_eq_true]; exact h)).trans (if_neg (by simp only [Bool.not_eq_true]; exact hm))

end

/-- What the checks of a whole table make of it, once it is stored (R566). -/
def tableChecked (k : Nat) (b : Bytes) (s : State) : CmdOut × State :=
  if !tableAuth s.fuses b then ({ status := .authFail }, s)
  else if !tableForm b then ({ status := .invalidArg, detail := 76 }, s)
  else ({}, recordSecurity 0x0DFF 4 (fieldAt b 16 4) (ledgerWrite (fun l => { l with tableCopy := k }) (modSec (fun y => { y with measTbl := measure b, tableOk := true }) s)))

section
variable {x : CmdCtx} {p b : Bytes} {s : State} {k : Nat} {old : TableCopy} (hk : k = 1 - s.ledger.tableCopy) (hold : old = tget s.sec.tables k)
include hk hold

theorem tableChunk_of_misplaced (hm : chunkMisplaced p old.stager old.complete old.bytes 524288 = true) :
    tableChunk x p s = ({ status := .invalidArg, detail := 68 }, s) := by
  subst hk hold
  exact if_pos hm

theorem tableChunk_of_placed {v : State} (hm : chunkMisplaced p old.stager old.complete old.bytes 524288 = false) (hb : chunkBase p old.bytes ++ p.drop 12 = b)
    (hv : v = modSec (fun y => { y with tables := tset y.tables k { bytes := b, complete := bitOf (fieldAt p 1 1) 1, stager := some x.q.route } }) s) :
    tableChunk x p s = if bitOf (fieldAt p 1 1) 1 then tableChecked k b v else ({}, v) := by
  subst hk hold hb hv
  refine (if_neg (by simp only [Bool.not_eq_true]; exact hm)).trans ?_
  cases hlast : bitOf (fieldAt p 1 1) 1
  · exact if_pos rfl
  · exact if_neg (by decide)

end

end Sys2Proof.Machine

namespace Sys2Proof.Proofs

open Sys2Proof Sys2Proof.Machine

/-- Settles O21: each admitted command answers what its run gives for the named fields. -/
theorem secureCommands : Obligations.SecureCommands := by
  intro q p s u hu
  subst hu
  refine ⟨fun k old ha hk hold => ⟨fun hbusy => ?stageBusy, fun hup hown => ⟨fun hm hnone => ?misplaced, fun hm hst hc => ?spoiled, fun b x hb hroom hx => ?staged⟩⟩,
    fun k old ha hk hold => ⟨fun hm => ?tableMisplaced, fun b v w hb hroom hv hw => ?table⟩,
    fun ha hact hup => ?busy, fun ha hact hup => ?takeover, fun v ha hact hv => ?raise, fun r ha hoff hr => ?evidence,
    fun e ha hoff he => ⟨fun hn hlt hne => ?fragment, fun hn hlt heq => ?lastTick, fun hn hle => ?past, fun hn => ?otherNonce⟩, fun ha hoff he => ?noEvidence,
    fun ha hact => ?challenge, fun ha hact htok => ?badToken, fun n e ha hact htok hch hne => ?goodToken, fun ha hact hlock => ?locked, fun ha hact hopen => ?lock,
    fun ha hauth => ?burn, fun ha hauth => ?noAuth⟩
  case stageBusy =>
    exact answers_of_run_refused (t := counted q s) rfl ha (stageChunk_of_busy hk hold (stageBusy_of hbusy)) rfl rfl rfl
  case misplaced =>
    refine answers_of_run_kept rfl ha ?_ rfl
    refine (stageChunk_of_misplaced hk hold (not_stageBusy_of hup hown) (chunkMisplaced_of hm)).trans ?_
    rcases hnone with h | h <;> simp [h]
  case spoiled =>
    refine answers_of_run_kept rfl ha ?_ rfl
    refine (stageChunk_of_misplaced hk hold (not_stageBusy_of hup hown) (chunkMisplaced_of hm)).trans ?_
    simp [hst, hc, modSec]
  case staged =>
    obtain ⟨hm, hcat⟩ := chunk_placed hb hroom
    have hrun := stageChunk_of_placed (x := { q := q }) hk hold (not_stageBusy_of hup hown) hm hcat
    subst hx
    refine ⟨fun hlast => ?_, fun hlast hgood => ?_, fun d hlast hbad => ?_⟩
    · exact answers_of_run rfl ha (hrun.trans (by simp [hlast, stagedPart, modSec])) rfl
    · exact answers_of_run rfl ha (hrun.trans (by simp [hlast, hgood, stagedPart, modSec])) rfl
    · exact answers_of_run_kept rfl ha (hrun.trans (by simp [hlast, hbad, stagedPart, modSec])) rfl
  case tableMisplaced =>
    exact answers_of_run_kept rfl ha (tableChunk_of_misplaced hk hold (chunkMisplaced_of hm)) rfl
  case table =>
    obtain ⟨hm, hcat⟩ := chunk_placed hb hroom
    have hrun := tableChunk_of_placed (x := { q := q }) hk hold hm hcat hv
    have hf : v.fuses = (counted q s).fuses := by rw [hv]
    refine ⟨fun hlast => ?_, fun hlast hbad => ?_, fun hlast hauth hbad => ?_, fun hlast hauth hform => ?_⟩
    · exact answers_of_run rfl ha (hrun.trans (by simp [hlast])) rfl
    · exact answers_of_run_kept rfl ha (hrun.trans (by simp [hlast, tableChecked, hf, hbad])) rfl
    · exact answers_of_run_kept rfl ha (hrun.trans (by simp [hlast, tableChecked, hf, hauth, hbad])) rfl
    · exact answers_of_run rfl ha (hrun.trans (by simp [hlast, tableChecked, hf, hauth, hform, hw, modSec])) rfl
  case busy => exact answers_of_run_refused (t := counted q s) rfl ha (by simp [specFwActivate, hact, hup]) rfl rfl rfl
  case takeover => exact answers_of_run rfl ha (by simp [specFwActivate, hact, hup, modSec]) rfl
  case raise =>
    refine ⟨hv ▸ Nat.le_max_left _ _, answers_of_run rfl ha ?_ rfl⟩
    simp [specFwActivate, hact, ← hv]
  case evidence => exact answers_of_run rfl ha (by simp [specAttest, hoff, ← hr]) rfl
  case fragment => exact answers_of_run rfl ha (by simp [specAttest, hoff, he, hn, Nat.not_le.mpr hlt, hne]) rfl
  case lastTick => exact answers_of_run rfl ha (by simpa [specAttest, hoff, he, hn, Nat.not_le.mpr hlt] using fun h => absurd heq h) rfl
  case past => exact answers_of_run_refused (t := counted q s) rfl ha (by simp [specAttest, hoff, he, hn, hle]) rfl rfl rfl
  case otherNonce => exact answers_of_run_refused (t := counted q s) rfl ha (by simp [specAttest, hoff, he, hn]) rfl rfl rfl
  case noEvidence => exact answers_of_run_refused (t := counted q s) rfl ha (by simp [specAttest, hoff, he]) rfl rfl rfl
  case challenge => exact answers_of_run rfl ha (by simp [specUnlock, hact, modSec, drawFree, now]) rfl
  case badToken => exact answers_of_run_kept rfl ha (by simp [specUnlock, hact, htok, modSec]) rfl
  case goodToken => exact answers_of_run rfl ha (by simp only [specUnlock, hact, htok, hch, hne, modSec]; simp) rfl
  case locked => exact answers_of_run rfl ha (by simp [specUnlock, hact, hlock]) rfl
  case lock => exact answers_of_run rfl ha (by simp [specUnlock, hact, hopen, modSec]) rfl
  case burn =>
    refine ⟨fun hact => ?_, fun hact => ?_, fun hact => ?_⟩ <;> exact answers_of_run rfl ha (by simp [specOwnerKey, hauth, burn, hact]) rfl
  case noAuth => exact answers_of_run_refused (t := counted q s) rfl ha (by simp [specOwnerKey, hauth]) rfl rfl rfl

end Sys2Proof.Proofs
end

section
/-! Dispatch, posted commands, expiries and the steps of a takeover (R458, R488, R496, R510, R571, R577). -/

namespace Sys2Proof.Machine

theorem dispatch_of_none {s : State} (hnext : nextQueue s = none) : dispatch s = s := by
  simp [dispatch, hnext]

/-- With room for one more, the queue whose turn it is starts its first command. -/
theorem dispatch_of_next {s : State} {k : Nat} (hrun : commandsRun s = true) (hroom : s.cmd.running.length < 8) (hnext : nextQueue s = some k) :
    dispatch s = if k = 0 then startPe (modCmd (fun c => { c with turn := (k + 1) % 3 }) s)
      else if k = 1 then startI3c (modCmd (fun c => { c with turn := (k + 1) % 3 }) s) else startTenant (modCmd (fun c => { c with turn := (k + 1) % 3 }) s) := by
  simp only [dispatch, hrun, hnext, Nat.not_le.mpr hroom]
  simp

theorem startPe_of_cons {s : State} {k : Nat} {r : List Nat} (h : s.cmd.peQueue = k :: r) :
    startPe s = startRequest (.pe (Fin.ofNat 16 k)) (slotRequest s k).1 (slotRequest s k).2
      { s with cmd := { s.cmd with peQueue := r }, mbx := { s.mbx with slots := tset s.mbx.slots k .running } } := by
  simp only [startPe, h]; rfl

theorem startI3c_of_cons {s : State} {x : I3cReq} {r : List I3cReq} (h : s.i3c.queue = x :: r) :
    startI3c s = startRequest (.i3c x.eid x.tag) (i3cRequest x).1 (i3cRequest x).2 { s with i3c := { s.i3c with queue := r } } := by
  simp only [startI3c, h]

theorem startTenant_of_cons {s : State} {k : Nat} {r : List Nat} (h : s.cmd.tenQueue = k :: r) :
    startTenant s = startRequest (.tenant (tget s.ten.mbxs k).origin) (tenRequest (tget s.ten.mbxs k)).1 (tenRequest (tget s.ten.mbxs k)).2
      { s with cmd := { s.cmd with tenQueue := r }, ten := { s.ten with mbxs := tmod s.ten.mbxs k (fun m => { m with run := true }) } } := by
  simp only [startTenant, h]; rfl

theorem deadlinePassed_of_late {r : Route} {h : Bytes} {s : State} (hpost : postedHeader s r = some h) (hrun : commandsRun s = true)
    (hset : (reqOf r h).deadline ≠ 0) (hlate : (reqOf r h).deadline.toNat < ftCount s) :
    deadlinePassed r s = refuseCmd (fieldAt h 0 2) (reqOf r h) .timeout 0 0 (unpost r s) := by
  simp only [deadlinePassed, hpost, hrun, bne_iff_ne.mpr hset, decide_eq_true hlate]
  rfl

theorem deadlinePassed_of_early {r : Route} {h : Bytes} {s : State} (hpost : postedHeader s r = some h) (hearly : ftCount s ≤ (reqOf r h).deadline.toNat) :
    deadlinePassed r s = s := by
  simp only [deadlinePassed, hpost, decide_eq_false (Nat.not_lt.mpr hearly), Bool.and_false, Bool.false_eq_true, if_false]

end Sys2Proof.Machine

namespace Sys2Proof.Proofs

open Sys2Proof Sys2Proof.Machine

/-- Settles O27: by the queue whose turn it is, by the deadline and by the room in the board management controller's queue. -/
theorem dispatchAndPostedCommands : Obligations.DispatchAndPostedCommands := by
  refine ⟨fun s hrun hroom => ⟨fun hn => ?none, fun k r hn hq => ?pe, fun x r hn hq => ?i3c, fun k r hn hq => ?tenant⟩,
    fun s => ⟨fun r h hrun hp hset hlate => ?late, fun r h hp hearly => ?early, fun e t body hfw hv hroom => ?queued, fun e t body hfw hv hfull => ?full⟩⟩
  case none => exact exec_eq_of rfl (dispatch_of_none hn)
  case pe => exact exec_eq_of rfl ((dispatch_of_next hrun hroom hn).trans (startPe_of_cons hq))
  case i3c => exact exec_eq_of rfl ((dispatch_of_next hrun hroom hn).trans (startI3c_of_cons hq))
  case tenant => exact exec_eq_of rfl ((dispatch_of_next hrun hroom hn).trans (startTenant_of_cons hq))
  case late => exact exec_eq_of rfl (deadlinePassed_of_late hp hrun hset hlate)
  case early => exact exec_eq_of rfl (deadlinePassed_of_early hp hearly)
  case queued => exact exec_eq_of rfl (by simp [mctpRequest, hfw, hv, Nat.not_le.mpr hroom])
  case full => exact exec_eq_of rfl (by simp [mctpRequest, hfw, hv, hfull])

end Sys2Proof.Proofs

namespace Sys2Proof.Machine

theorem mediatedTimeout_of_late {s : State} {ev : Nat} {m : MedReq} (hm : medReqOf s ev = some m) (hlate : m.deadline ≤ now s) :
    mediatedTimeout ev s = completeRunning (fun r => r.waits == [Wait.mediated ev]) (fun r => { r with status := .timeout }) (closeMed ev s) := by
  simp only [mediatedTimeout, hm, if_neg (Nat.not_lt.mpr hlate)]

theorem lapseLease_of_early {s : State} {h : Handle} (hearly : now s < leaseLost (tget s.ten.leases (hIdx h)) + 250000000) : lapseLease h s = s := by
  simp [lapseLease, hearly]

theorem hb_of_commandView {t u : State} (h : commandView t = commandView u) : t.hb = u.hb := by
  have := congrArg State.hb h
  exact this
theorem sec_of_commandView {t u : State} (h : commandView t = commandView u) : t.sec = u.sec := by
  have := congrArg State.sec h
  exact this

/-- Where each running command waits for the takeover alone, its end touches only what no command acts on. -/
theorem commandView_completeRunning_takeover {g : Running → Running} {s : State} (h : ∀ r ∈ s.cmd.running, r.waits = [.takeover]) :
    (completeRunning waitsTakeover g s).hb = s.hb ∧ (completeRunning waitsTakeover g s).sec = s.sec := by
  rw [completeRunning]
  split
  · exact ⟨rfl, rfl⟩
  next r hr =>
    have hview (t : State) := commandView_completeCmd (g r) t
    rw [h r (List.mem_of_find?_eq_some hr)]
    exact ⟨(hb_of_commandView (hview _)).trans rfl, (sec_of_commandView (hview _)).trans rfl⟩

/-- A takeover's fifth step switches the pair and the bank (R573). -/
theorem takeoverU5_switches {s : State} (h : ∀ r ∈ s.cmd.running, r.waits = [.takeover]) :
    (takeoverU5 s).hb.activePair = 1 - s.hb.activePair ∧ (takeoverU5 s).sec.activeBank = 1 - s.sec.activeBank := by
  simp only [takeoverU5, msix_frame]
  constructor
  · rw [(commandView_completeRunning_takeover (by simpa using h)).1]; simp
  · rw [(commandView_completeRunning_takeover (by simpa using h)).2]; simp

end Sys2Proof.Machine

namespace Sys2Proof.Proofs

open Sys2Proof Sys2Proof.Machine

/-- Settles O29: each expiry by its instant, and each step of the takeover by its number. -/
theorem managementExpiriesAndTakeover : Obligations.ManagementExpiriesAndTakeover := by
  refine ⟨fun s => ⟨fun ev m hm hlate => ?mediated, fun h hlive hh hlate => ?lapse, fun h hearly => ?noLapse, fun r => rfl, fun c e hc hend => ?challenge, fun c e hc hend => ?noChallenge,
      fun u e hu hend => ?unlock, fun u e hu hend => ?noUnlock⟩,
    fun s hfw => ⟨fun d h2 hbad => ?imageBad, fun h2 hgood => ?imageGood, fun h3 hall => ?pause, fun h3 hall => ?wait, fun h4 => ?switch, fun hall => takeoverU5_switches hall, fun h6 => ?last⟩⟩
  case mediated => exact exec_eq_of rfl (mediatedTimeout_of_late hm hlate)
  case lapse =>
    refine exec_eq_of (t := lapseLease h s) rfl ?_
    simp [lapseLease, hlive, hh, hlate]
  case noLapse => exact exec_eq_of rfl (lapseLease_of_early hearly)
  case challenge => exact exec_eq_of rfl (by simp [challengeExpire, hc, hend, modSec])
  case noChallenge => exact exec_eq_of rfl (by simp [challengeExpire, hc, Nat.not_le.mpr hend])
  case unlock => exact exec_eq_of rfl (by simp [unlockExpire, hu, hend, modSec])
  case noUnlock => exact exec_eq_of rfl (by simp [unlockExpire, hu, Nat.not_le.mpr hend])
  case imageBad => exact exec_eq_of rfl (by simp [takeoverStep, hfw, h2, takeoverU2, hbad])
  case imageGood => exact exec_eq_of rfl (by simp [takeoverStep, hfw, h2, takeoverU2, hgood, modSec])
  case pause => exact exec_eq_of rfl (by simp only [takeoverStep, hfw, h3, takeoverU4, hall, modSec]; rfl)
  case wait => exact exec_eq_of rfl (by simp only [takeoverStep, hfw, h3, takeoverU4, hall]; rfl)
  case switch => exact exec_eq_of rfl (by simp [takeoverStep, hfw, h4])
  case last => exact exec_eq_of rfl (by simp [takeoverStep, hfw, h6, modSec])

end Sys2Proof.Proofs
end

section
/-! The steps of a start, port waves, quarantine retries, recovery mode and discovery (R561, R587 to R594, R606 to R610). -/

namespace Sys2Proof.Machine

theorem portWave_of_due {s : State} {d : Nat} (hboot : s.dev.st = .boot) (hruns : kRuns (kAdvance s) 10 = true) (hst : (kAdvance s).dev.st = .boot)
    (hturn : (kAdvance s).start.wave = d) (hdue : (kOf (kAdvance s) 10).began + 25000000 * d ≤ now (kAdvance s)) :
    portWave d s = waveAdvance ((rangeFrom (16 * d) 16).foldl (fun s p => wavePort p s) (modStart (fun x => { x with wave := d + 1 }) (requestDomain (128 + d) .on true (kAdvance s)).2)) := by
  simp only [portWave, hboot, hst, hruns, hturn, Nat.not_lt.mpr hdue, beq_self_eq_true, if_true]
  simp

theorem portWave_of_early {s : State} {d : Nat} (hboot : s.dev.st = .boot) (hearly : now (kAdvance s) < (kOf (kAdvance s) 10).began + 25000000 * d) :
    portWave d s = kAdvance s := by
  simp [portWave, hboot, hearly]

/-- A retry that is due counts its attempt and goes on as far as the port's eligibility lets it (R593). -/
theorem quarantineRetry_of_due {p : Nat} {s : State} (hsett : settRuns s = true) (hhib : s.dev.st ≠ .hibernate) (hk : kDone s 13 = true)
    (hq : (tget s.start.quar p).quarantined = true) (hidle : (tget s.start.quar p).trying = false)
    (hdue : max (tget s.start.quar p).nextAt s.start.readyAt ≤ now s) (hleft : (tget s.start.quar p).attempts < 15) :
    quarantineRetry p s =
      let t := stepOpen 0x20 p 0 (modStart (fun x => { x with quar := tset x.quar p { tget s.start.quar p with trying := true, attempts := (tget s.start.quar p).attempts + 1, nextAt := now s + 2000000000 }, waveEnd := tset x.waveEnd p (now s + 25000000) }) s)
      if portEligible t p then waveAdvance (portStep2 p t) else startFailed p t := by
  rw [quarantineRetry, if_neg (by simpa [hsett, hhib, hk, hq, Nat.not_le.mpr hleft] using hdue)]
  simp only [hidle, Bool.false_eq_true, if_false]

theorem quarantineRetry_of_spent {p : Nat} {s : State} (h : 15 ≤ (tget s.start.quar p).attempts) : quarantineRetry p s = s := by
  simp [quarantineRetry, h]

theorem quarantineRetry_of_early {p : Nat} {s : State} (h : now s < (tget s.start.quar p).nextAt) : quarantineRetry p s = s := by
  simp [quarantineRetry, h]

/-- A doorbell of slot 0 alone offers the first stage (R561). -/
theorem recoveryDoorbell_first {v : BitVec 32} {s : State} (hboot : s.dev.st = .boot) (hkind : s.start.kind = 4) (hmode : s.start.recovMode = 1)
    (h0 : v.getLsbD 0 = true) (h1 : v.getLsbD 1 = false) :
    recoveryDoorbell v s = if (imageFails s.fuses 1 (bar2Image s 0)).isNone
      then kAdvance (k2End (bar2Image s 0) (modStart (fun x => { x with recovMode := 2 }) (readLedger true true (kAdvance s)))) else s := by
  simp only [recoveryDoorbell, hboot, hkind, hmode, h0, h1]
  simp

/-- A doorbell of slot 1 alone offers the runtime (R561). -/
theorem recoveryDoorbell_runtime {v : BitVec 32} {s : State} (hboot : s.dev.st = .boot) (hkind : s.start.kind = 4) (hmode : s.start.recovMode = 2)
    (h0 : v.getLsbD 0 = false) (h1 : v.getLsbD 1 = true) (hk : kRuns s 5 = true) :
    recoveryDoorbell v s = if (imageFails s.fuses 2 (bar2Image s 0x200000)).isNone
      then kAdvance (kEnd 5 0 { s with sec := { s.sec with measRt := measure (bar2Image s 0x200000) } }) else s := by
  simp only [recoveryDoorbell, hboot, hkind, h0, h1, modSec]
  simp [hmode, hk]

end Sys2Proof.Machine

namespace Sys2Proof.Proofs

open Sys2Proof Sys2Proof.Machine

/-- Settles O31: a start's event by what is due, a retry by its instant and count, a doorbell by its slot. -/
theorem startSteps : Obligations.StartSteps := by
  refine ⟨fun s hboot => ⟨fun k e hr hready => ?ends, fun k e hnot => ?noEnd, fun d hr hst hturn hdue => ?wave, fun d hearly => ?noWave⟩,
    fun p s t hsett hhib hk hq ht => ⟨fun hidle hdue hleft hel => ?retry, fun hidle hdue hleft hel => ?retryFails, fun hspent => ?spent, fun hearly => ?early⟩,
    fun v s => ⟨fun hnot => ?outside, fun hboot hkind hmode h0 h1 hgood => ?first, fun d hboot hkind hmode h0 h1 hbad => ?firstBad,
      fun hboot hkind hmode h0 h1 hk hgood => ?runtime, fun d hboot hkind hmode h0 h1 hk hbad => ?runtimeBad⟩⟩
  case ends => exact exec_eq_of rfl (by simp [startStepDone, hboot, hr, hready])
  case noEnd =>
    refine exec_eq_of (t := startStepDone k.val e s) rfl ?_
    rcases hnot with h | h <;> simp [startStepDone, hboot, h]
  case wave => exact exec_eq_of rfl (portWave_of_due hboot hr hst hturn hdue)
  case noWave => exact exec_eq_of rfl (portWave_of_early hboot hearly)
  case retry =>
    subst ht
    exact exec_eq_of rfl ((quarantineRetry_of_due hsett hhib hk hq hidle hdue hleft).trans (if_pos hel))
  case retryFails =>
    subst ht
    exact exec_eq_of rfl ((quarantineRetry_of_due hsett hhib hk hq hidle hdue hleft).trans (if_neg (Bool.eq_false_iff.mp hel)))
  case spent => exact exec_eq_of rfl (quarantineRetry_of_spent hspent)
  case early => exact exec_eq_of rfl (quarantineRetry_of_early hearly)
  case outside =>
    refine exec_eq_of (t := recoveryDoorbell v s) rfl ?_
    rcases hnot with h | h <;> simp [recoveryDoorbell, h]
  case first => exact exec_eq_of rfl ((recoveryDoorbell_first hboot hkind hmode h0 h1).trans (if_pos (by rw [hgood]; rfl)))
  case firstBad => exact exec_eq_of rfl ((recoveryDoorbell_first hboot hkind hmode h0 h1).trans (if_neg (by rw [hbad]; exact Bool.false_ne_true)))
  case runtime => exact exec_eq_of rfl ((recoveryDoorbell_runtime hboot hkind hmode h0 h1 hk).trans (if_pos (by rw [hgood]; rfl)))
  case runtimeBad => exact exec_eq_of rfl ((recoveryDoorbell_runtime hboot hkind hmode h0 h1 hk).trans (if_neg (by rw [hbad]; exact Bool.false_ne_true)))

end Sys2Proof.Proofs

namespace Sys2Proof.Machine

/-- A discovery message that its port takes shows its round's number, and then acts (R606). -/
theorem discFrom_of_taken {n : Nat} {m : DiscMsg} {act : State → State} {s : State} (hport : discPort s n = true) (hruns : discRuns s = true) :
    discFrom n m act s = act { s with disc := { s.disc with highest := max s.disc.highest m.round } } := by
  simp [discFrom, hport, hruns, modDisc]

theorem discFrom_of_elsewhere {n : Nat} {m : DiscMsg} {act : State → State} {s : State} (hport : discPort s n = false) (hsett : settRuns s = true) :
    discFrom n m act s = bump .routeDisc n s := by
  simp [discFrom, hport, hsett]

/-- What a PROBE from the parent of a round above its own makes of the module (R609). -/
def joinedRound (lp : LpId) (m : DiscMsg) (late : Bool) (s : State) : State :=
  let ports := if late then [] else (probePorts s).filter (fun k => k != lp.val)
  forwardProbes ports { s with disc := { s.disc with round := m.round, inRound := true, gmSerial := m.gmSerial, roundStart := m.roundStart, depth := m.depth + 1, from_ := some lp, awaiting := ports, entries := [selfEntry s (m.depth + 1)], booting := late, ready := false, endedAt := none, children := [] } }

/-- What a PROBE does once its round's number is seen (R609). -/
def probeTaken (lp : LpId) (m : DiscMsg) (s : State) : State :=
  if m.round ≤ s.disc.round || s.ft.parent != some lp then
    sendDisc lp.val { subtype := 2, depth := s.disc.depth, round := m.round, gmSerial := m.gmSerial, roundStart := m.roundStart } s
  else joinedRound lp m (!kDone s 13 || decide (s.ft.mode = .boot)) s

/-- What READY does once its round's number is seen (R610). -/
def readyTaken (lp : LpId) (m : DiscMsg) (s : State) : State :=
  if s.disc.from_ != some lp || m.round != s.disc.round then s
  else s.disc.children.foldl (fun s n => sendDisc n { roundMsg s 3 with entries := m.entries } s)
    { s with disc := { s.disc with inRound := false, ready := true, readyRound := m.round, readyEntries := m.entries } }

/-- What a REPORT does once its round's number is seen (R608 to R610). -/
def reportTaken (n : Nat) (m : DiscMsg) (s : State) : State :=
  let d := s.disc
  if d.inRound && m.round == d.round && d.awaiting.contains n && decide (now s ≤ discDeadline s) then
    let s := if now s = discDeadline s then bump .discNear n s else s
    let s := modDisc (fun d => { d with awaiting := d.awaiting.filter (fun k => k != n), entries := if m.child then d.entries ++ m.entries else d.entries, children := if m.child then d.children ++ [n] else d.children, booting := d.booting || (m.child && m.booting) }) s
    if s.disc.awaiting.isEmpty then roundFinish s else s
  else if s.ft.gm && !d.inRound && m.entries.any (fun e => !d.readyEntries.any (fun x => x.serial == e.serial)) then modDisc (fun d => { d with newModule := true }) s
  else s

theorem report_eq (lp : LpId) (m : DiscMsg) (s : State) : report lp m s = discFrom lp.val m (reportTaken lp.val m) s := rfl
theorem probe_eq (lp : LpId) (m : DiscMsg) (s : State) : probe lp m s = discFrom lp.val m (probeTaken lp m) s := rfl
theorem ready_eq (lp : LpId) (m : DiscMsg) (s : State) : ready lp m s = discFrom lp.val m (readyTaken lp m) s := rfl

section
variable {lp : LpId} {m : DiscMsg} {s : State}

theorem discFrom_messages_elsewhere (hport : discPort s lp.val = false) (hsett : settRuns s = true) :
    probe lp m s = bump .routeDisc lp.val s ∧ report lp m s = bump .routeDisc lp.val s ∧ ready lp m s = bump .routeDisc lp.val s :=
  ⟨by rw [probe_eq, discFrom_of_elsewhere hport hsett], by rw [report_eq, discFrom_of_elsewhere hport hsett], by rw [ready_eq, discFrom_of_elsewhere hport hsett]⟩

/-- A REPORT of the round in hand from the last port awaited ends the round at this module (R609). -/
theorem reportTaken_of_last {n : Nat} (hin : s.disc.inRound = true) (hround : m.round = s.disc.round) (hlast : s.disc.awaiting = [n])
    (hearly : now s < discDeadline s) (hchild : m.child = true) :
    reportTaken n m s = roundFinish { s with disc := { s.disc with awaiting := [], entries := s.disc.entries ++ m.entries, children := s.disc.children ++ [n], booting := s.disc.booting || m.booting } } := by
  simp only [reportTaken, hin, hround, hlast, hchild, hearly.le, Nat.ne_of_lt hearly, modDisc]
  simp [hlast, hin]

end

end Sys2Proof.Machine

namespace Sys2Proof.Proofs

open Sys2Proof Sys2Proof.Machine

/-- Settles O32: a round's events by what is due, a message by its port, its round and its sender. -/
theorem discovery : Obligations.Discovery := by
  refine ⟨fun s hruns => ⟨fun t hgm hk hsince hheld hround => ?begins, fun hgm => ?none, fun hin hawait hdue => ?deadline, fun hearly => ?early⟩,
    fun lp m s hsett => ⟨fun hport => ?elsewhere,
      fun hport hruns hold => ?oldProbe, fun hport hruns hnew hpar hmode => ?bootProbe, fun u hport hruns hnew hpar hmode hk hu => ?passedProbe, fun hport hruns hnew hpar => ?strayProbe,
      fun hport hruns hin hround hlast hearly hchild => ?report, fun u hport hruns hfrom hround hu => ?ready, fun hport hruns hother => ?strayReady⟩⟩
  case begins =>
    refine exec_eq_of (t := roundStart s) rfl ?_
    simp only [roundStart, hruns, hgm, hk, hsince, hround, Option.getD_some, decide_eq_true hheld]
    simp [modDisc, hround]
  case none => exact exec_eq_of rfl (by simp [roundStart, hgm])
  case deadline =>
    refine exec_eq_of (t := discDeadlineEnd s) rfl ?_
    simp [discDeadlineEnd, hruns, hin, hawait, Nat.not_lt.mpr hdue, modDisc]
  case early => exact exec_eq_of rfl (by simp [discDeadlineEnd, hearly])
  case elsewhere =>
    obtain ⟨hprobe, hreport, hready⟩ := discFrom_messages_elsewhere (m := m) hport hsett
    exact ⟨exec_eq_of rfl hprobe, exec_eq_of rfl hreport, exec_eq_of rfl hready⟩
  case oldProbe =>
    refine exec_eq_of rfl ((probe_eq lp m s).trans ((discFrom_of_taken hport hruns).trans ?_))
    simp [probeTaken, hold]
  case bootProbe =>
    refine exec_eq_of rfl ((probe_eq lp m s).trans ((discFrom_of_taken hport hruns).trans ?_))
    simp only [probeTaken, hpar, hmode, Nat.not_le.mpr hnew]
    simp [joinedRound]
    rfl
  case passedProbe =>
    refine exec_eq_of rfl ((probe_eq lp m s).trans ((discFrom_of_taken hport hruns).trans ?_))
    rw [← hu]
    have hk' : kDone u 13 = true := by rw [hu]; exact hk
    have hpar' : u.ft.parent = some lp := by rw [hu]; exact hpar
    have hmode' : ¬ u.ft.mode = .boot := by rw [hu]; exact hmode
    have hnew' : ¬ m.round ≤ u.disc.round := by rw [hu]; exact Nat.not_le.mpr hnew
    simp only [probeTaken, hpar', hk', hmode', hnew']
    simp [joinedRound]
  case strayProbe =>
    refine exec_eq_of rfl ((probe_eq lp m s).trans ((discFrom_of_taken hport hruns).trans ?_))
    simp [probeTaken, hpar]
  case report =>
    refine exec_eq_of rfl ((report_eq lp m s).trans ((discFrom_of_taken hport hruns).trans ?_))
    exact reportTaken_of_last hin hround hlast hearly hchild
  case ready =>
    refine exec_eq_of rfl ((ready_eq lp m s).trans ((discFrom_of_taken hport hruns).trans ?_))
    subst hu
    simp [readyTaken, hfrom, hround]
  case strayReady =>
    refine exec_eq_of rfl ((ready_eq lp m s).trans ((discFrom_of_taken hport hruns).trans ?_))
    rcases hother with h | h <;> simp [readyTaken, h]

end Sys2Proof.Proofs
end

section
/-! Power failure, the steps of Hibernate, the supplies, and resets by command and by pin (R17, R20, R22, R413, R414, R656, R728). -/

namespace Sys2Proof.Machine

/-- A power failure in a running device that serves requests begins Hibernate at the boundary that is due (R414). -/
theorem powerFail_of_serving {s : State} (hst : s.dev.st = .recovery ∨ s.dev.st = .service ∨ s.dev.st = .drain) (hfw : fwRuns s = true) :
    powerFail s = hibernateH1 (epochBoundary s) := by
  rcases hst with h | h | h <;> simp [powerFail, h, hfw]

/-- A power failure before the device serves requests enters Off (R414). -/
theorem powerFail_of_starting {s : State} (hst : s.dev.st = .boot ∨ s.dev.st = .test) :
    powerFail s = modDev (fun d => { d with pfailOff := some (now s, s.dev.st) }) (enterOff { identity := 163, trigger := 2 } (markAbandoned s)) := by
  rcases hst with h | h <;> simp [powerFail, h]

theorem powerFail_of_stopped {s : State} (hst : s.dev.st = .off ∨ s.dev.st = .grave ∨ s.dev.st = .hibernate) : powerFail s = s := by
  rcases hst with h | h | h <;> simp [powerFail, h]

theorem exec_hibernate_of_held {s t : State} (hlow : s.hib.pfailLow = true) (hheld : s.hib.lowSince + 2000 ≤ now s) (ht : powerFail s = t) :
    exec .hibernate s = .next (settle t) := by
  have h : pfailHeld s = true := by simp [pfailHeld, hlow, hheld]
  exact exec_eq_of rfl ((if_pos h).trans ht)

theorem exec_hibernateStepDone {ts : List (LpId × FlushOutcome)} {s u : State} (h : hibernateStep (ts.map (fun t => (t.1.val, t.2))) s = u) :
    exec (.hibernateStepDone ts) s = .next (settle u) :=
  exec_eq_of rfl h

theorem hibernateStep_of_flowsGone {said : List (Nat × FlushOutcome)} {s : State} (hst : s.dev.st = .hibernate) (h2 : s.hib.step = 2)
    (hdone : flowsLeft s = false ∨ s.hib.t0 + 20000 ≤ now s) : hibernateStep said s = hibernateH3 s := by
  rcases hdone with h | h <;> simp [hibernateStep, hst, h2, h]

@[simp] theorem jWrite_fst (b : JBody) (s : State) : (jWrite b s).1 = s.journal.nextSeq := by
  simp only [jWrite]
  split <;> rfl

/-- The record that the primary takes is the record of both where the mirror took it too (R414). -/
theorem hibernateCommit_of_primary {s : State} (m : Bool) (hst : s.dev.st = .hibernate) (hstep : s.hib.step = 5) (hok : s.journal.primOk = true) (hset : s.journal.set_ = true) :
    hibernateCommit true m s = enterOff { identity := 224, trigger := 4 } (markHeld s.journal.nextSeq true (m && s.journal.mirrOk)
      (jWrite (.hibernate (bodyNow s s.hib.t0 s.hib.eF (if s.hib.allFlushed then s.hib.eF else s.hib.dAt0) s.hib.allFlushed (!(m && s.journal.mirrOk)) s.hib.outcomes)) s).2) := by
  simp only [hibernateCommit, hst, hstep, hok, hset, jWrite_fst]
  simp

theorem gatesLow_dev (s : State) : (gatesLow s).dev = s.dev := by
  refine foldl_keeps (fun s => s.dev) _ (fun s c => ?_) _ s
  simp [gateLow_frame]

/-- Off at once is Off, but for a device in Grave (R20). -/
theorem offAtOnce_st {s : State} (h : s.dev.st ≠ .grave) : (offAtOnce s).dev.st = .off := by
  simp only [offAtOnce, gatesLow_dev]
  split
  next hst =>
    rw [gatesLow_dev]
    simpa [h] using hst
  next => rfl

theorem offAtOnce_dev_of_grave {s : State} (h : s.dev.st = .grave) : (offAtOnce s).dev = s.dev := by
  simp [offAtOnce, gatesLow_dev, h]

/-- A clear of Grave after VIN12 has been gone for its second (R656). -/
theorem graveClear_of_gone {s : State} (hlow : s.pins.vin12Low = true) (hgone : s.pins.vinLowAt + 1000000000 ≤ now s) :
    graveClear s = let t := { s with grave := {}, pins := { s.pins with alertN := true }, therm := { s.therm with tripN := true } }
      if s.dev.st = .grave then { powerLost (gatesLow t) with dev := { st := .off } } else t := by
  simp [graveClear, hlow, hgone]

end Sys2Proof.Machine

namespace Sys2Proof.Proofs

open Sys2Proof Sys2Proof.Machine

/-- Settles O34: a power failure by the device's state, a step of Hibernate by its number, a supply by its level and its second. -/
theorem powerFailureAndSupplies : Obligations.PowerFailureAndSupplies := by
  refine ⟨fun s => ⟨fun hlow hheld hst hfw => ?pinServing, fun hlow hheld hst => ?pinStarting, fun hst hfw => ?serving, fun hst => ?stopped, fun hst => ?starting⟩,
    fun s hst => ⟨fun ts h2 hdone => ?flowsGone, fun ts h2 hleft hearly => ?flowsLeft, fun ts h3 hw => ?written, fun ts h3 hw => ?writing, fun ts h4 => ?answers,
      fun h5 => ?noRecord, fun p m hnot => ?notYet, fun m h5 hok hset => ?record⟩,
    fun s => ⟨fun hlow => ?falls, fun hlow => ?low, fun hlow hgone hst => ?clear, fun hlow hgone hst => ?clearGrave, fun hearly => ?early, fun hlow => ?returns, fun hlow => ?there,
      rfl, offAtOnce_st, offAtOnce_dev_of_grave⟩⟩
  case pinServing => exact exec_hibernate_of_held hlow hheld (powerFail_of_serving hst hfw)
  case pinStarting => exact exec_hibernate_of_held hlow hheld (powerFail_of_starting hst)
  case serving => exact exec_eq_of rfl (powerFail_of_serving hst hfw)
  case stopped => exact exec_eq_of rfl (powerFail_of_stopped hst)
  case starting => exact exec_eq_of rfl (powerFail_of_starting hst)
  case flowsGone =>
    exact exec_hibernateStepDone (hibernateStep_of_flowsGone hst h2 hdone)
  case flowsLeft => exact exec_hibernateStepDone (by simp [hibernateStep, hst, h2, hleft, hearly])
  case written => exact exec_hibernateStepDone (by simp [hibernateStep, hst, h3, hw])
  case writing => exact exec_hibernateStepDone (by simp [hibernateStep, hst, h3, hw])
  case answers => exact exec_hibernateStepDone (by simp [hibernateStep, hst, h4])
  case noRecord => exact exec_eq_of rfl (by simp [hibernateCommit, hst, h5])
  case notYet => exact exec_eq_of rfl (by simp [hibernateCommit, hst, hnot])
  case record => exact exec_eq_of rfl (hibernateCommit_of_primary m hst h5 hok hset)
  case falls => exact exec_eq_of rfl (by simp [undervoltage, hlow])
  case low => exact exec_eq_of rfl (by simp [undervoltage, hlow])
  case clear => exact exec_eq_of rfl ((graveClear_of_gone hlow hgone).trans (if_neg hst))
  case clearGrave => exact exec_eq_of rfl ((graveClear_of_gone hlow hgone).trans (if_pos hst))
  case early => exact exec_eq_of rfl (by simp [graveClear, hearly])
  case returns => exact exec_eq_of rfl (by simp [vin12Return, hlow])
  case there => exact exec_eq_of rfl (by simp [vin12Return, hlow])

end Sys2Proof.Proofs

namespace Sys2Proof.Machine

/-- A cold start from Off while VIN12 is there (R17). -/
theorem coldStart_of_off {s : State} (hst : s.dev.st = .off) (hvin : s.pins.vin12Low = false) :
    coldStart s = beginStart 1 { identity := 163, trigger := 8 } { countAnew { s with pins := { s.pins with porstN := true, vaon := true } } with pwr := { s.pwr with clks := aonClocks s } } := by
  have hclks : aonClocks (countAnew { s with pins := { s.pins with porstN := true, vaon := true } }) = aonClocks s := rfl
  have hpwr : (countAnew { s with pins := { s.pins with porstN := true, vaon := true } }).pwr = s.pwr := rfl
  rw [coldStart, coldBegin, if_neg (by simp [hst, hvin])]
  simp only [hclks, hpwr]

end Sys2Proof.Machine

namespace Sys2Proof.Proofs

open Sys2Proof Sys2Proof.Machine

/-- Settles O30: a reset or an Off by its instant and the device's state, a pin by the length of its pulse. -/
theorem resetsAndPower : Obligations.ResetsAndPower := by
  intro s
  refine ⟨fun t ht hdue hst => ?warm, fun t ht hdue hst => ?ignored, fun t ht hearly => ?early, fun t ht hdue hst => ?off, fun n hn => ?short, fun n hn => ?pulse,
    fun n hn hst => offAtOnce_st hst, fun hst hvin => exec_eq_of rfl (coldStart_of_off hst hvin), fun hst => ?running⟩
  case warm =>
    refine exec_eq_of (t := warmReset s) rfl ?_
    rcases hst with h | h | h | h <;> simp [warmReset, ht, h, Nat.not_lt.mpr hdue]
  case ignored => exact exec_eq_of rfl (by simp [warmReset, ht, hst, Nat.not_lt.mpr hdue, modStart])
  case early => exact exec_eq_of rfl (by simp [warmReset, ht, hearly])
  case off => exact exec_eq_of rfl (by simp [offEntry, ht, hst, hdue])
  case short => exact exec_eq_of rfl (by simp [porstLow, hn])
  case pulse => exact exec_eq_of rfl (by simp [porstLow, Nat.not_lt.mpr hn])
  case running => exact exec_eq_of rfl (by simp [coldStart, coldBegin, hst])

end Sys2Proof.Proofs
end

section
/-! Den lanes: headers, lock, loss, hunting and markers (R41 to R46, R97, R126). -/

namespace Sys2Proof.Machine

/-- What a Den lane's codeword counts, before its lock is looked at (R42, R43). -/
def codewordCounted (lane idx : Nat) (fixed : Option Nat) (s : State) : State :=
  countCodeword lane (.codeword idx fixed) (bump (if decodes fixed then .hdrValid else .hdrInvalid) lane s)

@[simp] theorem codewordCounted_net (lane idx : Nat) (fixed : Option Nat) (s : State) : (codewordCounted lane idx fixed s).net = s.net := by
  simp only [codewordCounted, countCodeword]
  split <;> simp

theorem codewordCounted_good {lane idx k : Nat} {s : State} (hk : k ≤ 15) :
    codewordCounted lane idx (some k) s = bumpC .fecSym lane 0 k {} (bump .hdrValid lane s) := by
  simp [codewordCounted, countCodeword, decodes, hk]

theorem codewordCounted_bad (lane idx : Nat) (s : State) :
    codewordCounted lane idx none s = bump .fecCw lane (bump .hdrInvalid lane s) := by
  simp [codewordCounted, countCodeword, decodes]

/-- A codeword on a powered Den lane: on a lane that is not locked it lengthens or restarts the row, on a locked one it slides the window of headers. -/
theorem takeHeaders_codeword {lane n idx : Nat} {fixed : Option Nat} {s : State} (hn : n = lpOfLane s lane) (hon : portOn s n = true) (hden : isDen s n = true)
    (hen : (lpOf s n).link ≠ .disabled) (hdl : (lpOf s n).dl ≠ .dl2) :
    takeHeaders lane [.codeword idx fixed] s =
      let u := codewordCounted lane idx fixed s
      let x := tget s.net.lanes lane
      if !x.locked then
        let k := if decodes fixed then x.streak + 1 else 0
        if k < 64 then modLane lane (fun x => { x with streak := k }) u else lockLane lane u
      else
        let v := badCodeword n (.codeword idx fixed) u
        let hs := (decodes fixed :: x.headers).take 64
        if (hs.filter (fun b => !b)).length ≥ 16 then unlockLane lane v else modLane lane (fun x => { x with headers := hs }) v := by
  have hnet := codewordCounted_net lane idx fixed s
  simp only [codewordCounted] at hnet
  subst hn
  simp only [takeHeaders, hon, List.foldl_cons, List.foldl_nil, takeHeader, headerValid, hden, if_true, hnet, codewordCounted]
  simp [hen, hdl]

/-- A codeword that does not decode, on a live Den link, enters the window and condemns its bytes; at the limit the link falls (R97, R126). -/
theorem badCodeword_of_live {n idx : Nat} {s : State} (hden : isDen s n = true) (hlive : linkLive s n = true) :
    badCodeword n (.codeword idx none) s =
      let l := now s :: slide (now s) (cfgOf s n).window (winOf s n).cw
      let v := modRx n (fun r => { r with bad := stillBad r.pos (r.bad ++ [condemnedBy (widthNow s n) idx]) }) (bump .uncorrCw n (modWin n (fun w => { w with cw := l }) s))
      if (cfgOf s n).cwLimit ≤ l.length then fall n 0 v else v := by
  have hw : widthNow (bump .uncorrCw n (modWin n (fun w => { w with cw := now s :: slide (now s) (cfgOf s n).window (winOf s n).cw }) s)) n = widthNow s n := by
    simp [widthNow, cfgOf, lpOf]
  simp only [badCodeword, decodes, hden, hlive, Option.any_none, hw]
  rfl

theorem lockLane_of_noHunt {lane : Nat} {s : State} (h : (lpOf s (lpOfLane s lane)).huntFrom = none) :
    lockLane lane s = modLane lane (fun x => { x with locked := true, streak := 0, headers := [], huntSince := none }) s := by
  simp [lockLane, h]

/-- A lane that loses its lock on a live Den link in DL0 hunts from now (R43). -/
theorem unlockLane_of_live {lane : Nat} {s : State} (hden : isDen s (lpOfLane s lane) = true) (hlive : linkLive s (lpOfLane s lane) = true) (hdl : (lpOf s (lpOfLane s lane)).dl = .dl0) :
    (tget (unlockLane lane s).net.lanes lane).locked = false ∧ (tget (unlockLane lane s).net.lanes lane).huntSince = some (now s) := by
  simp [unlockLane, hden, hlive, hdl]

/-- The markers leave one per lane, in the lanes' order (R45, R46). -/
theorem foldl_emit_marker (ks : List Nat) (s : State) :
    ks.foldl (fun s k => emit (.marker k (k % 8) (tget s.net.lanes k).txInv) s) s
      = { s with outbox := (ks.map (fun k => Out.marker k (k % 8) (tget s.net.lanes k).txInv)).reverse ++ s.outbox } := by
  induction ks generalizing s with
  | nil => rfl
  | cons k ks ih =>
    rw [List.foldl_cons, ih]
    simp [emit]

theorem sendMarkers_outbox (n : Nat) (s : State) :
    (sendMarkers n s).outbox = ((lanesInUse s n).map (fun k => Out.marker k (k % 8) (tget s.net.lanes k).txInv)).reverse ++ s.outbox := by
  simp [sendMarkers, foldl_emit_marker]

theorem sendMarkers_pos (n : Nat) (s : State) : (txOf (sendMarkers n s) n).pos = 0 := by
  simp [sendMarkers]

end Sys2Proof.Machine

namespace Sys2Proof.Proofs

open Sys2Proof Sys2Proof.Machine

/-- Settles O36: a header by the lane's lock and its row or window, a hunt and a marker by what is due. -/
theorem laneEvents : Obligations.LaneEvents := by
  intro lane s n hn hon hden hen hdl
  have hcw (i : Nat) (f : Option Nat) := takeHeaders_codeword (idx := i) (fixed := f) hn hon hden hen hdl
  refine ⟨fun i k hk hl hrow => ?lengthens, fun i k hk hl hrow hhunt => ?locks, fun i hl => ?restarts, fun i u hl hu h16 => ?loses, fun i u hl hu h16 => ?slides,
    fun i u v hlive hv hu => ?window, fun hlive hdl0 => ?hunts, fun t ht hlive hre hdue => ?relock, fun t ht hearly => ?noRelock, fun lp hden hon hdue => ?marker, fun lp hearly => ?noMarker,
    fun m => ⟨sendMarkers_outbox m s, sendMarkers_pos m s⟩⟩
  case lengthens =>
    refine exec_eq_of rfl ((hcw i (some k)).trans ?_)
    simp only [hl, codewordCounted_good hk]
    simp [decodes, hk, hrow]
  case locks =>
    refine exec_eq_of rfl ((hcw i (some k)).trans ?_)
    simp only [hl, codewordCounted_good hk]
    have hnet : (bumpC .fecSym lane.val 0 k {} (bump .hdrValid lane.val s)).net = s.net := by simp
    have hnone : (lpOf (bumpC .fecSym lane.val 0 k {} (bump .hdrValid lane.val s)) (lpOfLane (bumpC .fecSym lane.val 0 k {} (bump .hdrValid lane.val s)) lane.val)).huntFrom = none := by
      simp only [lpOf, lpOfLane, cfgOf, hnet]
      rw [hn] at hhunt
      exact hhunt
    simp only [decodes, Option.any_some, decide_eq_true hk, hrow, Bool.not_false, if_true, lockLane_of_noHunt hnone]
    rfl
  case restarts =>
    refine exec_eq_of rfl ((hcw i none).trans ?_)
    simp only [hl, codewordCounted_bad]
    simp [decodes]
  case loses =>
    subst hu
    refine exec_eq_of rfl ((hcw i none).trans ?_)
    simp only [hl, codewordCounted_bad]
    simp only [decodes, Option.any_none, ge_iff_le, if_pos h16]
    rfl
  case slides =>
    subst hu
    refine exec_eq_of rfl ((hcw i none).trans ?_)
    simp only [hl, codewordCounted_bad]
    simp only [decodes, Option.any_none, ge_iff_le, if_neg (Nat.not_le.mpr h16)]
    rfl
  case window =>
    have hnet : u.net = s.net := by rw [hu]; simp
    have hnow : now u = now s := by rw [hu]; simp
    have hwidth : widthNow u n = widthNow s n := by unfold widthNow cfgOf lpOf; rw [hnet]
    have hdenu : isDen u n = true := by simpa only [isDen, cfgOf, lpOf, hnet] using hden
    have hliveu : linkLive u n = true := by simpa only [linkLive, lpOf, hnet] using hlive
    have hcfg : cfgOf u n = cfgOf s n := by unfold cfgOf lpOf; rw [hnet]
    have hwin : winOf u n = winOf s n := by unfold winOf; rw [hnet]
    rw [badCodeword_of_live hdenu hliveu, hv, hwidth, hnow, hcfg, hwin]
    rfl
  case hunts =>
    subst hn
    exact unlockLane_of_live hden hlive hdl0
  case relock =>
    subst hn
    exact exec_eq_of rfl (by simp [relockTimeout, ht, hden, hlive, hre, hdue])
  case noRelock => exact exec_eq_of rfl (by simp [relockTimeout, ht, Nat.not_le.mpr hearly])
  case marker => exact exec_eq_of rfl (by simp [marker, hden, hon, hdue])
  case noMarker => exact exec_eq_of rfl (by simp [marker, Nat.not_le.mpr hearly])

end Sys2Proof.Proofs
end

section
/-! Initialisation of a Den link (R31, R46, R47, R109 to R112, R125). -/

namespace Sys2Proof.Machine

/-- Two changes that agree on the row in hand are one change. -/
theorem modInit_congr {n : Nat} {g g' : DenInit → DenInit} {s : State} (h : g (initOf s n) = g' (initOf s n)) : modInit n g s = modInit n g' s := by
  simp only [modInit, modNet, tmod]
  rw [show g (tget s.net.init n) = g' (tget s.net.init n) from h]

section
variable {n : Nat} {m : InitMsg} {s : State}

theorem init_events_of_notTraining (h : (lpOf s n).link ≠ .training) :
    hello n m s = s ∧ echo n m s = s ∧ doneMsg n m s = s ∧ initTimeout n s = s := by
  simp [hello, echo, doneMsg, initTimeout, h]

theorem denLinkUp_of_notTraining {marks : List (Option Nat)} {inv : BitVec 8} {k : Nat} (h : (lpOf s n).link ≠ .training) : denLinkUp n marks inv k s = s := by
  simp [denLinkUp, h]

/-- A HELLO of this version and width, of no resume on either side, counts in its row; past the eighth it is answered (R110). -/
theorem hello_of_fitting (hlink : (lpOf s n).link = .training) (hstep : (initOf s n).step ≠ 0) (hver : m.version = 1) (hwidth : m.width.toNat = widthNow s n)
    (hm : m.resume = false) (hi : (initOf s n).resume = false) :
    hello n m s =
      let t := modInit n (fun i => { i with hellos := i.hellos + 1, step := if i.hellos + 1 ≥ 8 then max i.step 2 else i.step, peer := m }) s
      if (initOf s n).hellos ≥ 8 then sendInit n { helloOf t n with subtype := 2, echoed := m.sendStamp, residence := 0 } t else t := by
  simp [hello, hlink, hstep, hver, hwidth, hm, hi]

theorem hello_of_mismatch (hlink : (lpOf s n).link = .training) (hstep : (initOf s n).step ≠ 0) (hbad : m.version ≠ 1 ∨ m.width.toNat ≠ widthNow s n) :
    hello n m s = initMismatch n s := by
  have hbad' : (m.version != 1 || m.width.toNat != widthNow s n) = true := by
    simpa only [Bool.or_eq_true, bne_iff_ne] using hbad
  simp only [hello, hbad', if_true]
  simp [hlink, hstep]

/-- The first ECHO gives the round trip, is answered with DONE, and ends the initialisation where the partner's DONE is there (R110, R125). -/
theorem echo_of_step2 {r : Nat} {t : State} (hlink : (lpOf s n).link = .training) (hstep : (initOf s n).step = 2) (hr : r = (ftCount s - m.echoed.toNat - m.residence.toNat) / 65536)
    (ht : t = modInit n (fun i => { i with step := 3 }) (if r > (if widthNow s n = 8 then 9400 else 19300) then raise { code := 0x0209, cls := .notice, block := n / 2, arg := r } (modTx n (fun t => { t with rtt := r }) s)
      else modTx n (fun t => { t with rtt := r }) s)) :
    echo n m s = if (initOf s n).gotDone then linkUp n (sendInit n { helloOf t n with subtype := 3 } t) else sendInit n { helloOf t n with subtype := 3 } t := by
  have hw : widthNow (modTx n (fun t => { t with rtt := r }) s) n = widthNow s n := rfl
  have hguard : ((lpOf s n).link != .training || (initOf s n).step ≠ 2) = false := by simp [hlink, hstep]
  subst ht
  rw [hr] at hw
  simp only [echo, hguard, hr, hw, beq_iff_eq]
  rfl

theorem doneMsg_of_step3 (hlink : (lpOf s n).link = .training) (hstep : (initOf s n).step = 3) :
    doneMsg n m s = linkUp n (modInit n (fun i => { i with gotDone := true }) s) := by
  simp [doneMsg, hlink, hstep]

theorem doneMsg_of_step2 (hlink : (lpOf s n).link = .training) (hstep : (initOf s n).step = 2) :
    doneMsg n m s = modInit n (fun i => { i with gotDone := true, peer := { i.peer with lp := m.lp } }) s := by
  simp [doneMsg, hlink, hstep]

theorem initTimeout_of_due (hlink : (lpOf s n).link = .training) (hstep : (initOf s n).step ≠ 0) (hdue : (initOf s n).began + 10000000 ≤ now s) :
    initTimeout n s = let t := modInit n (fun i => { i with step := 0, hellos := 0, gotDone := false, attempts := i.attempts + 1 }) s
      if 2 ≤ (initOf s n).attempts then fall n 2 t else t := by
  simp [initTimeout, hlink, hstep, Nat.not_lt.mpr hdue]

end

/-! The bring-up of the lanes. -/

theorem rxInv_foldl_setPolarity (ls : List Nat) (l : Nat) (s : State) :
    (tget (ls.foldl (fun s k => setPolarity k s) s).net.lanes l).rxInv = if l ∈ ls then bitOf (laneFlags s l) 1 else (tget s.net.lanes l).rxInv := by
  induction ls generalizing s with
  | nil => simp
  | cons k ls ih =>
    rw [List.foldl_cons, ih, show laneFlags (setPolarity k s) l = laneFlags s l from rfl]
    by_cases hk : l = k
    · subst hk
      simp [setPolarity]
    · have : (tget (setPolarity k s).net.lanes l).rxInv = (tget s.net.lanes l).rxInv := by
        rw [setPolarity, modLane_lanes, tget_tmod_ne _ _ _ _ hk]
      simp [this, hk]

/-- The lanes that a fold locks are locked after it. -/
theorem locked_foldl_modLane {g : Nat × Nat → LaneSt → LaneSt} {es : List (Nat × Nat)} (hg : ∀ e ∈ es, ∀ x, (g e x).locked = true) {l : Nat} {s : State}
    (h : l ∈ es.map Prod.fst ∨ (tget s.net.lanes l).locked = true) : (tget (es.foldl (fun s e => modLane e.1 (g e) s) s).net.lanes l).locked = true := by
  induction es generalizing s with
  | nil => simpa using h
  | cons e es ih =>
    refine ih (fun x hx => hg x (List.mem_cons_of_mem _ hx)) ?_
    by_cases hl : l = e.1
    · subst hl
      exact Or.inr (by simp [hg e List.mem_cons_self])
    · rcases h with h | h
      · exact Or.inl ((List.mem_cons.mp h).resolve_left hl)
      · exact Or.inr (by rw [modLane_lanes, tget_tmod_ne _ _ _ _ hl]; exact h)

/-- The lanes that arrive with the polarity that the table names and with a marker (R33, R47). -/
def lanesOk (marks : List (Option Nat)) (inv : BitVec 8) (lanes : List Nat) (s : State) (i : Nat) : Bool :=
  decide (i < lanes.length) && (marks.getD i none).isSome && inv.getLsbD i == (tget s.net.lanes (lanes.getD i 0)).rxInv

/-- All eight lanes of a port that asks for no width bring up its whole width (R47). -/
theorem lockedWidth_of_all {n : Nat} {ok : Nat → Bool} {s : State} (hlanes : (lanesOf s n).length = 8) (hwant : (initOf s n).want = 0) (hre : (initOf s n).retrain = 0)
    (hwidth : (lpOf s n).width4 = none) (hok : ∀ i, i < 8 → ok i = true) : lockedWidth s n ok = some none := by
  have hlow : ∀ k < 4, ok k = true := fun k hk => hok k (by omega)
  have hhigh : ∀ k < 4, ok (4 + k) = true := fun k hk => hok (4 + k) (by omega)
  simpa [lockedWidth, hlanes, hwant, hre, hwidth] using ⟨hlow, hhigh⟩

/-- Markers that carry their own lanes' numbers fit (R31, R46). -/
theorem marksFit_of_own {marks : List (Option Nat)} (h : ∀ i, i < 8 → marks.getD i none = some i) : marksFit 8 marks (lanePlaces 8 none) = true := by
  rw [marksFit, Bool.or_eq_true]
  refine Or.inl (List.all_eq_true.mpr (fun k hk => ?_))
  rw [h k (List.mem_range.mp hk)]
  simp

/-- What a bring-up of the lanes leaves before the transmitter runs (R58, R109). -/
def broughtUp (n : Nat) (marks : List (Option Nat)) (ok : Nat → Bool) (half : Option (Fin 2)) (l : LpSt) (lanes : List Nat) (s s0 : State) : State :=
  let degraded := half.isSome && l.width4.isNone && (initOf s n).want = 0
  let s := if (initOf s n).resume then s0 else takeNext n s0
  let s := modLp n (fun l => { l with width4 := half, huntFrom := none }) s
  let s := if (initOf s n).retrain = 5 then s else loadCoeffs n s
  let s := lanes.zipIdx.foldl (fun s e => modLane e.1 (fun x => { x with locked := ok e.2, num := (marks.getD e.2 none).getD 0, huntSince := none }) s) s
  let s := modRx n (fun r => { r with pos := 0, bad := [] }) s
  let s := if degraded then raise { code := 0x020D, cls := .degraded, block := n / 2, arg := n } s else s
  let t := now s
  modInit n (fun i => { i with step := 1, began := t, hellos := 0, gotDone := false, resume := decide (i.retrain ≥ 3) && !l.sinceUpDown }) s

/-- The bring-up of a port that may come up, in its parts. -/
theorem denLinkUp_of_ready {n k : Nat} {marks : List (Option Nat)} {inv : BitVec 8} {half : Option (Fin 2)} {s s0 : State} (hden : isDen s n = true) (hlink : (lpOf s n).link = .training)
    (hidle : (lpOf s n).idleUntil = none) (hstep : (initOf s n).step = 0) (hon : portOn s n = true) (htab : s.sec.tableOk = true) (hskew : k ≤ 80)
    (hs0 : s0 = (lanesOf s n).foldl (fun s k => setPolarity k s) s) (hwidth : lockedWidth s n (lanesOk marks inv (lanesOf s n) s0) = some half)
    (hfit : marksFit (lanesOf s n).length marks (lanePlaces (lanesOf s n).length half) = true) :
    denLinkUp n marks inv k s =
      let t := broughtUp n marks (lanesOk marks inv (lanesOf s n) s0) half (lpOf s n) (lanesOf s n) s s0
      sendInit n (helloOf t n) (startTx n t) := by
  have hguard : (!isDen s n || (lpOf s n).link != .training || (lpOf s n).idleUntil.isSome || (initOf s n).step ≠ 0 || !portOn s n || !s.sec.tableOk || decide (k > 80)) = false := by
    simp [hden, hlink, hidle, hstep, hon, htab, hskew]
  subst hs0
  unfold lanesOk at hwidth
  simp only [denLinkUp, hguard, hwidth, hfit]
  rfl

/-- What the initialisation and the time of a state are: a bring-up's preparation keeps both. -/
def initAndNow (s : State) : Tab DenInit × Nat := (s.net.init, now s)

theorem initAndNow_movePool (a b : Nat) (s : State) : initAndNow (movePool a b s) = initAndNow s := by
  rw [movePool]; split <;> rfl

theorem initAndNow_takeNext (n : Nat) (s : State) : initAndNow (takeNext n s) = initAndNow s := by
  have hset (m : Nat) (on : Bool) (s : State) : initAndNow (setPooled m on s) = initAndNow s := initAndNow_movePool _ _ _
  have hunpool : initAndNow (unpool n s) = initAndNow s := by
    rw [unpool]
    split
    · split
      · exact (hset _ _ _).trans (initAndNow_movePool _ _ _)
      · rfl
    · rfl
  rw [takeNext]
  split
  · split
    · exact hunpool
    · rfl
  · rfl

theorem initAndNow_foldl_modLane {α : Type} (lane : α → Nat) (g : State → α → LaneSt → LaneSt) (es : List α) (s : State) :
    initAndNow (es.foldl (fun s e => modLane (lane e) (g s e) s) s) = initAndNow s :=
  foldl_keeps initAndNow (fun s e => modLane (lane e) (g s e) s) (fun _ _ => rfl) es s

theorem initAndNow_loadCoeffs (n : Nat) (s : State) : initAndNow (loadCoeffs n s) = initAndNow s :=
  initAndNow_foldl_modLane id (fun v l x => { x with coeffs := laneCoeffs v n l (lidOf s n) }) (lanesOf s n) s

theorem initAndNow_foldl_setPolarity (ls : List Nat) (s : State) : initAndNow (ls.foldl (fun s k => setPolarity k s) s) = initAndNow s :=
  initAndNow_foldl_modLane id (fun s l x => { x with txInv := bitOf (laneFlags s l) 0, rxInv := bitOf (laneFlags s l) 1 }) ls s

/-- A bring-up at the whole width starts step I1 now, as no resume, with every lane locked. -/
theorem broughtUp_whole {n : Nat} {marks : List (Option Nat)} {ok : Nat → Bool} {l : LpSt} {lanes : List Nat} {s s0 : State} (hre : (initOf s n).retrain = 0)
    (hok : ∀ i, i < lanes.length → ok i = true) (hs0 : s0 = lanes.foldl (fun s k => setPolarity k s) s) :
    (initOf (broughtUp n marks ok none l lanes s s0) n).step = 1 ∧ (initOf (broughtUp n marks ok none l lanes s s0) n).began = now s
      ∧ (initOf (broughtUp n marks ok none l lanes s s0) n).resume = false ∧ (∀ k ∈ lanes, (tget (broughtUp n marks ok none l lanes s s0).net.lanes k).locked = true) := by
  have hs0 : initAndNow s0 = initAndNow s := by
    rw [hs0]
    exact initAndNow_foldl_setPolarity lanes s
  have hnext : initAndNow (if (initOf s n).resume then s0 else takeNext n s0) = initAndNow s := by
    split
    · exact hs0
    · exact (initAndNow_takeNext n s0).trans hs0
  unfold broughtUp
  generalize (if (initOf s n).resume then s0 else takeNext n s0) = u at hnext
  have hcoeffs : initAndNow (loadCoeffs n (modLp n (fun l => { l with width4 := none, huntFrom := none }) u)) = initAndNow s :=
    (initAndNow_loadCoeffs _ _).trans hnext
  have hre5 : ¬ (initOf (modLp n (fun l => { l with width4 := none, huntFrom := none }) u) n).retrain = 5 := by
    have hinit : u.net.init = s.net.init := congrArg Prod.fst hnext
    have : initOf u n = initOf s n := by rw [initOf, hinit]; rfl
    simp [this, hre]
  simp only [if_neg hre5, Option.isSome_none, Bool.false_and, Bool.false_eq_true, if_false]
  generalize loadCoeffs n (modLp n (fun l => { l with width4 := none, huntFrom := none }) u) = v at hcoeffs
  have hv : initAndNow (lanes.zipIdx.foldl (fun s e => modLane e.1 (fun x => { x with locked := ok e.2, num := (marks.getD e.2 none).getD 0, huntSince := none }) s) v) = initAndNow s :=
    (initAndNow_foldl_modLane Prod.fst (fun _ e x => { x with locked := ok e.2, num := (marks.getD e.2 none).getD 0, huntSince := none }) lanes.zipIdx v).trans hcoeffs
  have hlocked (k : Nat) (hk : k ∈ lanes) : (tget (lanes.zipIdx.foldl (fun s e => modLane e.1 (fun x => { x with locked := ok e.2, num := (marks.getD e.2 none).getD 0, huntSince := none }) s) v).net.lanes k).locked = true := by
    refine locked_foldl_modLane (g := fun e x => { x with locked := ok e.2, num := (marks.getD e.2 none).getD 0, huntSince := none }) (fun e he x => ?_) (Or.inl ?_)
    · exact hok e.2 (by simpa using (List.mem_zipIdx he).2.1)
    · simpa using hk
  generalize lanes.zipIdx.foldl (fun s e => modLane e.1 (fun x => { x with locked := ok e.2, num := (marks.getD e.2 none).getD 0, huntSince := none }) s) v = w at hv hlocked
  have hinit : initOf w n = initOf s n := congrArg (tget · n) (congrArg Prod.fst hv)
  have hnow : now w = now s := congrArg Prod.snd hv
  simp [hinit, hnow, hre]
  exact hlocked

end Sys2Proof.Machine

namespace Sys2Proof.Proofs

open Sys2Proof Sys2Proof.Machine

/-- Settles O37: each message by the step and the row of HELLOs, a bring-up by its lanes. -/
theorem denInitialisation : Obligations.DenInitialisation := by
  refine ⟨fun lp m s hlink => ?notTraining,
    fun lp m s hlink => ⟨fun hstep hv hw hm hi hrow => ?counted, fun hstep hv hw hm hi hrow => ?eighth, fun t hstep hv hw hm hi hrow ht => ?answered, fun hstep hbad => ?mismatch,
      fun r t hr ht hstep hdone hshort => ?echo, fun r t hr ht hstep hdone hlong => ?longEcho, fun r t hr ht hstep hdone hshort => ?lastEcho, fun hstep => ?done, fun hstep => ?early,
      fun hstep hdue hleft => ?again, fun hstep hdue hlast => ?quarantine⟩,
    fun lp marks inv k s => ⟨fun hskew => ?skewed, fun hden hlink hidle hwidth hstep hre hwant hon htab hlanes hskew heven hmarks => ?up⟩⟩
  case notTraining =>
    obtain ⟨hhello, hecho, hdone, htimeout⟩ := init_events_of_notTraining (m := m) hlink
    exact ⟨exec_eq_of rfl hhello, exec_eq_of rfl hecho, exec_eq_of rfl hdone, exec_eq_of rfl htimeout, fun marks inv k => exec_eq_of rfl (denLinkUp_of_notTraining hlink)⟩
  case counted =>
    refine exec_eq_of rfl ((hello_of_fitting hlink hstep hv hw hm hi).trans ((if_neg (by omega)).trans (modInit_congr ?_)))
    rw [if_neg (by omega)]
  case eighth =>
    refine exec_eq_of rfl ((hello_of_fitting hlink (by omega) hv hw hm hi).trans ((if_neg (by omega)).trans (modInit_congr ?_)))
    simp [hrow, hstep]
  case answered =>
    refine exec_eq_of rfl ((hello_of_fitting hlink (by omega) hv hw hm hi).trans ((if_pos hrow).trans ?_))
    have ht' : t = modInit lp.val (fun i => { i with hellos := i.hellos + 1, step := if i.hellos + 1 ≥ 8 then max i.step 2 else i.step, peer := m }) s := by
      refine ht.trans (modInit_congr ?_)
      rw [if_pos (by omega), max_eq_left hstep]
    rw [ht']
  case mismatch => exact exec_eq_of rfl (hello_of_mismatch hlink hstep hbad)
  case echo =>
    refine exec_eq_of rfl ((echo_of_step2 hlink hstep hr (ht.trans ?_)).trans (if_neg (by simp [hdone])))
    rw [if_neg (Nat.not_lt.mpr hshort)]
  case longEcho =>
    refine exec_eq_of rfl ((echo_of_step2 hlink hstep hr (ht.trans ?_)).trans (if_neg (by simp [hdone])))
    rw [if_pos hlong]
  case lastEcho =>
    refine exec_eq_of rfl ((echo_of_step2 hlink hstep hr (ht.trans ?_)).trans (if_pos hdone))
    rw [if_neg (Nat.not_lt.mpr hshort)]
  case done => exact exec_eq_of rfl (doneMsg_of_step3 hlink hstep)
  case early => exact exec_eq_of rfl (doneMsg_of_step2 hlink hstep)
  case again => exact exec_eq_of rfl ((initTimeout_of_due hlink hstep hdue).trans (if_neg (Nat.not_le.mpr hleft)))
  case quarantine => exact exec_eq_of rfl ((initTimeout_of_due hlink hstep hdue).trans (if_pos hlast))
  case skewed => exact exec_eq_of rfl (by simp [denLinkUp, hskew])
  case up =>
    have hlane : ∀ i, i < 8 → lanesOk marks inv (lanesOf s lp.val) ((lanesOf s lp.val).foldl (fun s k => setPolarity k s) s) i = true := by
      intro i hi
      obtain ⟨hmark, hpol⟩ := hmarks i hi
      have hmem : (lanesOf s lp.val).getD i 0 ∈ lanesOf s lp.val := by
        rw [List.getD_eq_getElem _ _ (by omega)]
        exact List.getElem_mem _
      rw [lanesOk, rxInv_foldl_setPolarity, if_pos hmem, hpol, hmark]
      simp [hlanes, hi]
    have hwidth8 := lockedWidth_of_all hlanes hwant hre hwidth hlane
    have hfit : marksFit (lanesOf s lp.val).length marks (lanePlaces (lanesOf s lp.val).length none) = true := by
      rw [hlanes]
      exact marksFit_of_own (fun i hi => (hmarks i hi).1)
    exact ⟨_, exec_eq_of rfl (denLinkUp_of_ready hden hlink hidle hstep hon htab hskew rfl hwidth8 hfit),
      broughtUp_whole hre (fun i hi => hlane i (by omega)) rfl⟩

end Sys2Proof.Proofs
end

section
/-! Flits of a Den port, sent and received (R93 to R97, R116 to R121). -/

namespace Sys2Proof.Machine

theorem link_ne_training_of_live {s : State} {n : Nat} (h : linkLive s n = true) : (lpOf s n).link ≠ .training := by
  intro ht
  simp [linkLive, ht] at h

section
variable {n : Nat} {s : State}

theorem flitTransmit_of_live (hden : isDen s n = true) (hon : portOn s n = true) (hdl : (lpOf s n).dl = .dl0) (hidle : (lpOf s n).idleUntil = none) (hlive : linkLive s n = true) :
    flitTransmit n s = tryDl1 n (nextFlit n s) := by
  simp [flitTransmit, hden, hon, hdl, hidle, hlive, link_ne_training_of_live hlive]

theorem nextFlit_of_retx {x : RepSlot} (h : nextRetx (txOf s n) = some x) :
    nextFlit n s = sendFlit n (if x.ctrl then 2 else 1) x.seq true x.payload (modTx n (fun y => { y with retx := y.retx.erase x.seq }) s) := by
  simp only [nextFlit, h]

theorem nextFlit_of_time {m : TimeMsg} {r : List TimeMsg} (hx : nextRetx (txOf s n) = none) (ht : (txOf s n).times = m :: r) :
    nextFlit n s = sendFlit n 4 (txOf s n).next false (timeBody { m with sendTime := stamp64 s }) (modTx n (fun y => { y with times := r, retx := [] }) s) := by
  simp only [nextFlit, hx, ht]

theorem nextFlit_of_full (hx : nextRetx (txOf s n) = none) (ht : (txOf s n).times = []) (hfull : 4096 ≤ (txOf s n).replay.length) :
    nextFlit n s = sendFlit n 0 (txOf s n).next false [] s := by
  simp only [nextFlit, hx, ht, ge_iff_le, if_pos hfull]

theorem nextFlit_of_ctrl {m : CtrlMsg} {r : List CtrlMsg} (hx : nextRetx (txOf s n) = none) (ht : (txOf s n).times = []) (hroom : (txOf s n).replay.length < 4096) (hc : (txOf s n).ctrls = m :: r) :
    nextFlit n s = ctrlSent n m (sendNew n true (ctrlBody m) {} (modTx n (fun y => { y with ctrls := r }) s)) := by
  simp only [nextFlit, hx, ht, ge_iff_le, if_neg (Nat.not_le.mpr hroom), hc]

theorem nextFlit_of_data (hx : nextRetx (txOf s n) = none) (ht : (txOf s n).times = []) (hroom : (txOf s n).replay.length < 4096) (hc : (txOf s n).ctrls = []) :
    nextFlit n s = if lpUp s n && !dataBarred s n then (sendData n s).getD (sendFlit n 0 (txOf s n).next false [] s) else sendFlit n 0 (txOf s n).next false [] s := by
  simp only [nextFlit, hx, ht, ge_iff_le, if_neg (Nat.not_le.mpr hroom), hc]

theorem sendMarkers_net (n : Nat) (s : State) : (sendMarkers n s).net = { s.net with tx := tmod s.net.tx n (fun t => { t with pos := 0 }) } := by
  rw [sendMarkers, foldl_emit_marker]; rfl

/-- What leaves is the flit, byte k on the lane whose number is k modulo the width (R96). -/
theorem putFlit_outbox (n : Nat) (p : Bytes) (s : State) :
    (putFlit n p s).outbox.head? = some (.flit n ((lanesInUse s n).map (fun k => (k, stripe (widthNow s n) (k % widthNow s n) p)))) := by
  have hlps : ∀ t : State, t.net.lps = s.net.lps → lanesInUse t n = lanesInUse s n := by
    intro t h
    unfold lanesInUse lanesOf cfgOf lpOf
    rw [h]
  have hstart : (startTx n s).net.lps = s.net.lps := by
    rw [startTx]
    split
    · rfl
    · rw [sendMarkers_net]; rfl
  simp only [putFlit, emit_frame, List.head?_cons]
  rw [hlps]
  simp only [bump_frame, modTx_frame]
  split
  · rw [sendMarkers_net]; exact hstart
  · exact hstart

theorem sendFlit_outbox (n ty q : Nat) (rpl : Bool) (p : Bytes) (s : State) :
    (sendFlit n ty q rpl p s).outbox.head? = some (.flit n ((lanesInUse s n).map (fun k => (k, stripe (widthNow s n) (k % widthNow s n) (flitBytes ty q (rxOf s n).ack (snakOf (rxOf s n)) rpl p))))) := by
  rw [sendFlit, putFlit_outbox]
  cases rpl with
  | false => rfl
  | true =>
    have hnet : (modTx n (fun t => { t with ackSent := (rxOf s n).ack }) (bump .retx n s)).net.lps = s.net.lps := by simp
    have hl : lanesInUse (modTx n (fun t => { t with ackSent := (rxOf s n).ack }) (bump .retx n s)) n = lanesInUse s n := by
      unfold lanesInUse lanesOf cfgOf lpOf
      rw [hnet]
    have hw : widthNow (modTx n (fun t => { t with ackSent := (rxOf s n).ack }) (bump .retx n s)) n = widthNow s n := by
      unfold widthNow cfgOf lpOf
      rw [hnet]
    simp only [if_true, hl, hw]

/-- A flit that a powered port in DL0 takes is counted to its place, and then read (R97, R120). -/
theorem flitReceive_of_taken {lanes : List Bytes} {u : State} (hden : isDen s n = true) (hlink : linkLive s n = true ∨ (lpOf s n).link = .training) (hidle : (lpOf s n).idleUntil = none) (hon : portOn s n = true)
    (hdl : (lpOf s n).dl = .dl0) (hl1 : (lpOf s n).l1 = false) (hu : u = (countFlit n s).2) :
    flitReceive n lanes s = if (countFlit n s).1 then badFlit n true (bump .condemned n u)
      else if (crc64 ((flitFrom s n lanes).take 248)).toNat ≠ fieldAt (flitFrom s n lanes) 248 8 then badFlit n false u else goodFlit n (flitFrom s n lanes) u := by
  have hwake : wakeDl n s = s := by simp [wakeDl, hl1, hdl]
  subst hu
  rcases hlink with h | h <;> simp [flitReceive, hden, h, hidle, hon, hdl, hwake]

theorem countFlit_link : (lpOf (countFlit n s).2 n).link = (lpOf s n).link := rfl

end

/-- What a flit of a known type does on a live link before its ACK and SNAK are taken (R120, R121). -/
def flitTaken (n : Nat) (p : Bytes) (s : State) : State :=
  match bitsOf (fieldAt p 0 8) 48 4 with
  | 0 => noteSeq n (bitsOf (fieldAt p 0 8) 0 16) s
  | 4 => timeIn n (timeFrom ((p.drop 8).take 240)) (noteSeq n (bitsOf (fieldAt p 0 8) 0 16) s)
  | _ => sequenced n { seq := bitsOf (fieldAt p 0 8) 0 16, ctrl := decide (bitsOf (fieldAt p 0 8) 48 4 = 2), payload := (p.drop 8).take 240 } s

theorem goodFlit_of_live {n : Nat} {p : Bytes} {s : State} (hlink : (lpOf s n).link ≠ .training) (hty : bitsOf (fieldAt p 0 8) 48 4 < 5) (h3 : bitsOf (fieldAt p 0 8) 48 4 ≠ 3) :
    goodFlit n p s = tryDl1 n (takeAck n (bitsOf (fieldAt p 0 8) 16 16) (bitsOf (fieldAt p 0 8) 32 16) (flitTaken n p (bump .flitsRecv n s))) := by
  have hlink' : ((lpOf (bump .flitsRecv n s) n).link == .training) = false := by
    simp only [lpOf, bump_frame]
    exact beq_eq_false_iff_ne.mpr hlink
  simp only [goodFlit, ge_iff_le, if_neg (Nat.not_le.mpr hty), if_neg h3, hlink', Bool.false_eq_true, if_false]
  rfl

theorem goodFlit_of_reserved {n : Nat} {p : Bytes} {s : State} (hty : 5 ≤ bitsOf (fieldAt p 0 8) 48 4) : goodFlit n p s = protoError n (bump .flitsRecv n s) := by
  simp only [goodFlit, ge_iff_le, if_pos hty]

theorem goodFlit_of_init {n : Nat} {p : Bytes} {s : State} (hlink : (lpOf s n).link = .training) (hty : bitsOf (fieldAt p 0 8) 48 4 = 3) :
    goodFlit n p s = initIn n (initFrom ((p.drop 8).take 240)) (bump .flitsRecv n s) := by
  have hlink' : ((lpOf (bump .flitsRecv n s) n).link == .training) = true := by
    simp only [lpOf, bump_frame]
    exact beq_iff_eq.mpr hlink
  simp only [goodFlit, hty, hlink']
  rfl

end Sys2Proof.Machine

namespace Sys2Proof.Proofs

open Sys2Proof Sys2Proof.Machine

/-- Settles O38: what is sent by what is there to send, what is received by its check and its type. -/
theorem flitTransmissionAndReception : Obligations.FlitTransmissionAndReception := by
  refine ⟨fun lp s hden => ⟨fun hoff => ?off, fun hdl => ?asleep, fun t hidle => ?idle, fun hon hdl hidle hlink => ?training, fun hon hdl hidle hlive => ?live, fun n ty q rpl p => sendFlit_outbox n ty q rpl p s⟩,
    fun lp d r s u p hden hidle hon hp hu => ⟨fun hdl => ?dl2, fun hlive hdl hl1 => ?received, fun hlink hdl hl1 hok hcrc hty => ?init, fun hdl hl1 hexit => ?wakes⟩⟩
  case off => exact exec_eq_of rfl (by simp [flitTransmit, hoff])
  case asleep => exact exec_eq_of rfl (by simp [flitTransmit, hdl])
  case idle => exact exec_eq_of rfl (by simp [flitTransmit, hidle])
  case training =>
    refine ⟨fun hstep => exec_eq_of (t := flitTransmit lp.val s) rfl ?_, fun hstep => exec_eq_of rfl (by simp [flitTransmit, hden, hon, hdl, hidle, hlink, hstep])⟩
    rcases hstep with h | h <;> simp [flitTransmit, hden, hon, hdl, hidle, hlink, h]
  case live =>
    have hsend := flitTransmit_of_live hden hon hdl hidle hlive
    refine ⟨fun x hx => ?_, fun m r hx ht => ?_, fun m r hx ht hroom hc => ?_, fun u hx ht hroom hc hup hbar hdata => ?_, fun hx ht hroom hc hno => ?_, fun hx ht hfull => ?_⟩
    · exact exec_eq_of rfl (hsend.trans (by rw [nextFlit_of_retx hx]))
    · exact exec_eq_of rfl (hsend.trans (by rw [nextFlit_of_time hx ht]))
    · exact exec_eq_of rfl (hsend.trans (by rw [nextFlit_of_ctrl hx ht hroom hc]))
    · exact exec_eq_of rfl (hsend.trans (by simp [nextFlit_of_data hx ht hroom hc, hup, hbar, hdata]))
    · refine exec_eq_of rfl (hsend.trans ?_)
      rw [nextFlit_of_data hx ht hroom hc]
      rcases hno with h | h | h <;> simp [h]
    · exact exec_eq_of rfl (hsend.trans (by rw [nextFlit_of_full hx ht hfull]))
  case dl2 => exact exec_eq_of rfl (by simp [flitReceive, hdl])
  case received =>
    have hrecv := flitReceive_of_taken (lanes := d :: r) hden (Or.inl hlive) hidle hon hdl hl1 hu
    rw [← hp] at hrecv
    have hlink : (lpOf u lp.val).link ≠ .training := by rw [hu, countFlit_link]; exact link_ne_training_of_live hlive
    have hgood (hok : (countFlit lp.val s).1 = false) (hcrc : (crc64 (p.take 248)).toNat = fieldAt p 248 8) : flitReceive lp.val (d :: r) s = goodFlit lp.val p u :=
      hrecv.trans ((if_neg (by simp [hok])).trans (if_neg (not_not.mpr hcrc)))
    refine ⟨fun hbad => ?_, fun hok hcrc => ?_, fun hok hcrc hty => ?_, fun hok hcrc hty => ?_, fun hok hcrc hty => ?_, fun ty hok hcrc hty hdata => ?_⟩
    · exact exec_eq_of rfl (hrecv.trans (if_pos hbad))
    · exact exec_eq_of rfl (hrecv.trans ((if_neg (by simp [hok])).trans (if_pos hcrc)))
    · exact exec_eq_of rfl ((hgood hok hcrc).trans (goodFlit_of_reserved hty))
    · exact exec_eq_of rfl ((hgood hok hcrc).trans ((goodFlit_of_live hlink (by omega) (by omega)).trans (by simp only [flitTaken, hty])))
    · exact exec_eq_of rfl ((hgood hok hcrc).trans ((goodFlit_of_live hlink (by omega) (by omega)).trans (by simp only [flitTaken, hty])))
    · refine exec_eq_of rfl ((hgood hok hcrc).trans ((goodFlit_of_live hlink (by omega) (by omega)).trans ?_))
      rcases hdata with h | h <;> subst h <;> simp only [flitTaken, hty]
  case init =>
    have hlink' : (lpOf u lp.val).link = .training := by rw [hu, countFlit_link]; exact hlink
    have hrecv := flitReceive_of_taken (lanes := d :: r) hden (Or.inr hlink) hidle hon hdl hl1 hu
    rw [← hp] at hrecv
    exact exec_eq_of rfl (hrecv.trans ((if_neg (by simp [hok])).trans ((if_neg (not_not.mpr hcrc)).trans (goodFlit_of_init hlink' hty))))
  case wakes => simp [wakeDl, hl1, hdl, hexit]

end Sys2Proof.Proofs
end

section
/-! Timers and power states of a Den link, twins and retrains (R78 to R83, R122, R126, R128, R132, R139 to R153). -/

namespace Sys2Proof.Machine

section
variable {n : Nat} {s : State}

theorem isDen_modLp_of_cfg {g : LpSt → LpSt} (hg : ∀ l, (g l).cfg = l.cfg) (k : Nat) : isDen (modLp k g s) n = isDen s n := by
  have hcfg : cfgOf (modLp k g s) n = cfgOf s n := by
    by_cases h : n = k
    · subst h
      rw [cfgOf, modLp_lpOf_self, hg]; rfl
    · rw [cfgOf, modLp_lpOf_ne _ _ _ _ h]; rfl
  rw [isDen, hcfg]; rfl

/-- Electrical idle ends at its time (R128). -/
theorem idleEnd_of_due {t : Nat} (hidle : (lpOf s n).idleUntil = some t) (hdue : t ≤ now s) :
    idleEnd n s = let u := modLp n (fun l => { l with idleUntil := none }) s
      if isDen s n && (lpOf s n).link == .training && portOn s n then startTx n u else u := by
  have hden : isDen (modLp n (fun l => { l with idleUntil := none }) s) n = isDen s n := isDen_modLp_of_cfg (g := fun l => { l with idleUntil := none }) (fun _ => rfl) n
  simp only [idleEnd, hidle, if_neg (Nat.not_lt.mpr hdue), hden, modLp_lpOf_self]
  rfl

theorem linkDown_of_den (hlive : linkLive s n = true) (hcxl : isCxl s n = false)
    (hlimit : (cfgOf s n).crcLimit ≤ (slide (now s) (cfgOf s n).window (winOf s n).crc).length ∨ (cfgOf s n).protoLimit ≤ (slide (now s) (cfgOf s n).window (winOf s n).proto).length) :
    linkDown n s = fall n 0 s := by
  rcases hlimit with h | h <;> simp [linkDown, hlive, hcxl, h]

/-- The partner's request for DL1 on a link that is up and awake (R79). -/
theorem dl1Req_of_awake (hden : isDen s n = true) (hup : (lpOf s n).link = .up) (hdl : (lpOf s n).dl = .dl0) :
    dl1Req n s = if (lpOf s n).dlReq = 1 then agreeDl1 n s
      else if (lpOf s n).dlReq ≠ 0 || (lpOf s n).dl1Barred || !nothingQueued s n || (txOf s n).next != (txOf s n).unacked || !(txOf s n).ctrls.isEmpty
        then sendCtrl n { subtype := 11, subject := BitVec.ofNat 8 n } s
        else sendCtrl n { subtype := 10, subject := BitVec.ofNat 8 n } s := by
  simp only [dl1Req, hden, hup, hdl]
  rfl

/-- The lanes of a port as its exit leaves them: one without lock hunts (R83). -/
def lanesLooked (n : Nat) (s : State) : State :=
  (lanesOf s n).foldl (fun s k => modLane k (fun x => if !x.locked && x.huntSince.isNone then { x with huntSince := some (now s) } else x) s) s

/-- A change that keeps each lane's lock keeps it over a fold. -/
theorem locked_foldl_kept {g : State → LaneSt → LaneSt} (hg : ∀ s x, (g s x).locked = x.locked) (ks : List Nat) (l : Nat) (s : State) :
    (tget (ks.foldl (fun s k => modLane k (g s) s) s).net.lanes l).locked = (tget s.net.lanes l).locked := by
  refine foldl_keeps (fun s => (tget s.net.lanes l).locked) (fun s k => modLane k (g s) s) (fun s k => ?_) ks s
  by_cases hl : l = k
  · subst hl
    simp [hg]
  · simp only [modLane_lanes, tget_tmod_ne _ _ _ _ hl]

theorem lanesLooked_locked (l : Nat) : (tget (lanesLooked n s).net.lanes l).locked = (tget s.net.lanes l).locked :=
  locked_foldl_kept (g := fun s x => if !x.locked && x.huntSince.isNone then { x with huntSince := some (now s) } else x) (fun s x => by split <;> rfl) _ l s

theorem lanesLooked_keeps : (lanesLooked n s).net.lps = s.net.lps ∧ now (lanesLooked n s) = now s :=
  ⟨foldl_keeps (fun s => s.net.lps) (fun s k => modLane k (fun x => if !x.locked && x.huntSince.isNone then { x with huntSince := some (now s) } else x) s) (fun _ _ => rfl) _ s,
    foldl_keeps (fun s => now s) (fun s k => modLane k (fun x => if !x.locked && x.huntSince.isNone then { x with huntSince := some (now s) } else x) s) (fun _ _ => rfl) _ s⟩

/-- An exit from DL1 whose lanes are all locked ends in DL0 (R83). -/
theorem dlExitDone_of_locked {t : Nat} (hexit : (lpOf s n).dlExit = some t) (hdue : t ≤ now s) (hdl : (lpOf s n).dl = .dl1) (hreq : (lpOf s n).dlReq = 0)
    (hlocked : ∀ k ∈ lanesOf s n, (tget s.net.lanes k).locked = true) :
    dlExitDone n s = portPins (n / 2) (startTx n (modLp n (fun l => { l with dl := .dl0, dlExit := none }) (modLp n (fun l => { l with lastFlit := now s, huntFrom := none }) (lanesLooked n s)))) := by
  obtain ⟨hlps, hnow⟩ := lanesLooked_keeps (n := n) (s := s)
  have hlanes : lanesOf (lanesLooked n s) n = lanesOf s n := by
    unfold lanesOf cfgOf lpOf
    rw [hlps]
  have hhunt : (lanesOf s n).any (fun k => !(tget (lanesLooked n s).net.lanes k).locked) = false := by
    refine List.any_eq_false.mpr (fun k hk => ?_)
    rw [lanesLooked_locked, hlocked k hk]
    decide
  simp only [lanesLooked] at hlanes hhunt hnow
  simp only [dlExitDone, hexit, hdl, hreq, hlanes, hhunt, hnow, Nat.not_lt.mpr hdue, lanesLooked]
  rfl

end

end Sys2Proof.Machine

namespace Sys2Proof.Proofs

open Sys2Proof Sys2Proof.Machine

/-- Settles O40: each timer by its instant, each message of a power state by what this end asked for. -/
theorem linkTimersAndPowerStates : Obligations.LinkTimersAndPowerStates := by
  refine ⟨fun lp s => ⟨fun hlive hne hdue => ?replay, fun heq => ?noReplay, fun t ht hdue hden hlink hon => ?idleEnds, fun t ht hdue hden => ?idleEndsCxl, fun t ht hearly => ?idle,
      fun t hlink ht hdue => ?probationEnds, fun t ht hearly => ?probation, fun hlive hcxl => ?lost, fun hlive hcxl hlimit => exec_eq_of rfl (linkDown_of_den hlive hcxl (Or.inl hlimit)),
      fun hlive hcxl hlimit => exec_eq_of rfl (linkDown_of_den hlive hcxl (Or.inr hlimit))⟩,
    fun lp m s hden hup => ⟨fun hdl hreq hbar hquiet hdue => ?asks, fun hearly => ?waits, fun hdl hreq => ?agree, fun hdl hreq hq => ?refuse, fun hdl hreq hbar hq hacked hc => ?acknowledge,
      fun hdl hreq => ?acked, fun hdl hreq hacked hc => ?enters, fun hreq => ?refused, fun hdl htwin hreq => ?dl2Ack, fun hdl htwin hreq => ?dl2Both, fun htwin => ?dl2Twin,
      fun hreq => ?dl2Enters, fun t ht hearly => ?noExit, fun t ht hdue hdl hreq hlocked => ?exits⟩⟩
  case replay => exact exec_eq_of rfl (by simp [replayTimeout, replayDue, hlive, hne, Nat.not_le.mpr hdue])
  case noReplay => exact exec_eq_of rfl (by simp [replayTimeout, heq])
  case idleEnds => exact exec_eq_of rfl ((idleEnd_of_due ht hdue).trans (if_pos (by simp [hden, hlink, hon])))
  case idleEndsCxl => exact exec_eq_of rfl ((idleEnd_of_due ht hdue).trans (if_neg (by simp [hden])))
  case idle => exact exec_eq_of rfl (by simp [idleEnd, ht, hearly])
  case probationEnds => exact exec_eq_of rfl (by simp [probationEnd, hlink, ht, Nat.not_lt.mpr hdue])
  case probation => exact exec_eq_of rfl (by simp [probationEnd, ht, hearly])
  case lost => exact exec_eq_of rfl (by simp [linkDown, hlive, hcxl])
  case asks => exact exec_eq_of rfl (by simp [idleTimeout, hup, hden, hdl, hreq, hbar, hquiet, Nat.not_lt.mpr hdue])
  case waits => exact exec_eq_of rfl (by simp [idleTimeout, hearly])
  case agree => exact exec_eq_of rfl ((dl1Req_of_awake hden hup hdl).trans (if_pos hreq))
  case refuse => exact exec_eq_of rfl ((dl1Req_of_awake hden hup hdl).trans (by simp [hreq, hq]))
  case acknowledge => exact exec_eq_of rfl ((dl1Req_of_awake hden hup hdl).trans (by simp [hreq, hbar, hq, hacked, hc]))
  case acked => exact exec_eq_of rfl (by simp [dl1Ack, hup, hdl, hreq, agreeDl1])
  case enters => simp [tryDl1, lpUp, hup, hdl, hreq, hacked, hc]
  case refused => exact exec_eq_of rfl (by simp [dl1Refuse, hreq])
  case dl2Ack => exact exec_eq_of rfl (by simp [dl2Req, hden, hup, hdl, htwin, hreq])
  case dl2Both => exact exec_eq_of rfl (by simp [dl2Req, hden, hup, hdl, htwin, hreq])
  case dl2Twin => exact exec_eq_of rfl (by simp [dl2Req, htwin])
  case dl2Enters => exact exec_eq_of rfl (by simp [dl2Ack, hup, hreq])
  case noExit => exact exec_eq_of rfl (by simp [dlExitDone, ht, hearly])
  case exits => exact ⟨_, exec_eq_of rfl (dlExitDone_of_locked ht hdue hdl hreq hlocked), by simp, by simp, by simp, by simp⟩

end Sys2Proof.Proofs

namespace Sys2Proof.Machine

section
variable {n : Nat} {m : CtrlMsg} {s : State}

/-- A request that meets none of this end's own is accepted (R144, R150). -/
theorem retrainAsked_of_none (widen : Bool) (hlive : linkLive s n = true) (hnone : (initOf s n).retrain = 0) :
    retrainAsked n widen m s = sendCtrl n { subtype := if widen then 4 else 2, subject := BitVec.ofNat 8 n }
      (releaseFrom n (modInit n (fun i => { i with retrain := 0, want := if widen then m.width.toNat else 0, reqAt := none, held := false }) s)) := by
  simp [retrainAsked, hlive, hnone]

theorem retrainAsked_of_kept (widen : Bool) (hlive : linkLive s n = true) (hown : (initOf s n).retrain = 1 ∨ (initOf s n).retrain = 2) (hkeeps : keepsOwn s n m = true) :
    retrainAsked n widen m s = s := by
  rcases hown with h | h <;> simp [retrainAsked, hlive, h, hkeeps]

/-- The restored port's destination flips back once its twin carries none of its frames (R142). -/
theorem failbackMove_of_clear {did o : Nat} (hret : (failOf s n).returning = true) (hwhy : (tget s.sw.holds did).why = some .failback) (hmoved : (failOf s n).moved.contains did = true)
    (ho : (tget s.sw.holds did).oldLp = o) (hclear : carries s o did = false) :
    failbackMove n did s =
      let u := takeAll o (fun f => f.did.toNat == did) { s with sw := { s.sw with routes := s.sw.routes.map (fun e => if e.1 == did && rLp e.2 == o then (e.1, flipActive e.2) else e) } }
      let v := u.1.foldl (fun s q => enqueue n q s) (modSw (fun w => { w with reqs := w.reqs ++ u.2.1.map (fun x => { x with dst := .lp n }) }) u.2.2)
      holdNext n (releaseHeld did (modFail n (fun x => { x with moved := x.moved.filter (· != did) }) v)) := by
  simp only [failbackMove, hret, hwhy, hmoved, ho, hclear]
  rfl

/-- A retrain keeps what was to be sent and what was received (R144, R147). -/
theorem beginRetrain_keeps (k : Nat) :
    (beginRetrain n k s).net.rx = s.net.rx ∧ (txOf (beginRetrain n k s) n).replay = (txOf s n).replay ∧ (txOf (beginRetrain n k s) n).next = (txOf s n).next
      ∧ (txOf (beginRetrain n k s) n).frames = (txOf s n).frames ∧ (lpOf (beginRetrain n k s) n).link = .training ∧ (initOf (beginRetrain n k s) n).resume = true := by
  refine ⟨rfl, ?_, ?_, ?_, ?_, ?_⟩ <;> simp [beginRetrain, stopTx]

end

end Sys2Proof.Machine

namespace Sys2Proof.Proofs

open Sys2Proof Sys2Proof.Machine

/-- Settles O41: a twin's message by the failover's step, a retrain's by the requests that stand. -/
theorem twinsAndRetrains : Obligations.TwinsAndRetrains := by
  refine ⟨fun lp s => ⟨fun m hlive htwin => ?noTwin, fun m t hlive htwin hup hstep => ?handsOver, fun hstep hdue => ?abandoned, fun hearly => ?waits, fun m hlive => ?answered,
      fun m t htwin hsent hup => ?returns, fun did hcarries => ?carried, fun did o u v hret hwhy hmoved ho hclear hu hv => ?moves⟩,
    fun lp m s hlive => ⟨fun hnone => exec_eq_of rfl (retrainAsked_of_none false hlive hnone), fun hnone => exec_eq_of rfl (retrainAsked_of_none true hlive hnone),
      fun hown hkeeps => ⟨exec_eq_of rfl (retrainAsked_of_kept false hlive hown hkeeps), exec_eq_of rfl (retrainAsked_of_kept true hlive hown hkeeps)⟩,
      fun hown hyields => ?yields, fun hown => ?accepted, fun hown => ?widthAccepted, fun hnone => ?none, fun k => beginRetrain_keeps k, fun hown => ?withdrawn,
      fun hheld hreplay hframes htwin => ?released, fun hheld => ?notHeld⟩⟩
  case noTwin => exact exec_eq_of rfl (by simp [failover, hlive, htwin])
  case handsOver => exact exec_eq_of rfl (by simp [failover, hlive, htwin, hup, hstep])
  case abandoned => exact exec_eq_of rfl (by simp [failoverAbandon, hstep, Nat.not_lt.mpr hdue])
  case waits => exact exec_eq_of rfl (by simp [failoverAbandon, hearly])
  case answered => exact exec_eq_of rfl (by simp [failback, hlive])
  case returns => exact exec_eq_of rfl (by simp [failbackDone, htwin, hsent, hup])
  case carried => exact exec_eq_of rfl (by simp [failbackMove, hcarries])
  case moves =>
    subst hv hu
    exact exec_eq_of rfl (failbackMove_of_clear hret hwhy hmoved ho hclear)
  case yields => exact exec_eq_of rfl (by simp [retrainAsked, hlive, hown, hyields])
  case accepted => exact exec_eq_of rfl (by simp [retrainAccepted, hlive, hown])
  case widthAccepted => exact exec_eq_of rfl (by simp [retrainAccepted, hlive, hown])
  case none => exact ⟨exec_eq_of rfl (by simp [retrainAccepted, hnone]), exec_eq_of rfl (by simp [retrainAccepted, hnone])⟩
  case withdrawn =>
    refine exec_eq_of (t := withdraw lp.val s) rfl ((if_pos hlive).trans (modInit_congr ?_))
    simp [hown]
  case released => exact exec_eq_of rfl (by simp [retrainRelease, hheld, hreplay, hframes, htwin])
  case notHeld => exact exec_eq_of rfl (by simp [retrainRelease, hheld])

end Sys2Proof.Proofs
end

section
/-! Fabric time between modules, epoch numbers and the external reference (R380 to R397, R734). -/

namespace Sys2Proof.Machine

section
variable {n : Nat} {m : TimeMsg} {s : State}

/-- An ANNOUNCE on a time port whose last one is no longer valid is kept and starts an election (R386). -/
theorem announce_of_fresh {t : State} (hruns : timeRuns s = true) (hport : timePort s n = true) (hold : (tget s.ft.heard n).valid = false)
    (ht : t = elect { s with ft := { s.ft with heard := tset s.ft.heard n { msg := m, at_ := now s, valid := decide (m.steps < 15) && !m.leaving } } }) :
    announce n m s = reserveEpochs (updateFabric (if t.ft.parent.map (·.val) == some n && !t.ft.gm then takeEpochData m t else t)) := by
  subst ht
  simp only [announce, hruns, hport, hold]
  rfl

theorem heardNow_bump (k : Ctr) (unit : Nat) : heardNow (bump k unit s) = heardNow s := by
  simp [heardNow]

/-- With no ANNOUNCE heard the loss leads to HOLDOVER (R394). -/
theorem announceTimeout_of_silence {p : LpId} (hgm : s.ft.gm = false) (hp : s.ft.parent = some p) (hheard : heardNow s = []) :
    announceTimeout s = selfGm .holdover (bump .annLoss 0 s) := by
  have hbest : bestHeard (bump .annLoss 0 s) = none := by simp [bestHeard, heardNow_bump, hheard]
  simp [announceTimeout, hgm, hp, hheard, hbest]

/-- With one better module heard that is not the grandmaster, the module follows it (R394). -/
theorem announceTimeout_of_other {p : LpId} {q : Nat} {x : Heard} (hgm : s.ft.gm = false) (hp : s.ft.parent = some p) (hheard : heardNow s = [(q, x)])
    (hbetter : better x.msg.gmPrio x.msg.gmSerial s.io.prio s.fuses.serial.toNat = true) (hother : x.msg.gmPrio ≠ s.ft.gmPrio ∨ x.msg.gmSerial ≠ s.ft.gmSerial) :
    announceTimeout s = follow q x.msg (bump .annLoss 0 s) := by
  have hbest : bestHeard (bump .annLoss 0 s) = some (q, x) := by simp [bestHeard, heardNow_bump, hheard]
  have hnone : (heardNow s).any (fun e => e.2.msg.gmPrio == s.ft.gmPrio && e.2.msg.gmSerial == s.ft.gmSerial) = false := by
    rw [hheard]
    rcases hother with h | h <;> simp [h]
  simp [announceTimeout, hgm, hp, hnone, hbest, hbetter]

theorem delayReqSend_of_gm (hgm : s.ft.gm = true) : delayReqSend s = s := by
  rw [delayReqSend]
  split
  · rfl
  · simp [hgm]

/-- The answer of the exchange that waits gives delay and offset, and steps or slews the count (R391). -/
theorem delayRsp_of_waiting {lp : LpId} {x at_ : Nat} {d o : Int} {t : State} (hruns : timeRuns s = true) (hgm : s.ft.gm = false) (hp : s.ft.parent = some lp) (hw : s.ft.waiting = some (x, at_)) (hx : m.exchange = x)
    (hd : d = (((stamp64 s : Int) - (m.t1 : Int)) - ((m.sendTime : Int) - (m.t2 : Int))) / 2)
    (ho : o = (((m.t2 : Int) - (m.t1 : Int)) - ((stamp64 s : Int) - (m.sendTime : Int))) / 2 - (tget s.io.entries lp.val).asym * 1024)
    (ht : t = { s with ft := { s.ft with waiting := none, delay := d.toNat, offset := o, acquired := true, mode := .inband } }) :
    delayRsp lp.val m s = if !s.ft.acquired || decide (o.natAbs > 20000 * 65536) then countStep o t else slewBy o t := by
  have hguard : (!timeRuns s || s.ft.gm || s.ft.parent.map (·.val) != some lp.val || s.ft.waiting.map (·.1) != some m.exchange) = false := by
    simp [hruns, hgm, hp, hw, hx]
  subst ht hd ho
  simp only [delayRsp, hguard, Bool.or_eq_true, decide_eq_true_eq]
  rfl

/-- An edge of FTREF_PPS on a grandmaster in EXTERNAL (R382, R734). -/
theorem ppsEdge_of_external {t : State} (ht : t = { s with io := { s.io with lastPps := some (now s), ppsOk := true, okSince := s.io.okSince.or (some (now s)) } })
    (hgm : s.ft.gm = true) (hmode : s.ft.mode = .external) :
    ppsEdge s = match s.io.pendingSet with
      | some sec => setSeconds sec { t with io := { t.io with pendingSet := none } }
      | none => slewBy (((((now s + 500000000) / 1000000000 * 1000000000) * 65536 : Nat) : Int) - (ftCount s : Int)) t := by
  subst ht
  have hguard : (s.ft.gm && decide (s.ft.mode = .external)) = true := by simp [hgm, hmode]
  exact if_pos hguard

end

end Sys2Proof.Machine

namespace Sys2Proof.Proofs

open Sys2Proof Sys2Proof.Machine

/-- Settles O42: a time message by its port and instant, the reference's edge and loss by the mode. -/
theorem timeBetweenModules : Obligations.TimeBetweenModules := by
  refine ⟨fun s hruns => ⟨fun hdue => ?send, fun hearly => ?sent, fun lp m hport => ?noPort, fun lp m t hport hold ht => ⟨fun hgm => ?own, fun hgm hpar => ?parent⟩, fun hgm => ?gm,
      fun p hgm hp hheard => exec_eq_of rfl (announceTimeout_of_silence hgm hp hheard), fun p q x hgm hp hheard hbetter hother => exec_eq_of rfl (announceTimeout_of_other hgm hp hheard hbetter hother),
      fun p hgm hp hport hdue => ?asks, fun lp m hport => ?answers, fun lp m hw => ?noExchange⟩,
    fun lp m s t x at_ d o hruns hgm hp hw hx hd ho ht => ⟨fun hstep => ?step, fun hacq hsmall => ?slew⟩,
    fun s t ht => ⟨fun hgm => ?edge, fun hgm hmode hset => ?edgeSlews, fun sec hgm hmode hset => ?edgeSets, fun hgm hmode => ?tenLost, fun p hp hdue hgm hmode => ?ppsLost, fun p hp hearly => ?ppsThere,
      fun o hpps hsince hlong hgm hext hmode => ?restored, fun hext => ?noReference, rfl, fun hk hruns hmode hgm hheard hdue => ?selfGm, fun hgm => ?stays⟩⟩
  case send => exact exec_eq_of rfl (by simp [announceSend, hruns, Nat.not_lt.mpr hdue, modFt])
  case sent => exact exec_eq_of rfl (by simp [announceSend, hearly])
  case noPort => exact ⟨exec_eq_of rfl (by simp [announce, hport]), exec_eq_of rfl (by simp [delayReq, hport])⟩
  case own => exact exec_eq_of rfl ((announce_of_fresh hruns hport hold ht).trans (by simp [hgm]))
  case parent => exact exec_eq_of rfl ((announce_of_fresh hruns hport hold ht).trans (by simp [hgm, hpar]))
  case gm => exact ⟨exec_eq_of rfl (by simp [announceTimeout, hgm]), exec_eq_of rfl (delayReqSend_of_gm hgm)⟩
  case asks => exact exec_eq_of rfl (by simp [delayReqSend, hp, hgm, hruns, hport, Nat.not_lt.mpr hdue, modFt])
  case answers => exact exec_eq_of rfl (by simp [delayReq, hruns, hport])
  case noExchange => exact exec_eq_of rfl (by simp only [delayRsp, bne_iff_ne.mpr hw, Bool.or_true, if_true])
  case step =>
    refine exec_eq_of rfl ((delayRsp_of_waiting hruns hgm hp hw hx hd ho ht).trans (if_pos ?_))
    rcases hstep with h | h <;> simp [h]
  case slew =>
    refine exec_eq_of rfl ((delayRsp_of_waiting hruns hgm hp hw hx hd ho ht).trans (if_neg ?_))
    simp [hacq, Nat.not_lt.mpr hsmall]
  case edge =>
    subst ht
    exact exec_eq_of rfl (by simp [ppsEdge, modIo, hgm])
  case edgeSlews => exact exec_eq_of rfl ((ppsEdge_of_external ht hgm hmode).trans (by rw [hset]))
  case edgeSets => exact exec_eq_of rfl ((ppsEdge_of_external ht hgm hmode).trans (by rw [hset]))
  case tenLost => exact exec_eq_of rfl (by simp [ftrefLoss, hgm, hmode, modIo, modFt, b2n])
  case ppsLost => exact exec_eq_of rfl (by simp [ftrefLoss, hp, hdue, hgm, hmode, modIo, modFt, b2n])
  case ppsThere => exact exec_eq_of rfl (by simp [ftrefLoss, hp, hearly])
  case restored =>
    refine exec_eq_of (t := ftrefRestored s) rfl (if_pos ?_)
    simp [hpps, hsince, hlong, hgm, hext, hmode]
  case noReference => exact exec_eq_of rfl (by simp [ftrefRestored, hext, modIo])
  case selfGm => exact exec_eq_of rfl (by simp [selfGrandmaster, hk, hruns, hmode, hgm, hheard, hdue])
  case stays => exact exec_eq_of rfl (by simp [selfGrandmaster, hgm])

end Sys2Proof.Proofs

namespace Sys2Proof.Machine

theorem numberAt_rises (s : State) (t : Nat) : s.hoard.epoch < numberAt s t := by
  rw [numberAt]
  dsimp only
  split_ifs
  · omega
  · omega
  · split
    · split_ifs <;> omega
    · omega

/-- The next instant of a grid lies within one period after an instant (R396). -/
theorem gridAfter_of_started {base p t : Nat} (hp : 0 < p) (ht : base ≤ t) :
    t < gridAfter base p t ∧ gridAfter base p t ≤ t + p ∧ (gridAfter base p t - base) % p = 0 := by
  have hgrid : gridAfter base p t = base + ((t - base) / p + 1) * p := if_neg (Nat.not_lt.mpr ht)
  have hdiv := Nat.div_add_mod (t - base) p
  have hmod := Nat.mod_lt (t - base) hp
  have hmul : ((t - base) / p + 1) * p = p * ((t - base) / p) + p := by ring
  rw [hgrid, hmul]
  refine ⟨by omega, by omega, ?_⟩
  rw [Nat.add_sub_cancel_left, Nat.add_mod_right, Nat.mul_mod_right]

end Sys2Proof.Machine

namespace Sys2Proof.Proofs

open Sys2Proof Sys2Proof.Machine

/-- Settles O44: the number by the module's part in the fabric, the instant by the division of the grid. -/
theorem epochNumbersRiseOnTheGrid : Obligations.EpochNumbersRiseOnTheGrid :=
  ⟨fun s t => ⟨numberAt_rises s t, fun h => by simp [numberAt, h], fun h hgm => by simp [numberAt, h, hgm]⟩, fun _ _ _ hp ht => gridAfter_of_started hp ht⟩

end Sys2Proof.Proofs
end

section
/-! The canonical form of sparse tables, and the arbitration of interrupts (R673). -/

namespace Sys2Proof.Machine

theorem keysRise_iff {α : Type} {b : Option Nat} {t : List (Nat × α)} :
    keysRise b t = true ↔ (∀ x ∈ b, ∀ e ∈ t, x < e.1) ∧ t.Pairwise (fun a b => a.1 < b.1) := by
  induction t generalizing b with
  | nil => simp [keysRise]
  | cons e t ih =>
    cases b with
    | none => simp [keysRise, ih]
    | some x =>
      simp only [keysRise, Bool.and_eq_true, decide_eq_true_eq, ih, List.pairwise_cons, Option.mem_def, Option.some.injEq, forall_eq', List.mem_cons, forall_eq_or_imp]
      constructor
      · rintro ⟨hx, hrise, hpw⟩
        exact ⟨⟨hx, fun y hy => hx.trans (hrise y hy)⟩, hrise, hpw⟩
      · rintro ⟨⟨hx, -⟩, hrise, hpw⟩
        exact ⟨hx, hrise, hpw⟩

section
variable {α : Type} [Inhabited α]

/-- An entry of a table with rising keys is what its key reads. -/
theorem tget_of_mem {t : Tab α} (hpw : t.Pairwise (fun a b => a.1 < b.1)) {e : Nat × α} (he : e ∈ t) : tget t e.1 = e.2 := by
  induction t with
  | nil => cases he
  | cons x t ih =>
    obtain ⟨hx, hpw⟩ := List.pairwise_cons.mp hpw
    rcases List.mem_cons.mp he with rfl | he
    · exact if_pos rfl
    · exact (if_neg (Nat.ne_of_lt (hx e he))).trans (ih hpw he)

theorem mem_of_tget_ne {t : Tab α} {k : Nat} (h : tget t k ≠ default) : (k, tget t k) ∈ t := by
  induction t with
  | nil => exact absurd rfl h
  | cons x t ih =>
    obtain ⟨k', v⟩ := x
    by_cases hk : k' = k
    · subst hk
      simp [tget]
    · simp only [tget, if_neg hk] at h ⊢
      exact List.mem_cons_of_mem _ (ih h)

variable [DecidableEq α]

theorem tabWf_iff {t : Tab α} : tabWf t = true ↔ t.Pairwise (fun a b => a.1 < b.1) ∧ ∀ e ∈ t, e.2 ≠ default := by
  simp [tabWf, keysRise_iff]

theorem mem_tset {t : Tab α} {k : Nat} {v : α} {e : Nat × α} (he : e ∈ tset t k v) : e ∈ t ∨ (e = (k, v) ∧ v ≠ default) := by
  induction t with
  | nil =>
    simp only [tset] at he
    split at he <;> simp_all
  | cons x t ih =>
    obtain ⟨k', v'⟩ := x
    simp only [tset] at he
    split_ifs at he
    case pos => exact Or.inl (List.mem_cons.mpr ((List.mem_cons.mp he).imp_right List.mem_of_mem_filter))
    case neg hv => exact (List.mem_cons.mp he).elim (fun h => Or.inr ⟨h, hv⟩) Or.inl
    case pos => exact Or.inl (List.mem_cons_of_mem _ (List.mem_of_mem_filter he))
    case neg hv => exact (List.mem_cons.mp he).elim (fun h => Or.inr ⟨h, hv⟩) (fun h => Or.inl (List.mem_cons_of_mem _ h))
    case neg => exact (List.mem_cons.mp he).elim (fun h => Or.inl (h ▸ List.mem_cons_self)) (fun h => (ih h).imp_left (List.mem_cons_of_mem _))

theorem pairwise_tset {t : Tab α} {k : Nat} {v : α} (h : t.Pairwise (fun a b => a.1 < b.1)) : (tset t k v).Pairwise (fun a b => a.1 < b.1) := by
  induction t with
  | nil =>
    simp only [tset]
    split <;> simp
  | cons x t ih =>
    obtain ⟨k', v'⟩ := x
    obtain ⟨hx, hpw⟩ := List.pairwise_cons.mp h
    simp only [tset]
    split_ifs with hlt hv heq hv
    · exact h.sublist (List.Sublist.cons_cons _ List.filter_sublist)
    · exact List.pairwise_cons.mpr ⟨List.forall_mem_cons.mpr ⟨hlt, fun e he => hlt.trans (hx e he)⟩, h⟩
    · exact hpw.sublist List.filter_sublist
    · subst heq
      exact List.pairwise_cons.mpr ⟨hx, hpw⟩
    · refine List.pairwise_cons.mpr ⟨fun e he => ?_, ih hpw⟩
      rcases mem_tset he with he | ⟨rfl, -⟩
      · exact hx e he
      · exact Nat.lt_of_le_of_ne (Nat.not_lt.mp hlt) (Ne.symm heq)

/-- A write keeps the canonical form. -/
theorem tabWf_tset {t : Tab α} (k : Nat) (v : α) (h : tabWf t = true) : tabWf (tset t k v) = true := by
  obtain ⟨hpw, hne⟩ := tabWf_iff.mp h
  refine tabWf_iff.mpr ⟨pairwise_tset hpw, fun e he => ?_⟩
  rcases mem_tset he with he | ⟨rfl, hv⟩
  · exact hne e he
  · exact hv

end

/-- A source with its number may be delivered to a pair (R673). -/
def deliverable (s : State) (p : Nat) (e : Nat × SicSrc) : Bool :=
  e.2.pend && e.2.active.isNone && sicField e.2.word 4 1 == 1 && s.sic.pair0.committed != some e.1 && s.sic.pair1.committed != some e.1
    && sicRoute s e.2.word == p && decide (sicField e.2.word 0 4 + 1 > runningPrio s p)

/-- The more urgent of the source found so far and the next one. -/
def moreUrgent (pr : Nat → Nat) (b : Option Nat) (e : Nat × SicSrc) : Option Nat :=
  match b with
  | none => some e.1
  | some x => if pr x < sicField e.2.word 0 4 then some e.1 else b

theorem sicSelect_eq (s : State) (p : Nat) :
    sicSelect s p = (s.sic.srcs.filter (deliverable s p)).foldl (moreUrgent (fun k => sicField (tget s.sic.srcs k).word 0 4)) none := rfl

/-- Source `n` is no more urgent than `src`: a lower PRIO, or the same and no lower number. -/
def NoMoreUrgent (pr : Nat → Nat) (n src : Nat) : Prop := pr n < pr src ∨ (pr n = pr src ∧ src ≤ n)

/-- Over sources in rising order the search ends with the most urgent of them. -/
theorem foldl_moreUrgent {pr : Nat → Nat} {l : List (Nat × SicSrc)} (hl : ∀ e ∈ l, sicField e.2.word 0 4 = pr e.1) (hpw : l.Pairwise (fun a b => a.1 < b.1))
    {b : Option Nat} (hb : ∀ x ∈ b, ∀ e ∈ l, x < e.1) {src : Nat} (h : l.foldl (moreUrgent pr) b = some src) :
    (b = some src ∨ ∃ e ∈ l, e.1 = src) ∧ (∀ x ∈ b, NoMoreUrgent pr x src) ∧ ∀ e ∈ l, NoMoreUrgent pr e.1 src := by
  induction l generalizing b with
  | nil =>
    subst h
    exact ⟨Or.inl rfl, fun x hx => by cases hx; exact Or.inr ⟨rfl, Nat.le_refl _⟩, by simp⟩
  | cons e l ih =>
    obtain ⟨he, hpw⟩ := List.pairwise_cons.mp hpw
    obtain ⟨hpe, hl⟩ := List.forall_mem_cons.mp hl
    have hstep : moreUrgent pr b e = some e.1 ∨ (moreUrgent pr b e = b ∧ ∃ x ∈ b, pr e.1 ≤ pr x) := by
      cases b with
      | none => exact Or.inl rfl
      | some x =>
        by_cases hx : pr x < sicField e.2.word 0 4
        · exact Or.inl (if_pos hx)
        · exact Or.inr ⟨if_neg hx, x, rfl, by omega⟩
    rw [List.foldl_cons] at h
    rcases hstep with hnew | ⟨hkept, x, hx, hle⟩
    · rw [hnew] at h
      obtain ⟨hfound, hb', hleast⟩ := ih hl hpw (by simpa using he) h
      have heSrc := hb' e.1 rfl
      refine ⟨Or.inr ?_, fun x hx => ?_, List.forall_mem_cons.mpr ⟨heSrc, hleast⟩⟩
      · rcases hfound with h | ⟨y, hy, rfl⟩
        · exact ⟨e, List.mem_cons_self, Option.some.inj h⟩
        · exact ⟨y, List.mem_cons_of_mem _ hy, rfl⟩
      · subst hx
        have hlt : pr x < pr e.1 := by
          rw [← hpe]
          by_contra hx
          rw [moreUrgent, if_neg hx] at hnew
          exact absurd (Option.some.inj hnew) (Nat.ne_of_lt (hb x rfl e List.mem_cons_self))
        exact Or.inl (heSrc.elim (fun h => hlt.trans h) (fun h => h.1 ▸ hlt))
    · rw [hkept] at h
      obtain ⟨hfound, hb', hleast⟩ := ih hl hpw (fun y hy z hz => hb y hy z (List.mem_cons_of_mem _ hz)) h
      refine ⟨hfound.imp_right (fun ⟨y, hy, hs⟩ => ⟨y, List.mem_cons_of_mem _ hy, hs⟩), hb', List.forall_mem_cons.mpr ⟨?_, hleast⟩⟩
      have hxe := hb x hx e List.mem_cons_self
      have hxs := hb' x hx
      unfold NoMoreUrgent at hxs ⊢
      omega

theorem sicSelect_spec {s : State} {p src : Nat} (hwf : tabWf s.sic.srcs = true) (h : sicSelect s p = some src) :
    deliverable s p (src, tget s.sic.srcs src) = true
      ∧ ∀ n, deliverable s p (n, tget s.sic.srcs n) = true → NoMoreUrgent (fun k => sicField (tget s.sic.srcs k).word 0 4) n src := by
  obtain ⟨hpw, -⟩ := tabWf_iff.mp hwf
  rw [sicSelect_eq] at h
  have hread (e : Nat × SicSrc) (he : e ∈ s.sic.srcs.filter (deliverable s p)) : tget s.sic.srcs e.1 = e.2 := tget_of_mem hpw (List.mem_of_mem_filter he)
  obtain ⟨hfound, -, hleast⟩ := foldl_moreUrgent (pr := fun k => sicField (tget s.sic.srcs k).word 0 4) (fun e he => by rw [hread e he]) (hpw.sublist List.filter_sublist) (by simp) h
  constructor
  · obtain ⟨e, he, rfl⟩ := hfound.resolve_left (by simp)
    rw [hread e he]
    exact (List.mem_filter.mp he).2
  · intro n hn
    have hne : tget s.sic.srcs n ≠ default := by
      intro hd
      rw [deliverable, hd] at hn
      simp [show (default : SicSrc).pend = false from rfl] at hn
    exact hleast (n, tget s.sic.srcs n) (List.mem_filter.mpr ⟨mem_of_tget_ne hne, hn⟩)

end Sys2Proof.Machine

namespace Sys2Proof.Proofs

open Sys2Proof Sys2Proof.Machine

/-- Settles O47: the search over the sources in rising order keeps the most urgent of them. -/
theorem arbitrationPicksTheHighestPriority : Obligations.ArbitrationPicksTheHighestPriority := by
  refine ⟨fun s p src hwf h => ?_, fun src g s hwf => tabWf_tset src _ hwf⟩
  obtain ⟨hsrc, hleast⟩ := sicSelect_spec hwf h
  simp only [deliverable, Bool.and_eq_true, decide_eq_true_eq, Option.isNone_iff_eq_none] at hsrc
  obtain ⟨⟨⟨⟨⟨⟨hpend, hactive⟩, -⟩, -⟩, -⟩, -⟩, hprio⟩ := hsrc
  refine ⟨hpend, hactive, hprio, fun n hp ha hen h0 h1 hroute hpr => hleast n ?_⟩
  simp [deliverable, hp, ha, hen, h0, h1, hroute, hpr]

end Sys2Proof.Proofs
end

section
/-! Power domains, cores, clocks and sensors (R618 to R644, R743). -/

namespace Sys2Proof.Machine

section
variable {d : Nat} {s : State}

theorem ne_off_of_settRuns (h : settRuns s = true) : s.dev.st ≠ .off := by
  intro hst
  simp [settRuns, hst] at h

theorem ne_grave_of_settRuns (h : settRuns s = true) : s.dev.st ≠ .grave := by
  intro hst
  simp [settRuns, hst] at h

/-- A transition of a domain that is no port, with nothing waiting for it, ends with its state, its counter and its mask (R630). -/
theorem endTransition_of_alone {st : Pd} (hq : (domOf s d).queued = none) (hrun : s.cmd.running = []) (hd : 128 ≤ d) :
    endTransition d st s = bump .domTrans d (modDom d (fun x => { x with st := st, target := none, step := 0, queued := none, qWave := false, masked := st != .on, dwell := false }) s) := by
  simp only [endTransition, hq, intGate, if_neg (Nat.not_lt.mpr hd), endDomainCmds, bump_frame]
  rw [show (modDom d (fun x => { x with st := st, target := none, step := 0, queued := none, qWave := false, masked := st != .on, dwell := false }) s).cmd.running = [] from hrun]
  rfl

/-- A ready signal that stays out in step S2 beyond twice its bound (R629). -/
theorem readyTimeout_of_late {u : State} (hd : 136 ≤ d) (ht : (domOf s d).target.isSome = true) (hstep : (domOf s d).step = 2) (hdue : (domOf s d).stepAt + 2 * (domBounds d).getD 1 0 ≤ now s)
    (hu : u = endDomainCmds d false .timeout 0 (timeoutEvent d (bump .domTimeout d (clkDown d (modDom d (fun y => { y with st := .off, target := none, step := 0, ready := 0, masked := true, errs := y.errs ||| 1, offAt := some (now s), dwell := false, lostClk := false }) s)))))
    (hq : (domOf u d).queued = none) : readyTimeout d s = u := by
  have hnone : (domOf s d).target.isNone = false := by
    rw [← Option.not_isSome, ht]; rfl
  have h128 : ¬ d < 128 := by omega
  have h136 : ¬ d < 136 := by omega
  subst hu
  simp only [readyTimeout, hnone, hstep, h128, h136, if_false]
  simp only [show ¬ (2 = 5) by decide, if_false]
  rw [if_neg (by simpa using hdue), hq]

theorem readyTimeout_of_early (hstep : (domOf s d).step = 2) (hearly : now s < (domOf s d).stepAt + 2 * (domBounds d).getD 1 0) : readyTimeout d s = s := by
  simp only [readyTimeout, hstep]
  rw [if_pos (by simpa using Or.inr hearly)]

end

section
variable {c : Nat} {s : State}

theorem noneRising (h : ∀ d, (domOf s d).step ≠ 2) : (fedBy c).filter (fun d => (domOf s d).target.isSome && (domOf s d).step = 2) = [] := by
  refine List.filter_eq_nil_iff.mpr (fun d _ => ?_)
  simp [h d]

/-- A pair that is On writes its mode, and sleeps by it where no interrupt is there for it (R622). -/
theorem coreWfi_of_on {p : Nat} {mode : BitVec 2} (hsett : settRuns s = true) (hon : (domOf s (148 + 2 * p)).st = .on) :
    coreWfi p mode s =
      let u := { s with pwr := if p = 0 then { s.pwr with mode0 := mode } else { s.pwr with mode1 := mode } }
      if pairPending u p then u
      else if mode = 1 then bump .sleepE p (pairTo p .sleep u)
      else if mode = 2 then
        (if p = u.hb.activePair.val then bump .refDeep p (bump .sleepE p (pairTo p .sleep u)) else bump .deepE p (pairTo p .deep u))
      else u :=
  if_neg (by simp [hon, ne_off_of_settRuns hsett, ne_grave_of_settRuns hsett])

/-- A running clock that feeds no domain in step S2 and is lost (R638, R641). -/
theorem clockLoss_of_running (hsett : settRuns s = true) (hrun : (clkOf s c).running = true) (hstep : ∀ d, (domOf s d).step ≠ 2) :
    clockLoss c s =
      let u := bump .clkLoss c (modClk c (fun x => { x with running := false, loss := true }) s)
      clockOutcome c (if (4 ≤ c && c < 7) || (9 ≤ c && c < 17) then modClk c (fun x => { x with running := true, primary := false, switching := false }) (watchdogReset c u) else u) := by
  have hoff := ne_off_of_settRuns hsett
  have hgrave := ne_grave_of_settRuns hsett
  simp only [clockLoss, noneRising hstep, hrun]
  simp [hoff, hgrave]

/-- A switch that has hung goes through the watchdog's reset and runs from the primary source (R639, R640). -/
theorem switchHung_of_hung {d : Nat} (hsett : settRuns s = true) (hsw : (clkOf s c).switching = true) (hfed : d ∈ fedBy c) (hstep : (domOf s d).step = 2) (hdue : (domOf s d).stepAt + 2560 ≤ now s) :
    switchHung c s = clockOutcome c (modClk c (fun x => { x with running := true, primary := true, switching := false }) (watchdogReset c (bump .clkHung c (modClk c (fun x => { x with hung := true }) s)))) := by
  have hsince : (fedBy c).any (fun d => (domOf s d).step = 2 && decide (now s ≥ (domOf s d).stepAt + 2560)) = true :=
    List.any_eq_true.mpr ⟨d, hfed, by simp [hstep, hdue]⟩
  simp only [switchHung, hsw, hsince]
  simp [ne_off_of_settRuns hsett]

end

end Sys2Proof.Machine

namespace Sys2Proof.Proofs

open Sys2Proof Sys2Proof.Machine

/-- Settles O49: a ready signal by the transition's step, a core, a clock and a sensor by what it reports. -/
theorem domainsCoresClocksAndSensors : Obligations.DomainsCoresClocksAndSensors := by
  refine ⟨fun d s => ⟨fun ht => ?idle, fun ht hs => ?deep, fun t ht hne hs => ?s1, fun t ht hs hclk => ?s2, fun t ht hs => ?s3, fun t ht hs => ?s4, fun t ht hs => ?exit, fun t ht hs => ?entry,
      fun t ht hs => ?d14, fun t ht hs => ?d13, fun t ht hs => ?d12, fun t ht hs => ?d11, fun st hq hrun hd => endTransition_of_alone hq hrun hd, fun ht hdw hdue => ?dwell, fun hdw => ?noDwell,
      fun ht => ?noTimeout, fun hs hearly => ?early, fun u hd ht hs hdue hu hq => ?late⟩,
    fun s hsett => ⟨fun p hst m => ?notOn, fun hst hpend => ?run, fun hst hpend => ?sleep, fun c hrun hstep => ?notLost, fun c hrun hstep hno4 hno9 => ?lost, fun c hrun hstep hwd => ?watchdog,
      fun c hsw => ?noSwitch, fun c d hsw hfed hstep hdue => exec_eq_of rfl (switchHung_of_hung hsett hsw hfed hstep hdue), fun hout hst => ?stops, fun hout => ?noOutput, fun c b hreq => ?grave,
      fun js ls hs hraised hover hcage hhot htrip => ?hot, fun js ls hs u hraised hover hcage htrip hhot hu => ?trip⟩⟩
  case idle => exact exec_eq_of rfl (by simp [domainReady, ht])
  case deep => exact exec_eq_of rfl (by simp [domainReady, ht, hs])
  case s1 => exact exec_eq_of rfl (by simp [domainReady, ht, hs, hne, and_assoc])
  case s2 => exact exec_eq_of rfl (by simp [domainReady, ht, hs, hclk])
  case s3 => exact exec_eq_of rfl (by simp [domainReady, ht, hs])
  case s4 => exact exec_eq_of rfl (by simp [domainReady, ht, hs])
  case exit => exact exec_eq_of rfl (by simp [domainReady, ht, hs])
  case entry => exact exec_eq_of rfl (by simp [domainReady, ht, hs])
  case d14 => exact exec_eq_of rfl (by simp [domainReady, ht, hs])
  case d13 => exact exec_eq_of rfl (by simp [domainReady, ht, hs])
  case d12 => exact exec_eq_of rfl (by simp [domainReady, ht, hs])
  case d11 => exact exec_eq_of rfl (by simp [domainReady, ht, hs])
  case dwell => exact exec_eq_of rfl (by simp [dwellEnd, ht, hdw, hdue])
  case noDwell => exact exec_eq_of rfl (by simp [dwellEnd, hdw])
  case noTimeout => exact exec_eq_of rfl (by simp [readyTimeout, ht])
  case early => exact exec_eq_of rfl (by rw [readyTimeout_of_early hs hearly])
  case late => exact exec_eq_of rfl (by rw [readyTimeout_of_late hd ht hs hdue hu hq])
  case notOn => exact exec_eq_of rfl (by simp [coreWfi, hst])
  case run => exact exec_eq_of rfl (by simp [coreWfi, hst, ne_off_of_settRuns hsett, ne_grave_of_settRuns hsett])
  case sleep => exact exec_eq_of rfl ((coreWfi_of_on hsett hst).trans ((if_neg (by simpa using hpend)).trans (if_pos rfl)))
  case notLost => exact exec_eq_of rfl (by simp only [clockLoss, noneRising hstep, hrun]; simp)
  case lost =>
    refine exec_eq_of rfl ((clockLoss_of_running hsett hrun hstep).trans ?_)
    simp only [hno4, hno9, Bool.and_eq_true, decide_eq_true_eq, Bool.or_eq_true, or_self, if_false]
  case watchdog =>
    refine exec_eq_of rfl ((clockLoss_of_running hsett hrun hstep).trans ?_)
    simp only [Bool.and_eq_true, decide_eq_true_eq, Bool.or_eq_true, hwd, if_true]
  case noSwitch => exact exec_eq_of rfl (by simp [switchHung, hsw])
  case stops => exact exec_eq_of rfl (by simp [observedStop, hout, hst])
  case noOutput => exact exec_eq_of rfl (by simp [observedStop, hout])
  case grave => exact exec_eq_of rfl (by simp [graveFault, hsett, graveCause, modDev, hreq])
  case hot => exact exec_eq_of rfl (by simp only [thermalSample, hraised, hover, hcage, hhot, htrip]; simp [ne_off_of_settRuns hsett])
  case trip => exact exec_eq_of rfl (by
      simp only [thermalSample, hraised, hover, hcage, hhot, htrip, beq_eq_false_iff_ne.mpr (ne_off_of_settRuns hsett), Bool.or_self, Bool.not_true, Bool.and_false, Bool.and_self, Bool.false_eq_true, if_false, if_true]
      rw [hu])

end Sys2Proof.Proofs
end

section
/-! Requests and responses as they arrive, translation, and response time-outs (O52, O53). -/

namespace Sys2Proof.Machine

/-! ### Arrival -/

section
variable {n a : Nat} {f : Frame} {go : Nat → State → State} {s : State}

theorem arrive_of_not_live (h : linkLive s n = false) : arrive n f a go s = s := by
  simp [arrive, h]

theorem arrive_of_early {o : Nat} (h : linkLive s n = true) (he : earlyOf s n f = some o) :
    arrive n f a go s = takeMore n f a o s := by
  simp [arrive, h, he]

theorem arrive_of_refused {t : State} (h : linkLive s n = true) (he : earlyOf s n f = none) (hp : takePlace n f a s = (none, t)) :
    arrive n f a go s = t := by
  simp [arrive, h, he, hp]

theorem arrive_of_taken {o : Nat} {t : State} (h : linkLive s n = true) (he : earlyOf s n f = none) (hp : takePlace n f a s = (some o, t)) :
    arrive n f a go s = go o t := by
  simp [arrive, h, he, hp]

theorem takePlace_den_beyond (hc : isCxl s n = false) (hw : withinCredits s n f = false) :
    takePlace n f a s = (none, protoError n s) := by
  simp [takePlace, hc, hw]

theorem takePlace_den_within {o : Nat} {t : State} (hc : isCxl s n = false) (hw : withinCredits s n f = true)
    (he : enterFrame n f a s = (o, t)) : takePlace n f a s = (some o, t) := by
  simp [takePlace, hc, hw, he]

theorem takePlace_cxl_none {t : State} (hc : isCxl s n = true) (h : takeCredits n (.pbr f) s = (none, t)) :
    takePlace n f a s = (none, t) := by
  simp [takePlace, hc, h]

theorem takePlace_cxl_some {o : Nat} {t : State} (hc : isCxl s n = true) (h : takeCredits n (.pbr f) s = (some o, t)) :
    takePlace n f a s = (some o, noteEarly n f a o t) := by
  simp [takePlace, hc, h]

end

/-- A fabric port's frame that may go on: one hop less, no other field changed. -/
theorem fabricRequest_of_forwarded {lp a o : Nat} {f : Frame} {s : State} (hhops : f.hops ≠ 0) (hcol : f.colour ≠ 3)
    (htakes : takesRequests s = true) (hthr : throttleHere s { f with hops := f.hops - 1 } = false) :
    fabricRequest lp f a o s = meterAndShape lp { f with hops := f.hops - 1 } a o s := by
  have h3 : (f.colour == 3) = false := beq_false_of_ne hcol
  have h0 : (f.hops == 0) = false := beq_false_of_ne hhops
  simp only [fabricRequest, h3, h0, Bool.false_eq_true, if_false, hthr, htakes, Bool.not_true, Bool.false_and]

theorem fabricRequest_of_no_hops {lp a o : Nat} {f : Frame} {s : State} (h : f.hops = 0) :
    fabricRequest lp f a o s = dropFrame o (raise { code := 0x020F, cls := .notice, block := lp / 2, arg := f.did.toNat } (bump .routeDisc lp s)) := by
  simp [fabricRequest, h]

end Sys2Proof.Machine

namespace Sys2Proof.Proofs
open Sys2Proof Sys2Proof.Machine

theorem requestIn_cases (lp : LpId) (f : Frame) (a : Nat) (s : State) :
    (linkLive s lp.val = false → exec (.requestClassify lp f a) s = .next (settle s))
    ∧ (∀ o, linkLive s lp.val = true → earlyOf s lp.val f = some o → exec (.requestClassify lp f a) s = .next (settle (takeMore lp.val f a o s)))
    ∧ (linkLive s lp.val = true → earlyOf s lp.val f = none → isCxl s lp.val = false → withinCredits s lp.val f = false → exec (.requestClassify lp f a) s = .next (settle (protoError lp.val s)))
    ∧ (∀ o t, linkLive s lp.val = true → earlyOf s lp.val f = none → isCxl s lp.val = false → isCxl t lp.val = false → withinCredits s lp.val f = true → enterFrame lp.val f a s = (o, t) → exec (.requestClassify lp f a) s = .next (settle (classifyDen lp.val f a o t)))
    ∧ (∀ t, linkLive s lp.val = true → earlyOf s lp.val f = none → isCxl s lp.val = true → takeCredits lp.val (.pbr f) s = (none, t) → exec (.requestClassify lp f a) s = .next (settle t))
    ∧ (∀ o t u, linkLive s lp.val = true → earlyOf s lp.val f = none → isCxl s lp.val = true → takeCredits lp.val (.pbr f) s = (some o, t) → u = noteEarly lp.val f a o t → isCxl u lp.val = true →
        exec (.requestClassify lp f a) s = .next (settle (classifyCxl lp.val f a o u))) := by
  have hrun : exec (.requestClassify lp f a) s = finishStep (requestIn lp.val f a s) := rfl
  refine ⟨fun hl => exec_eq_of hrun (arrive_of_not_live hl), fun o hl he => exec_eq_of hrun (arrive_of_early hl he),
    fun hl he hc hw => exec_eq_of hrun (arrive_of_refused hl he (takePlace_den_beyond hc hw)), fun o t hl he hc hct hw hent => exec_eq_of hrun ?_,
    fun t hl he hc htake => exec_eq_of hrun (arrive_of_refused hl he (takePlace_cxl_none hc htake)), fun o t u hl he hc htake hu hcu => exec_eq_of hrun ?_⟩
  · exact (arrive_of_taken hl he (takePlace_den_within hc hw hent)).trans (by simp only [hct, Bool.false_eq_true, if_false])
  · subst hu
    exact (arrive_of_taken hl he (takePlace_cxl_some hc htake)).trans (by simp only [hcu, if_true])

theorem classifyCxl_cases (n : Nat) (f : Frame) (a o : Nat) (s : State) :
    (isDevice s n = true → classifyCxl n f a o s = copyGone o (violation n 5 s))
    ∧ (isDevice s n = false → opcodeListed f.cls f.opcode.toNat = false → classifyCxl n f a o s = copyGone o (violation n 2 s))
    ∧ (isDevice s n = false → isHost s n = false → isFabric s n = true → opcodeListed f.cls f.opcode.toNat = true → classifyCxl n f a o s = fabricRequest n f a o s)
    ∧ (isDevice s n = false → isFabric s n = false → opcodeListed f.cls f.opcode.toNat = true → f.cls ≠ clsIO → isPosted f = true →
        classifyCxl n f a o s = hostRequest n 0 { f with chan := BitVec.ofNat 3 (chanOf f.cls f.opcode.toNat) } a o s) := by
  unfold classifyCxl
  refine ⟨fun hd => ?_, fun hd hl => ?_, fun hd hh hf hl => ?_, fun hd hf hl hio hp => ?_⟩
  · simp only [hd, if_true]
  · simp only [hd, hl, Bool.false_eq_true, if_false, Bool.not_false, Bool.true_or, if_true]
  · simp only [hd, hh, hf, hl, Bool.false_eq_true, if_false, Bool.not_true, Bool.false_and, Bool.or_self, if_true]
  · simp only [hd, hf, hl, hp, beq_false_of_ne hio, Bool.false_eq_true, if_false, Bool.not_true, Bool.and_false, Bool.false_and, Bool.or_self, if_true]

theorem classifyDen_cases (lp : Nat) (f : Frame) (a o : Nat) (s : State) :
    (hchkOk f = false → classifyDen lp f a o s = dropFrame o (hchkFailure lp (lp / 2) f s))
    ∧ (hchkOk f = true → opcodeListed f.cls f.opcode.toNat = false → classifyDen lp f a o s = dropFrame o (protoError lp s))
    ∧ (hchkOk f = true → opcodeListed f.cls f.opcode.toNat = true → isHost s lp = true → f.cls = clsIO → f.opcode = 0xF0 → classifyDen lp f a o s = dropFrame o (protoError lp s))
    ∧ (hchkOk f = true → opcodeListed f.cls f.opcode.toNat = true → isHost s lp = true → isPageAccess s lp f = true → (f.cls ≠ clsIO ∨ f.opcode ≠ 0xF0) → classifyDen lp f a o s = denPage lp (framePasid f) f o s)
    ∧ (hchkOk f = true → opcodeListed f.cls f.opcode.toNat = true → isHost s lp = true → isPageAccess s lp f = false → (f.cls ≠ clsIO ∨ f.opcode ≠ 0xF0) → classifyDen lp f a o s = hostRequest lp (framePasid f) f a o s)
    ∧ (hchkOk f = true → opcodeListed f.cls f.opcode.toNat = true → isHost s lp = false → isFabric s lp = true → f.hops = 0 → classifyDen lp f a o s = dropFrame o (raise { code := 0x020F, cls := .notice, block := lp / 2, arg := f.did.toNat } (bump .routeDisc lp s)))
    ∧ (hchkOk f = true → opcodeListed f.cls f.opcode.toNat = true → isHost s lp = false → isFabric s lp = true → f.hops ≠ 0 → f.colour ≠ 3 → takesRequests s = true → throttleHere s { f with hops := f.hops - 1 } = false →
        classifyDen lp f a o s = meterAndShape lp { f with hops := f.hops - 1 } a o s)
    ∧ (hchkOk f = true → opcodeListed f.cls f.opcode.toNat = true → isHost s lp = false → isFabric s lp = false → classifyDen lp f a o s = dropFrame o (agentViolation lp s)) := by
  have hthrottle : (f.cls ≠ clsIO ∨ f.opcode ≠ 0xF0) → (f.cls == clsIO && f.opcode == 0xF0) = false := by
    rintro (h | h)
    · rw [beq_false_of_ne h, Bool.false_and]
    · rw [beq_false_of_ne h, Bool.and_false]
  have hgood : hchkOk f = true → opcodeListed f.cls f.opcode.toNat = true → classifyDen lp f a o s =
      if isHost s lp then
        (if f.cls == clsIO && f.opcode == 0xF0 then dropFrame o (protoError lp s)
         else if isPageAccess s lp f then denPage lp (framePasid f) f o s
         else hostRequest lp (framePasid f) f a o s)
      else if isFabric s lp then fabricRequest lp f a o s
      else dropFrame o (agentViolation lp s) := fun hk hl => by
    simp only [classifyDen, hk, hl, Bool.not_true, Bool.false_eq_true, if_false]
  refine ⟨fun hk => ?_, fun hk hl => ?_, fun hk hl hh hc ho => ?_, fun hk hl hh hp hnot => ?_, fun hk hl hh hp hnot => ?_, fun hk hl hh hf h0 => ?_,
    fun hk hl hh hf h0 h3 ht hthr => ?_, fun hk hl hh hf => ?_⟩
  case refine_1 => simp only [classifyDen, hk, Bool.not_false, if_true]
  case refine_2 => simp only [classifyDen, hk, hl, Bool.not_true, Bool.not_false, Bool.false_eq_true, if_false, if_true]
  all_goals rw [hgood hk hl, hh]
  · simp [hc, ho]
  · simp only [hthrottle hnot, hp, if_true, Bool.false_eq_true, if_false]
  · simp only [hthrottle hnot, hp, if_true, Bool.false_eq_true, if_false]
  · rw [hf, if_neg Bool.false_ne_true, if_pos rfl, fabricRequest_of_no_hops h0]
  · rw [hf, if_neg Bool.false_ne_true, if_pos rfl, fabricRequest_of_forwarded h0 h3 ht hthr]
  · rw [hf, if_neg Bool.false_ne_true, if_neg Bool.false_ne_true]

/-- Settles O52: a request that finds no place is gone, and one that does is classified by its port's role. -/
theorem requestsAtIngress : Obligations.RequestsAtIngress := by
  refine ⟨fun lp f a s => ?_, classifyDen_cases⟩
  obtain ⟨h1, h2, h3, h4, h5, h6⟩ := requestIn_cases lp f a s
  exact ⟨h1, h2, h3, h4, h5, h6, fun o => classifyCxl_cases lp.val f a o s⟩

end Sys2Proof.Proofs

end

section
/-! Translation of host requests, responses and response time-outs (R171, R182, R185, R191). -/

namespace Sys2Proof.Machine

/-! ### Translation -/

/-- A host's request as translation sees it: this module's source, and nothing of the host's marks, colour or privilege (R185). -/
def asHostRequest (lp : Nat) (f : Frame) (s : State) : Frame :=
  { f with sid := BitVec.ofNat 12 (didOf s lp), priv := false, colour := 0, hops := 15, copy := false, marked := false, rsv := 0, chan := if isCxl s lp then f.chan else BitVec.ofNat 3 (chanOf f.cls f.opcode.toNat) }

section
variable {lp pasid a o i fa : Nat} {f : Frame} {s : State}

theorem countXlat_of_direct (h : s.ten.mediated = false) : countXlat lp pasid a s = s := by
  simp [countXlat, h]

theorem hostRequest_of_hit (hm : s.ten.mediated = false) (hp : isPosted (asHostRequest lp f s) = false) (ht : takesRequests s = true)
    (hr : resolve s lp pasid (fAddr (asHostRequest lp f s)) (reachOf (asHostRequest lp f s)) = .hit i fa) :
    hostRequest lp pasid f a o s = meterAndShape lp (sealHdr { asHostRequest lp f s with binding := handleOf s 1 i, addr := BitVec.ofNat 64 fa, did := BitVec.ofNat 12 (sliceOf s (bindOf s i).slice).target, prio := BitVec.ofNat 3 (tenantOf s (bindOf s i).tenant).prio }) a o s := by
  unfold asHostRequest at hp hr ⊢
  simp only [hostRequest, countXlat_of_direct hm, hr, hp, ht, Bool.not_true, Bool.false_and, Bool.false_eq_true, if_false]

theorem hostRequest_of_miss (hm : s.ten.mediated = false) (ht : takesRequests s = true)
    (hr : resolve s lp pasid (fAddr (asHostRequest lp f s)) (reachOf (asHostRequest lp f s)) = .miss) :
    hostRequest lp pasid f a o s = windowMiss lp pasid (asHostRequest lp f s) o s := by
  unfold asHostRequest at hr ⊢
  simp only [hostRequest, countXlat_of_direct hm, hr, ht, Bool.not_true, Bool.false_and, Bool.false_eq_true, if_false]
  split <;> rfl

theorem hostRequest_of_drained_hit (hm : s.ten.mediated = false) (hn : isNotice (asHostRequest lp f s) = false) (hp : isPosted (asHostRequest lp f s) = false)
    (ht : takesRequests s = false) (hr : resolve s lp pasid (fAddr (asHostRequest lp f s)) (reachOf (asHostRequest lp f s)) = .hit i fa) :
    hostRequest lp pasid f a o s = copyGone o (targetGone { asHostRequest lp f s with binding := handleOf s 1 i } stUnavail s) := by
  unfold asHostRequest at hn hp hr ⊢
  simp only [hostRequest, countXlat_of_direct hm, hr, hn, hp, ht, Bool.not_false, Bool.and_self, Bool.false_and, Bool.false_eq_true, if_false, if_true]

end

/-! ### Responses -/

section
variable {n a o : Nat} {f : Frame} {s t : State}

/-- On a Den port a response whose frame finds its place is checked and then goes by its port's role. -/
theorem responseIn_den_of_taken (hl : linkLive s n = true) (he : earlyOf s n f = none) (hc : isCxl s n = false) (hct : isCxl t n = false)
    (hw : withinCredits s n f = true) (hent : enterFrame n f a s = (o, t)) :
    responseIn n f a s =
      if !hchkOk f then copyGone o (hchkFailure n (n / 2) f t)
      else if !opcodeListed f.cls f.opcode.toNat then copyGone o (protoError n t)
      else if isResponse f && decide (f.status.toNat ≥ 7) then responseRole n { f with status := stUnknown } a o (protoError n t)
      else responseRole n f a o t := by
  simp only [responseIn, hc, Bool.false_and, Bool.false_eq_true, if_false, arrive_of_taken hl he (takePlace_den_within hc hw hent), hct]

theorem responseIn_of_bad_header (hl : linkLive s n = true) (he : earlyOf s n f = none) (hc : isCxl s n = false) (hct : isCxl t n = false)
    (hw : withinCredits s n f = true) (hent : enterFrame n f a s = (o, t)) (hk : hchkOk f = false) :
    responseIn n f a s = copyGone o (hchkFailure n (n / 2) f t) := by
  simp [responseIn_den_of_taken hl he hc hct hw hent, hk]

/-- A data completion with status OK is listed and well formed, so its port's role takes it. -/
theorem responseIn_of_data_completion (hl : linkLive s n = true) (he : earlyOf s n f = none) (hc : isCxl s n = false) (hct : isCxl t n = false)
    (hw : withinCredits s n f = true) (hent : enterFrame n f a s = (o, t)) (hk : hchkOk f = true) (hcls : f.cls = clsBM) (hop : f.opcode = 0x81)
    (hst : f.status = stOK) : responseIn n f a s = responseRole n f a o t := by
  have hlisted : opcodeListed f.cls f.opcode.toNat = true := by rw [hcls, hop]; decide
  have hgood : decide (f.status.toNat ≥ 7) = false := by rw [hst]; decide
  simp [responseIn_den_of_taken hl he hc hct hw hent, hk, hlisted, hgood]

theorem responseRole_of_target_response (hcls : f.cls = clsBM) (hf : isFabric s n = false) (hh : isHost s n = false) :
    responseRole n f a o s = targetResponse n f a o s := by
  simp [responseRole, hf, hh, show (f.cls == clsCM) = false by rw [hcls]; decide]

theorem responseRole_of_host (hcls : f.cls = clsBM) (hf : isFabric s n = false) (hh : isHost s n = true) :
    responseRole n f a o s = copyGone o (bump .respDisc n s) := by
  simp [responseRole, hf, hh, show (f.cls == clsCM) = false by rw [hcls]; decide]

theorem responseRole_of_fabric (hop : f.opcode = 0x81) (hf : isFabric s n = true) (h0 : f.hops ≠ 0) (h3 : f.colour ≠ 3) :
    responseRole n f a o s = routeResponse (.port n) { f with hops := f.hops - 1 } a o s := by
  have hno : (f.opcode == 0x80) = false := by rw [hop]; decide
  simp only [responseRole, hf, if_true, beq_false_of_ne h0, beq_false_of_ne h3, Bool.false_eq_true, if_false, hno, Bool.and_false, Bool.false_and]

theorem targetResponse_of_none (h : outOf s n f = none) : targetResponse n f a o s = copyGone o (bump .respDisc n s) := by
  simp [targetResponse, h]

theorem targetResponse_of_some {q : OutReq} (h : outOf s n f = some q) (hearly : now s ≠ q.at_ + (cfgOf s n).respTimeout) :
    targetResponse n f a o s = deliverTo n q.asker f a o (modOut n (fun l => l.erase q) s) := by
  simp only [targetResponse, h, beq_false_of_ne hearly, Bool.false_eq_true, if_false]

end

/-! ### Response time-outs -/

section
variable {n tag : Nat} {s : State}

theorem denTimeout_of_elsewhere (h : isDen s n = false ∨ isDevice s n = false) : denTimeout n tag s = s := by
  rcases h with h | h <;> simp [denTimeout, h]

theorem denTimeout_of_none (h : (tget s.net.denOut n).find? (fun o => o.tag == tag && decide (now s > o.at_ + (cfgOf s n).respTimeout)) = none) :
    denTimeout n tag s = s := by
  simp [denTimeout, h]

theorem cxlTimeout_of_elsewhere (h : isCxl s n = false ∨ isDevice s n = false) : cxlTimeout n tag s = s := by
  rcases h with h | h <;> simp [cxlTimeout, h]

theorem cxlTimeout_of_none (h : (cxlOf s n).out.find? (fun o => o.tag == tag && decide (now s > o.at_ + (cfgOf s n).respTimeout)) = none) :
    cxlTimeout n tag s = s := by
  simp [cxlTimeout, h]

/-- A late request of a slice at a Den port is counted, told once per window and ended for its asker; at the threshold the port falls (R131, R182). -/
theorem denTimeout_of_slice {o : OutReq} {i k : Nat} {l : List Nat} {t e : State} (hd : isDen s n = true) (hv : isDevice s n = true)
    (ho : (tget s.net.denOut n).find? (fun o => o.tag == tag && decide (now s > o.at_ + (cfgOf s n).respTimeout)) = some o) (ha : o.asker = .slice i k)
    (ht : t = bump .denRespTo n (modOut n (fun l => l.erase o) s)) (hl : l = now t :: slide (now t) (cfgOf s n).window (tget (winOf t n).viol 7))
    (he : e = windowEvent n 7 { code := 0x0210, cls := .degraded, block := n / 2, arg := n } (modWin n (fun w => { w with viol := tset w.viol 7 l }) t)) :
    denTimeout n tag s = endAsker n (.slice i k) stTimeout (if (cfgOf s n).thresholds.getD 6 4 ≤ l.length then fall n 2 e else e) := by
  subst he hl ht
  simp only [denTimeout, hd, hv, Bool.not_true, Bool.or_self, Bool.false_eq_true, if_false, ho, ha, ge_iff_le]

theorem cxlTimeout_of_slice {o : OutReq} {i k : Nat} {t : State} (hc : isCxl s n = true) (hv : isDevice s n = true)
    (ho : (cxlOf s n).out.find? (fun o => o.tag == tag && decide (now s > o.at_ + (cfgOf s n).respTimeout)) = some o)
    (ht : t = violation n 7 (modCxl n (fun c => { c with out := c.out.erase o }) s)) (ha : o.asker = .slice i k) :
    cxlTimeout n tag s = memoryReturn i k (.memory (freeLine t).1 true) (freeLine t).2 := by
  subst ht
  simp only [cxlTimeout, hc, hv, Bool.not_true, Bool.or_self, Bool.false_eq_true, if_false, ho, ha]

theorem cxlTimeout_of_sliceWrite {o : OutReq} {i k : Nat} {t : State} (hc : isCxl s n = true) (hv : isDevice s n = true)
    (ho : (cxlOf s n).out.find? (fun o => o.tag == tag && decide (now s > o.at_ + (cfgOf s n).respTimeout)) = some o)
    (ht : t = violation n 7 (modCxl n (fun c => { c with out := c.out.erase o }) s)) (ha : o.asker = .sliceWrite i k) :
    cxlTimeout n tag s = endAsker n (.sliceWrite i k) stUnavail t := by
  subst ht
  simp only [cxlTimeout, hc, hv, Bool.not_true, Bool.or_self, Bool.false_eq_true, if_false, ho, ha]

/-- A requester's late read is answered with poison of a free value; the request's other parts are no longer waited for. -/
theorem cxlTimeout_of_read {o : OutReq} {q : Frame} {t u : State} (hc : isCxl s n = true) (hv : isDevice s n = true)
    (ho : (cxlOf s n).out.find? (fun o => o.tag == tag && decide (now s > o.at_ + (cfgOf s n).respTimeout)) = some o)
    (ht : t = violation n 7 (modCxl n (fun c => { c with out := c.out.erase o }) s)) (ha : o.asker = .frame q) (hio : o.io = false) (hread : o.read = true)
    (hu : u = modCxl n (fun c => { c with out := c.out.filter (fun x => match x.asker with | .frame g => !(g.tag == q.tag && g.sid == q.sid) | _ => true) }) t) :
    cxlTimeout n tag s = complete { q with data := [] } stPoison (leBytes q.length.toNat (drawFree u).1) (epochNow (drawFree u).2) (drawFree u).2 := by
  subst hu ht
  simp only [cxlTimeout, hc, hv, Bool.not_true, Bool.or_self, Bool.false_eq_true, if_false, ho, ha, hio, hread, if_true] <;> rfl

end
end Sys2Proof.Machine

namespace Sys2Proof.Proofs
open Sys2Proof Sys2Proof.Machine

/-- Settles O53: translation by the window a request hits, responses by their port's role, and late requests by their asker. -/
theorem translationAndResponses : Obligations.TranslationAndResponses := by
  refine ⟨fun lp pasid f g a o i fa s hm hn hp hg => ?_, fun lp f s t k hent he => ?_, fun lp tag s t => ?_⟩
  · obtain rfl : g = asHostRequest lp f s := hg
    exact ⟨fun ht hr => hostRequest_of_hit hm hp ht hr, fun ht hr => hostRequest_of_miss hm ht hr, fun ht hr => hostRequest_of_drained_hit hm hn hp ht hr⟩
  · have hrun : exec (.responseIngress lp f) s = finishStep (responseIn lp.val f (frameLen f) s) := rfl
    refine ⟨fun hl => exec_eq_of hrun ?_, fun hc hf => exec_eq_of hrun (by simp [responseIn, hc, hf]), fun hl hc hw => exec_eq_of hrun ?_, fun hl hc hct hw => ⟨fun hk => exec_eq_of hrun ?_, fun hk hcls hop hst => ?_⟩⟩
    · simp only [responseIn, arrive_of_not_live hl, ite_self]
    · simp only [responseIn, hc, Bool.false_and, Bool.false_eq_true, if_false]
      exact arrive_of_refused hl he (takePlace_den_beyond hc hw)
    · exact responseIn_of_bad_header hl he hc hct hw hent hk
    · have hrole := responseIn_of_data_completion hl he hc hct hw hent hk hcls hop hst
      exact ⟨fun hf hh ho => exec_eq_of hrun (hrole.trans ((responseRole_of_target_response hcls hf hh).trans (targetResponse_of_none ho))),
        fun o hf hh ho hearly => exec_eq_of hrun (hrole.trans ((responseRole_of_target_response hcls hf hh).trans (targetResponse_of_some ho hearly))),
        fun hf hh => exec_eq_of hrun (hrole.trans (responseRole_of_host hcls hf hh)),
        fun hf h0 h3 => exec_eq_of hrun (hrole.trans (responseRole_of_fabric hop hf h0 h3))⟩
  · have hden : exec (.denResponseTimeout lp tag) s = finishStep (denTimeout lp.val tag.toNat s) := rfl
    have hcxl : exec (.cxlMemTimeout lp tag) s = finishStep (cxlTimeout lp.val tag.toNat s) := rfl
    exact ⟨fun h => exec_eq_of hden (denTimeout_of_elsewhere h), fun h => exec_eq_of hden (denTimeout_of_none h),
      fun o l i k e hd hv ho ha ht hl he => exec_eq_of hden (denTimeout_of_slice hd hv ho ha ht hl he),
      fun h => exec_eq_of hcxl (cxlTimeout_of_elsewhere h), fun h => exec_eq_of hcxl (cxlTimeout_of_none h),
      fun o hc hv ho ht => ⟨fun i k ha => exec_eq_of hcxl (cxlTimeout_of_slice hc hv ho ht ha), fun i k ha => exec_eq_of hcxl (cxlTimeout_of_sliceWrite hc hv ho ht ha),
        fun q u ha hio hread hu => exec_eq_of hcxl (cxlTimeout_of_read hc hv ho ht ha hio hread hu)⟩⟩

end Sys2Proof.Proofs

end

section
/-! Messages and training of CXL ports (R158 to R168, R176). -/

namespace Sys2Proof.Machine

section
variable {n q : Nat} {s u : State}

theorem wakeDl_of_awake (hl1 : (lpOf s n).l1 = false) (hdl : (lpOf s n).dl = .dl0) : wakeDl n s = s := by
  simp [wakeDl, hl1, hdl]

theorem cxlIn_of_elsewhere {m : CxlMsg} (h : isCxl s n = false ∨ lpUp s n = false) : cxlIn n q m s = s := by
  rcases h with h | h <;> simp [cxlIn, h]

/-- A link's own messages act at once; any other is taken in its flit's order. -/
def cxlTaken (n q : Nat) (m : CxlMsg) (s : State) : State :=
  match m with
  | .linkError e => linkError n e s
  | .ack k => cxlAck n k s
  | .nak k only => cxlNak n k only s
  | m => cxlFlit n q m s

theorem cxlIn_of_up {m : CxlMsg} (hc : isCxl s n = true) (hup : lpUp s n = true) (hl1 : (lpOf s n).l1 = false) (hdl : (lpOf s n).dl = .dl0)
    (hu : u = modLp n (fun l => { l with lastFlit := now s }) s) : cxlIn n q m s = cxlTaken n q m u := by
  subst hu
  simp only [cxlIn, hc, hup, Bool.not_true, Bool.or_self, Bool.false_eq_true, if_false, wakeDl_of_awake hl1 hdl]
  cases m <;> rfl

theorem cxlTake_of_flit {m : CxlMsg} (he : ∀ e, m ≠ .linkError e) (ha : ∀ k, m ≠ .ack k) (hn : ∀ k b, m ≠ .nak k b) :
    cxlTaken n q m s = cxlFlit n q m s := by
  cases m
  case linkError e => exact absurd rfl (he e)
  case ack k => exact absurd rfl (ha k)
  case nak k b => exact absurd rfl (hn k b)
  all_goals rfl

variable {m : CxlMsg}

theorem cxlFlit_of_in_order (hq : q = flitAfter (cxlOf s n).mode (cxlOf s n).rxSeq) (hh : (cxlOf s n).held = []) : cxlFlit n q m s = cxlAccept n m s := by
  simp [cxlFlit, hq, hh, cxlHeld]

theorem cxlFlit_of_again (hm : (cxlOf s n).mode = .flit68) (hq : q ≠ flitAfter .flit68 (cxlOf s n).rxSeq)
    (hback : 128 ≤ (q + 256 - flitAfter .flit68 (cxlOf s n).rxSeq) % 256) : cxlFlit n q m s = emit (.cxl n (.ack (cxlOf s n).rxSeq)) s := by
  simp [cxlFlit, hm, hq, hback]

theorem cxlFlit_of_ahead (hm : (cxlOf s n).mode = .flit68) (hq : q ≠ flitAfter .flit68 (cxlOf s n).rxSeq)
    (hahead : (q + 256 - flitAfter .flit68 (cxlOf s n).rxSeq) % 256 < 128) : cxlFlit n q m s = emit (.cxl n (.nak (flitAfter .flit68 (cxlOf s n).rxSeq) false)) s := by
  simp [cxlFlit, hm, hq, Nat.not_le.mpr hahead]

theorem cxlMessage_of_no_credits {t : State} (hm : ∀ f, m ≠ .pbr f) (h : takeCredits n m (bwCount n true (cxlBytes m) s) = (none, t)) : cxlMessage n m s = t := by
  cases m
  case pbr f => exact absurd rfl (hm f)
  all_goals simp only [cxlMessage, h]

theorem cxlTrained_of_elsewhere {rate : Rate} {x : CxlTrain} (h : isCxl s n = false ∨ (lpOf s n).link ≠ .training ∨ portOn s n = false ∨ s.sec.tableOk = false) :
    cxlTrained n rate x s = s := by
  rcases h with h | h | h | h <;> simp [cxlTrained, h]

section
variable {rate : Rate} {x : CxlTrain} (hc : isCxl s n = true) (hlink : (lpOf s n).link = .training) (hidle : (lpOf s n).idleUntil = none)
  (hon : portOn s n = true) (htab : s.sec.tableOk = true) (hu : u = equalise n rate x (cxlLanes n rate x (takeNext n s)))
include hc hlink hidle hon htab hu

/-- A training that ends below 32 GT/s, or with an RCD partner, is out of service (R158). -/
theorem cxlTrained_of_short (h : rateGts rate < 32 ∨ x.rcd = true) :
    cxlTrained n rate x s = modLp n (fun l => { l with link := .outOfService, rate := rateCode rate }) (raise { code := 0x0202, cls := .degraded, block := n / 2, arg := rateGts rate } (bump .rateShort n u)) := by
  have hshort : (decide (rateGts rate < 32) || x.rcd) = true := by simpa using h
  subst hu
  simp only [cxlTrained, hc, hlink, hidle, hon, htab, bne_self_eq_false, Option.isSome_none, Bool.not_true, Bool.or_self, Bool.false_eq_true, if_false, hshort, if_true]

/-- Any other training comes up at its width, rate and flit mode. -/
theorem cxlTrained_of_full (hr : 32 ≤ rateGts rate) (hx : x.rcd = false) :
    cxlTrained n rate x s = agentBack n (startUp n (advertise n
      (modCxl n (fun _ => { mode := flitMode rate x, selNak := x.selNak, txSeq := if flitMode rate x = .flit68 then 0 else 1, rxSeq := if flitMode rate x = .flit68 then 255 else 0, lds := min x.lds 16 })
        (modLp n (fun l => { l with link := .up, rate := rateCode rate, width4 := if (cfgOf s n).width = 8 ∧ x.lanes ≤ 4 then some 0 else none, sinceUpDown := false, wentDown := false, l1 := false, l11 := false, huntFrom := none, lastFlit := now u }) u)))) := by
  have hfull : (decide (rateGts rate < 32) || x.rcd) = false := by simp [hx, hr]
  subst hu
  simp only [cxlTrained, hc, hlink, hidle, hon, htab, bne_self_eq_false, Option.isSome_none, Bool.not_true, Bool.or_self, Bool.false_eq_true, if_false, hfull, beq_iff_eq, Bool.and_eq_true, decide_eq_true_eq, cfgOf]
  congr!

end
end
end Sys2Proof.Machine

namespace Sys2Proof.Proofs
open Sys2Proof Sys2Proof.Machine

/-- Settles O54: messages of an up CXL port by their flit's place, and the two ends of a training. -/
theorem cxlMessages : Obligations.CxlMessages := by
  intro lp s u
  have hin : ∀ q m, exec (.cxlMessageIngress lp ⟨q, m⟩) s = finishStep (cxlIn lp.val q m s) := fun _ _ => rfl
  have htr : ∀ rate x, exec (.cxlLinkTrained lp rate x) s = finishStep (cxlTrained lp.val rate x s) := fun _ _ => rfl
  refine ⟨fun ⟨q, m⟩ h => exec_eq_of (hin q m) (cxlIn_of_elsewhere h), fun hc hup hl1 hdl hu => ?_, fun n m t hm h => cxlMessage_of_no_credits hm h,
    fun n => ⟨rfl, rfl, fun c k => rfl⟩, fun rate x h => exec_eq_of (htr rate x) (cxlTrained_of_elsewhere h),
    fun rate x hc hlink hidle hon htab hu => ⟨fun h => exec_eq_of (htr rate x) (cxlTrained_of_short hc hlink hidle hon htab hu h),
      fun hr hx => exec_eq_of (htr rate x) (cxlTrained_of_full hc hlink hidle hon htab hu hr hx)⟩⟩
  have htake : ∀ q m, exec (.cxlMessageIngress lp ⟨q, m⟩) s = .next (settle (cxlTaken lp.val q m u)) := fun q m => exec_eq_of (hin q m) (cxlIn_of_up hc hup hl1 hdl hu)
  have hcx : cxlOf u lp.val = cxlOf s lp.val := by rw [hu]; rfl
  refine ⟨fun q e => htake q _, fun q k => htake q _, fun q k b => htake q _, fun q m he ha hn => ?_⟩
  rw [htake q m, cxlTake_of_flit he ha hn, ← hcx]
  exact ⟨fun hq hh => by rw [cxlFlit_of_in_order hq hh], fun hm hq hback => by rw [cxlFlit_of_again hm hq hback], fun hm hq hahead => by rw [cxlFlit_of_ahead hm hq hahead]⟩

end Sys2Proof.Proofs

end

section
/-! The crossbar's arbitration and egress service (R202, R215 to R219, R273). -/

namespace Sys2Proof.Machine

/-! ### Folds that choose -/

/-- A fold that keeps its choice or takes the element in hand ends with one of the list's. -/
theorem mem_of_foldl_choice {α : Type} {f : Option α → α → Option α} (hf : ∀ m x, f m x = some x ∨ f m x = m) {l : List α} {m : Option α} {x : α}
    (h : l.foldl f m = some x) : x ∈ l ∨ m = some x := by
  induction l generalizing m with
  | nil => exact .inr h
  | cons y l ih =>
    rcases ih h with hmem | hy
    · exact .inl (List.mem_cons_of_mem _ hmem)
    · rcases hf m y with hm | hm <;> rw [hm] at hy
      · exact .inl (by simp [Option.some.inj hy])
      · exact .inr hy

/-- The least value of a row is at most each of the row's. -/
theorem foldl_least_le {α : Type} (f : α → Nat) (l : List α) (m : Nat) :
    l.foldl (fun m x => min m (f x)) m ≤ m ∧ ∀ y ∈ l, l.foldl (fun m x => min m (f x)) m ≤ f y := by
  induction l generalizing m with
  | nil => simp
  | cons x l ih =>
    obtain ⟨hm, hl⟩ := ih (min m (f x))
    refine ⟨hm.trans (min_le_left _ _), fun y hy => ?_⟩
    rcases List.mem_cons.mp hy with rfl | hy
    · exact hm.trans (min_le_right _ _)
    · exact hl y hy

/-! ### The crossbar -/

section
variable {s : State} {key : Nat} {x : XReq}

/-- The requests that one arbitration may pick: one of each requester and level that may be granted (R215). -/
def candidates (s : State) (key : Nat) : List XReq :=
  (s.sw.reqs.filter (fun x => arbOf x == key && mayGrant s x)).filter (offers (s.sw.reqs.filter (fun x => arbOf x == key && mayGrant s x)))

theorem mem_candidates_iff {y : XReq} : y ∈ candidates s key ↔
    (y ∈ s.sw.reqs ∧ arbOf y = key ∧ mayGrant s y = true) ∧ offers (s.sw.reqs.filter (fun x => arbOf x == key && mayGrant s x)) y = true := by
  simp only [candidates, List.mem_filter, Bool.and_eq_true, beq_iff_eq]

/-- The pick is a candidate of the most urgent level (R216). -/
theorem chooseGrant_spec (h : chooseGrant s key = some x) : x ∈ candidates s key ∧ ∀ y ∈ candidates s key, xLevel x ≤ xLevel y := by
  have hunfold : chooseGrant s key = match candidates s key with
    | [] => none
    | c :: cs =>
      let lvl := cs.foldl (fun m x => min m (xLevel x)) (xLevel c)
      let top := (candidates s key).filter (fun x => xLevel x == lvl)
      let a := tget s.sw.arbs key
      let other := top.filter (fun x => match x.dst with
        | .lp n => (n % 2 == 1) != a.lastHalf
        | .slice _ => false)
      let top := if key < 256 && !other.isEmpty && other.length < top.length then other else top
      let next := tget a.next lvl
      let best := fun (x : XReq) => (reqNo x + 145 - next) % 145
      top.foldl (fun m x => match m with
        | none => some x
        | some y => if best x < best y then some x else m) none := rfl
  rw [hunfold] at h
  generalize hcand : candidates s key = l at h ⊢
  cases l with
  | nil => exact absurd h (by simp)
  | cons c cs =>
    dsimp only at h
    rcases mem_of_foldl_choice (fun m y => by cases m with | none => exact .inl rfl | some z => dsimp only; split <;> simp) h with hmem | hnone
    · have htop : x ∈ (c :: cs).filter (fun x => xLevel x == cs.foldl (fun m x => min m (xLevel x)) (xLevel c)) := by
        split at hmem
        · exact (List.mem_filter.mp hmem).1
        · exact hmem
      obtain ⟨hin, hlvl⟩ := List.mem_filter.mp htop
      rw [beq_iff_eq] at hlvl
      obtain ⟨hc, hcs⟩ := foldl_least_le xLevel cs (xLevel c)
      refine ⟨hin, fun y hy => hlvl ▸ ?_⟩
      rcases List.mem_cons.mp hy with rfl | hy
      · exact hc
      · exact hcs y hy
    · exact absurd hnone (by simp)

theorem settleCur_of_none (h : (tget s.sw.arbs key).cur = none) : settleCur key s = (true, s) := by
  simp [settleCur, h]

/-- A transfer to a port that is not whole and that nothing revokes keeps its arbiter (R219). -/
theorem settleCur_of_kept {n : Nat} (h : (tget s.sw.arbs key).cur = some x) (hreq : s.sw.reqs = [x]) (hdst : x.dst = .lp n) (hcls : x.f.cls ≠ clsBM)
    (hpart : x.arrived < frameLen x.f) : settleCur key s = (false, s) := by
  have hcur : curReq s x = x := by simp [curReq, hreq]
  simp [settleCur, h, hcur, hreq, hdst, hcls, Nat.not_le.mpr hpart]

theorem grant_of_pick {a : ArbId} (h : (tget s.sw.arbs (arbKey a)).cur = none) (hx : chooseGrant s (arbKey a) = some x) :
    grant a s = carryGrant (arbKey a) x s := by
  simp [grant, settleCur_of_none h, hx]

theorem grant_of_no_pick {a : ArbId} (ha : ∀ i, a ≠ .slice i) (h : (tget s.sw.arbs (arbKey a)).cur = none) (hx : chooseGrant s (arbKey a) = none) :
    grant a s = s := by
  cases a with
  | slice i => exact absurd rfl (ha i)
  | port p => simp [grant, settleCur_of_none h, hx]
  | portFar p => simp [grant, settleCur_of_none h, hx]

theorem grant_of_no_pick_slice {i : SliceId} (h : (tget s.sw.arbs (arbKey (.slice i))).cur = none) (hx : chooseGrant s (arbKey (.slice i)) = none) :
    grant (.slice i) s = noteFull i.val s := by
  simp [grant, settleCur_of_none h, hx]

theorem grant_of_busy {a : ArbId} (h : settleCur (arbKey a) s = (false, s)) : grant a s = s := by
  simp [grant, h]

end

/-! ### Egress -/

section
variable {n q : Nat} {s t : State}

theorem egressDequeue_of_shut (h : lpUp s n = false ∨ (lpOf s n).dl ≠ .dl0 ∨ (lpOf s n).l1 = true) : egressDequeue n s = s := by
  have hshut : (!lpUp s n || (lpOf s n).dl != .dl0 || (lpOf s n).l1) = true := by
    simpa only [Bool.or_eq_true, Bool.not_eq_true', bne_iff_ne, or_assoc] using h
  simp [egressDequeue, hshut]

section
variable {v : State} (hup : lpUp s n = true) (hdl : (lpOf s n).dl = .dl0) (hl1 : (lpOf s n).l1 = false)
include hup hdl hl1

theorem egressDequeue_of_idle (hq : chooseQueue n (countDeferred n (shaperRefill s)) = (none, v)) : egressDequeue n s = v := by
  simp only [egressDequeue, hup, hdl, hl1, Bool.not_true, bne_self_eq_false, Bool.or_self, Bool.false_eq_true, if_false, hq]

theorem egressDequeue_of_go {h : QFrame} (hq : chooseQueue n (countDeferred n (shaperRefill s)) = (some q, v)) (hh : headFree v n q = some h)
    (hg : gateSays v n q (frameLen h.f) = .go) : egressDequeue n s = handOver n h (popQueue n q h (chargeQueue n q (frameLen h.f) v)) := by
  simp only [egressDequeue, hup, hdl, hl1, Bool.not_true, bne_self_eq_false, Bool.or_self, Bool.false_eq_true, if_false, hq, hh, hg,
    show (GateSays.go == GateSays.overrun) = false from rfl]

end

theorem chooseQueue_of_none (h : ∀ q, q < 8 → eligible t n q = false) : chooseQueue n t = (none, t) := by
  have hany : (List.range 7).any (fun q => eligible t n q) = false := by
    simp only [List.any_eq_false, List.mem_range, Bool.not_eq_true]
    exact fun q hq => h q (by omega)
  simp only [chooseQueue, h 7 (by omega), hany, Bool.false_eq_true, if_false]

theorem chooseQueue_of_q7 (h : eligible t n 7 = true) : chooseQueue n t = (some 7, t) := by
  simp [chooseQueue, h]

/-! ### The deficit round robin -/

theorem headFree_modEgress (m : Nat) (g : EgressSt → EgressSt) : headFree (modEgress m g s) n q = headFree s n q := rfl

/-- What a queue may send does not depend on its deficit. -/
theorem headFree_add_deficit (d : Nat) : headFree (modQueue (8 * n + q) (fun x => { x with deficit := x.deficit + d }) s) n q = headFree s n q := by
  have hq : tget (modQueue (8 * n + q) (fun x => { x with deficit := x.deficit + d }) s).sw.queues (8 * n + q) =
      { tget s.sw.queues (8 * n + q) with deficit := (tget s.sw.queues (8 * n + q)).deficit + d } :=
    tget_tmod_self s.sw.queues _ (fun x => { x with deficit := x.deficit + d })
  simp only [headFree, shaperBlocks, channelHeads, queueAt, hq]
  rfl

/-- A visit credits the queue with its weight, once (R202). -/
def dwrrVisit (n : Nat) (s : State) : State :=
  if (egressOf s n).visited then s
  else modEgress n (fun e => { e with visited := true }) (modQueue (8 * n + (egressOf s n).next) (fun x => { x with deficit := x.deficit + weightOf (egressOf s n).next * 256 }) s)

/-- The robin goes on to the next of Q0 to Q6. -/
def dwrrOn (n : Nat) (q : Nat) (s : State) : State := modEgress n (fun e => { e with next := if q = 0 then 6 else q - 1, visited := false }) s

theorem headFree_dwrrVisit : headFree (dwrrVisit n s) n (egressOf s n).next = headFree s n (egressOf s n).next := by
  unfold dwrrVisit
  split
  · rfl
  · rw [headFree_modEgress, headFree_add_deficit]

theorem egressOf_dwrrOn : egressOf (dwrrOn n q s) n = { egressOf s n with next := if q = 0 then 6 else q - 1, visited := false } :=
  tget_tmod_self s.sw.egress n (fun e => { e with next := if q = 0 then 6 else q - 1, visited := false })

theorem dwrr_succ (fuel : Nat) : dwrr n (fuel + 1) s =
    match headFree s n (egressOf s n).next with
    | none => dwrr n fuel (dwrrOn n (egressOf s n).next s)
    | some h =>
      if !eligible s n (egressOf s n).next then dwrr n fuel (dwrrOn n (egressOf s n).next s)
      else if frameLen h.f ≤ (queueAt (dwrrVisit n s) n (egressOf s n).next).deficit then (some (egressOf s n).next, dwrrVisit n s)
      else dwrr n fuel (dwrrOn n (egressOf s n).next (dwrrVisit n s)) := rfl

theorem next_dwrrOn_le (h : q ≤ 6) : (egressOf (dwrrOn n q s) n).next ≤ 6 := by
  rw [egressOf_dwrrOn]
  dsimp only
  split <;> omega

/-- The round robin serves a queue that has a frame to send which its deficit covers (R202). -/
theorem dwrr_spec {fuel : Nat} (hnext : (egressOf s n).next ≤ 6) (h : dwrr n fuel s = (some q, t)) :
    q ≤ 6 ∧ ∃ h, headFree t n q = some h ∧ frameLen h.f ≤ (queueAt t n q).deficit := by
  induction fuel generalizing s with
  | zero => exact absurd (congrArg Prod.fst h) (by simp [dwrr])
  | succ fuel ih =>
    rw [dwrr_succ] at h
    split at h
    · exact ih (next_dwrrOn_le hnext) h
    next x hx =>
      split at h
      · exact ih (next_dwrrOn_le hnext) h
      · split at h
        next hfits =>
          obtain ⟨rfl, rfl⟩ : (egressOf s n).next = q ∧ dwrrVisit n s = t := by simpa using h
          exact ⟨hnext, x, headFree_dwrrVisit.trans hx, hfits⟩
        · exact ih (next_dwrrOn_le hnext) h

end
end Sys2Proof.Machine

namespace Sys2Proof.Proofs
open Sys2Proof Sys2Proof.Machine

/-- Settles O55: the pick is a candidate of the most urgent level, and it is carried across. -/
theorem crossbarGrants : Obligations.CrossbarGrants := by
  refine ⟨fun a s => ?_, fun s key x h => ?_⟩
  · have hrun : exec (.crossbarGrant a) s = finishStep (grant a s) := rfl
    refine ⟨fun hc hx hno => exec_eq_of hrun ?_, fun i ha hc hx => exec_eq_of hrun ?_, fun x hc hx => exec_eq_of hrun (grant_of_pick hc hx),
      fun x n hc hreq hdst hcls hpart => exec_eq_of hrun (grant_of_busy (settleCur_of_kept hc hreq hdst hcls hpart))⟩
    · exact grant_of_no_pick hno hc hx
    · subst ha
      exact grant_of_no_pick_slice hc hx
  · obtain ⟨hmem, hleast⟩ := chooseGrant_spec h
    obtain ⟨⟨hin, harb, hmay⟩, -⟩ := mem_candidates_iff.mp hmem
    exact ⟨hin, harb, hmay, fun y hy hya hym hyo => hleast y (mem_candidates_iff.mpr ⟨⟨hy, hya, hym⟩, hyo⟩)⟩

/-- Settles O56: what a port's egress serves, Q7 first, then the deficit round robin. -/
theorem egressService : Obligations.EgressService := by
  refine ⟨fun lp s t ht => ?_, fun n fuel s t q hnext h => dwrr_spec hnext h⟩
  have hrun : exec (.egressDequeue lp) s = finishStep (egressDequeue lp.val s) := rfl
  rw [ht]
  refine ⟨fun h => ?_, fun hup hdl hl1 hnone => ?_, fun q v h hup hdl hl1 hq hh hg => ?_, fun h7 => ?_⟩
  · exact exec_eq_of hrun (egressDequeue_of_shut h)
  · exact exec_eq_of hrun (egressDequeue_of_idle hup hdl hl1 (chooseQueue_of_none hnone))
  · exact exec_eq_of hrun (egressDequeue_of_go hup hdl hl1 hq hh hg)
  · exact chooseQueue_of_q7 h7

end Sys2Proof.Proofs

end

section
/-! Holds, merges, shapers, time gates, rule swaps and the destruction of bindings (R198, R213, R221, R251 to R285, R455, R481 to R484). -/

namespace Sys2Proof.Machine

section
variable {s : State}

/-! ### Merges, freezes and held routes -/

theorem mergeExpire_of_none {id : Nat} (h : s.sw.merges.find? (fun m => m.id == id) = none) : mergeExpire id s = s := by
  simp [mergeExpire, h]

theorem mergeExpire_of_early {id : Nat} {m : Merge} (h : s.sw.merges.find? (fun m => m.id == id) = some m) (hd : now s ≤ m.deadline) : mergeExpire id s = s := by
  simp [mergeExpire, h, hd]

theorem mergeExpire_of_late {id : Nat} {m : Merge} (h : s.sw.merges.find? (fun m => m.id == id) = some m) (hd : m.deadline < now s) :
    mergeExpire id s = answer m.req (BitVec.ofNat 4 ((mergeOrder.find? (fun x => (6 :: m.statuses).contains x)).getD 6)) [] m.epoch
      { s with sw := { s.sw with merges := s.sw.merges.filter (fun x => x.id != id) } } := by
  simp only [mergeExpire, h, Nat.not_le.mpr hd, if_false, modSw]

theorem freezeExpire_of_thawed {p : Nat} (h : (portOf s p).freeze = false) : freezeExpire p s = s := by
  simp [freezeExpire, h]

/-- The only request that waited for a frozen port beyond its limit is lost as not yet handed to the link (R221). -/
theorem freezeExpire_of_late {p n : Nat} {x : XReq} (hz : (portOf s p).freeze = true) (harbs : s.sw.arbs = []) (hreq : s.sw.reqs = [x]) (hdst : x.dst = .lp n)
    (hn : n / 2 = p) (hlate : x.since + (cfgOf s n).freezeLimit < now s) :
    freezeExpire p s = copyGone x.orig (loseFrame n x.src x.f stUnavail (bump .freezeExp n { s with sw := { s.sw with reqs := [] } })) := by
  simp [freezeExpire, hz, harbs, hreq, hdst, hn, hlate, modSw]

theorem routeRelease_of_other {did : Nat} (h : (tget s.sw.holds did).why ≠ some .route) : routeRelease did s = s := by
  simp [routeRelease, h]

theorem routeRelease_of_over {did : Nat} (h : (tget s.sw.holds did).why = some .route)
    (hover : (tget s.sw.holds did).until_ ≤ now s ∨ didQuiet s (tget s.sw.holds did).oldLp did = true) : routeRelease did s = releaseHeld did s := by
  rcases hover with hover | hover <;> simp [routeRelease, h, hover]

theorem routeRelease_of_held {did : Nat} (hearly : now s < (tget s.sw.holds did).until_) (hbusy : didQuiet s (tget s.sw.holds did).oldLp did = false) :
    routeRelease did s = s := by
  simp [routeRelease, hbusy, Nat.not_le.mpr hearly]

/-! ### Shapers -/

theorem shaperRefill_of_not_due (h : now s % 128 ≠ 0 ∨ s.tm.suspended = true ∨ s.tm.refilled = now s + 1) : shaperRefill s = s := by
  rcases h with h | h | h <;> simp [shaperRefill, h]

section
variable (hdue : now s % 128 = 0) (hnew : s.tm.refilled ≠ now s + 1) (hrun : s.tm.suspended = false) (hq : s.sw.queues = []) (hheld : s.tm.held = [])
include hdue hnew hrun hq hheld

theorem shaperRefill_of_no_shapers (hsh : s.tm.shapers = []) : shaperRefill s = { s with tm := { s.tm with refilled := now s + 1 } } := by
  simp only [shaperRefill, hdue, bne_self_eq_false, beq_false_of_ne hnew, hrun, Bool.or_self, Bool.false_eq_true, if_false, hq, hheld, hsh, modTm,
    List.filter_nil, List.map_nil, List.foldl_nil]

/-- Where nothing waits a refill fills the only configured shaper (R251). -/
theorem shaperRefill_of_one_shaper {k : Nat} {x : ShaperSt} (hsh : s.tm.shapers = [(k, x)]) (hx : x.configured = true) :
    shaperRefill s = { s with tm := { s.tm with refilled := now s + 1, shapers := tset s.tm.shapers k (refillShaper { s with tm := { s.tm with refilled := now s + 1 } } k) } } := by
  have hget : tget [(k, x)] k = x := by simp [tget]
  simp only [shaperRefill, hdue, bne_self_eq_false, beq_false_of_ne hnew, hrun, Bool.or_self, Bool.false_eq_true, if_false, hq, hheld, hsh, modTm,
    List.filter_nil, List.map_nil, List.foldl_nil, List.map_cons, List.foldl_cons, hget, hx, Bool.true_or, if_true, setShaper]

end

theorem takeThrottle_of_foreign {f : Frame} (h : liveBind s (handleAt f.data 0) = none) :
    takeThrottle f s = bump .shForeign (hIdx (handleAt f.data 0)) s := by
  simp [takeThrottle, throttleNotice, h]

theorem takeThrottle_of_live {f : Frame} {x : Binding} (h : liveBind s (handleAt f.data 0) = some x) :
    takeThrottle f s = throttleNotice (handleAt f.data 0) true (markBinding (handleAt f.data 0) (fieldAt f.data 5 1) s) := by
  simp [takeThrottle, h]

section
variable {b : Handle} {x : Binding} {y : ShaperSt}

/-- A notice lowers the rate of a shaper that responds, down to its floor (R259). -/
theorem throttleNotice_of_responding {w : Bool} (hb : liveBind s b = some x) (hy : y = shaperOf s (hIdx b)) (hthr : y.par.throttle = true) (hlast : y.lastDec = none) :
    throttleNotice b w s = bump .shDec (hIdx b) (setShaper (hIdx b) { y with re := max (y.re - y.re / 2 ^ y.par.d) (y.par.rate * 2 ^ 24 / 2 ^ y.par.f), lastDec := some (now s), lastNotice := now s } s) := by
  subst hy
  simp only [throttleNotice, hb, hthr, hlast, Bool.not_true, Bool.false_eq_true, if_false, one24]

theorem throttleRecover_of_gone (hb : liveBind s b = none) : throttleRecover b s = s := by
  simp [throttleRecover, hb]

theorem throttleRecover_of_due (hb : liveBind s b = some x) (hy : y = shaperOf s (hIdx b)) (hre : y.re < y.par.rate * 2 ^ 24) (hdue : y.lastNotice + y.par.recov < now s) :
    throttleRecover b s = setShaper (hIdx b) { y with re := min (y.par.rate * 2 ^ 24) (y.re + y.par.rate * 2 ^ 24 / 32), lastNotice := y.lastNotice + y.par.recov } s := by
  have hgo : (decide ((shaperOf s (hIdx b)).re < (shaperOf s (hIdx b)).par.rate * 2 ^ 24) &&
      decide (now s > (shaperOf s (hIdx b)).lastNotice + (shaperOf s (hIdx b)).par.recov)) = true := by
    rw [← hy]
    simp only [hre, hdue, decide_true, Bool.and_self]
  subst hy
  simp only [throttleRecover, hb, one24]
  exact if_pos hgo

theorem throttleRecover_of_early (h : now s ≤ (shaperOf s (hIdx b)).lastNotice + (shaperOf s (hIdx b)).par.recov) : throttleRecover b s = s := by
  simp only [throttleRecover, gt_iff_lt, Nat.not_lt.mpr h, decide_false, Bool.and_false, Bool.false_eq_true, if_false]
  split <;> rfl

end

/-! ### Time gates -/

theorem slotBoundary_of_due {n u : Nat} (h : (tgOf s n).openUntil = some u) (hu : u ≤ now s) : slotBoundary n s = modTg n (fun g => { g with openUntil := none }) s := by
  simp [slotBoundary, h, hu]

theorem slotBoundary_of_early {n u : Nat} (h : (tgOf s n).openUntil = some u) (hu : now s < u) : slotBoundary n s = s := by
  simp [slotBoundary, h, Nat.not_le.mpr hu]

theorem gateSwapAt_of_early {n t : Nat} (h : (tgOf s n).committed = some t) (ht : now s < t) : gateSwapAt n s = s := by
  simp [gateSwapAt, h, ht]

theorem gateSwapAt_of_due {n t : Nat} (h : (tgOf s n).committed = some t) (ht : t ≤ now s) :
    gateSwapAt n s = bump .tgSwaps n (modTg n (fun g => { g with active := !g.active, live := true, committed := none }) s) := by
  have htake : gateDue (tgOf s n) (now s) = { tgOf s n with active := !(tgOf s n).active, live := true, committed := none } := by
    simp [gateDue, h, Nat.not_lt.mpr ht]
  simp only [gateSwapAt, h, Nat.not_lt.mpr ht, if_false, modTg, modTm, tmod]
  rw [show tget s.tm.gates n = tgOf s n from rfl, htake]

end

/-! ### Rule sets and the destruction of bindings -/

section
variable {h : Handle} {s t : State}

theorem ruleSwap_of_none (hsw : (ruleSetOf s h).swapAt = none) : ruleSwap h s = s := by
  simp [ruleSwap, hsw]

theorem ruleSwap_of_early {k : Nat} (hsw : (ruleSetOf s h).swapAt = some k) (hk : now s < k) : ruleSwap h s = s := by
  simp [ruleSwap, hsw, hk]

theorem ruleSetOf_modRules (g : RuleSet → RuleSet) : ruleSetOf (modRules h g s) h = g (ruleSetOf s h) := tget_tmod_self _ _ _

theorem ruleSwap_of_due {k : Nat} (hsw : (ruleSetOf s h).swapAt = some k) (hk : k ≤ now s) (hr : (ruleSetOf s h).withRecall = false)
    (ht : t = modRules h (fun r => { r with committed := r.next, next := [], swapAt := none, lastSwap := k }) s) :
    ruleSwap h s = (gatesOfLists s (ruleSetOf s h).committed (ruleSetOf s h).next).foldl (fun s g => modGate g (fun x => { x with lastSwap := k }) s) t := by
  subst ht
  simp only [ruleSwap, hsw, Nat.not_lt.mpr hk, hr, Bool.false_eq_true, if_false]

theorem commitDrained_of_not_awaited (ha : (ruleSetOf s h).awaitDrain = false) : commitDrained h s = s := by
  simp [commitDrained, ha]

theorem commitDrained_of_quiet (ha : (ruleSetOf s h).awaitDrain = true) (hsw : (ruleSetOf s h).swapAt = none) (hg : s.ten.gates = []) :
    commitDrained h s = modRules h (fun r => { r with awaitDrain := false }) s := by
  simp [commitDrained, ha, hsw, hg]

variable {fuel : Nat}

theorem bindProgress_of_gone (hl : liveHandle s h = false) : bindProgress (fuel + 1) h s = s := by
  simp [bindProgress, hl]

theorem bindProgress_of_busy (hstep : (bindOf s (hIdx h)).step = 2) (hbusy : bindQuiet s h = false ∨ (bindOf s (hIdx h)).posted ≠ 0) :
    bindProgress (fuel + 1) h s = s := by
  have hquiet : (bindQuiet s h && (bindOf s (hIdx h)).posted == 0) = false := by
    rcases hbusy with hb | hb <;> simp [hb]
  simp only [bindProgress, hstep, hquiet, Bool.false_eq_true, if_false, ite_self]

/-- Step 4 waits for the writes to be durable, where the slice is persistent and this module's (R455). -/
theorem bindProgress_of_step4 (hl : liveHandle s h = true) (hstep : (bindOf s (hIdx h)).step = 4) :
    bindProgress (fuel + 1) h s = if (!(sliceOf s (bindOf s (hIdx h)).slice).persistent || decide (max (bindOf s (hIdx h)).lastEpoch (bindOf s (hIdx h)).highEpoch ≤
      (if ownsSlice s (bindOf s (hIdx h)).slice then s.hoard.durable else s.hoard.fabricDurable))) then bindB5 h s else s := by
  simp only [bindProgress, hl, hstep, Bool.not_true, Bool.false_eq_true, if_false]

end
end Sys2Proof.Machine

namespace Sys2Proof.Proofs
open Sys2Proof Sys2Proof.Machine

/-- Settles O57: holds, shapers, time gates, rule swaps and teardown each act at their own instant and not before. -/
theorem holdsShapersAndRuleSwaps : Obligations.HoldsShapersAndRuleSwaps := by
  refine ⟨fun s => ?_, fun s => ?_, fun h s t => ?_⟩
  · exact ⟨fun id h => exec_eq_of rfl (mergeExpire_of_none h), fun id m h hd => exec_eq_of rfl (mergeExpire_of_early h hd), fun id m h hd => exec_eq_of rfl (mergeExpire_of_late h hd),
      fun p h => exec_eq_of rfl (freezeExpire_of_thawed h), fun p x n hz harbs hreq hdst hn hlate => exec_eq_of rfl (freezeExpire_of_late hz harbs hreq hdst hn hlate),
      fun did h => exec_eq_of rfl (routeRelease_of_other h), fun did h hover => exec_eq_of rfl (routeRelease_of_over h hover), fun did he hb => exec_eq_of rfl (routeRelease_of_held he hb)⟩
  · have hrefill : exec .shaperRefill s = finishStep (shaperRefill s) := rfl
    exact ⟨fun h => exec_eq_of hrefill (shaperRefill_of_not_due (.inl h)), fun h => exec_eq_of hrefill (shaperRefill_of_not_due (.inr (.inl h))),
      fun h => exec_eq_of hrefill (shaperRefill_of_not_due (.inr (.inr h))), fun hd hn hr hq hh hs => exec_eq_of hrefill (shaperRefill_of_no_shapers hd hn hr hq hh hs),
      fun k x hd hn hr hq hh hs hx => exec_eq_of hrefill (shaperRefill_of_one_shaper hd hn hr hq hh hs hx),
      fun f h => exec_eq_of rfl (takeThrottle_of_foreign h), fun f x h => exec_eq_of rfl (takeThrottle_of_live h),
      fun b x y w hb hy hthr hlast => throttleNotice_of_responding hb hy hthr hlast, fun b hb => exec_eq_of rfl (throttleRecover_of_gone hb),
      fun b x y hb hy hre hdue => exec_eq_of rfl (throttleRecover_of_due hb hy hre hdue), fun b h => exec_eq_of rfl (throttleRecover_of_early h),
      fun lp u h hu => exec_eq_of rfl (slotBoundary_of_due h hu), fun lp u h hu => exec_eq_of rfl (slotBoundary_of_early h hu),
      fun lp t h ht => exec_eq_of rfl (gateSwapAt_of_early h ht), fun lp t h ht => exec_eq_of rfl (gateSwapAt_of_due h ht)⟩
  · have hprog : exec (.bindDestroyProgress h) s = finishStep (bindProgress 4 h s) := rfl
    refine ⟨fun hs => exec_eq_of rfl (ruleSwap_of_none hs), fun k hs hk => exec_eq_of rfl (ruleSwap_of_early hs hk),
      fun k hs hk hr ht => ⟨by rw [ht, ruleSetOf_modRules], exec_eq_of rfl (ruleSwap_of_due hs hk hr ht)⟩, fun ha => exec_eq_of rfl (commitDrained_of_not_awaited ha),
      fun ha hs hg => exec_eq_of rfl (commitDrained_of_quiet ha hs hg), fun hl => exec_eq_of hprog (bindProgress_of_gone hl),
      fun hstep hbusy => exec_eq_of hprog (bindProgress_of_busy hstep hbusy), fun hl hstep hp => exec_eq_of hprog ?_, fun hl hstep hown hdur => exec_eq_of hprog ?_,
      fun hstep hp hown hdur => exec_eq_of hprog ?_⟩
    · simp [bindProgress_of_step4 hl hstep, hp]
    · simp only [bindProgress_of_step4 hl hstep, hown, if_true, hdur, decide_true, Bool.or_true]
    · cases hl : liveHandle s h with
      | false => exact bindProgress_of_gone hl
      | true => simp only [bindProgress_of_step4 hl hstep, hp, hown, if_true, Nat.not_le.mpr hdur, decide_false, Bool.not_true, Bool.or_self, Bool.false_eq_true, if_false]

end Sys2Proof.Proofs

end

section
/-! Requests, notices and snoop answers at a Brock slice (R291 to R325). -/

namespace Sys2Proof.Machine

section
variable {i lp : Nat} {f : Frame} {s u v : State}

/-! ### Requests -/

theorem sliceRequest_of_bad_header (hu : u = bumpC .lookups i 0 1 (ctxOf s f) s) (hk : hchkOk f = false) :
    sliceRequest i lp f s = hchkFailure lp (138 + i) f u := by
  subst hu
  simp only [sliceRequest, hk, Bool.not_false, if_true]

theorem sliceRequest_of_malformed (hu : u = bumpC .lookups i 0 1 (ctxOf s f) s) (hk : hchkOk f = true) (hw : cmWellFormed f = false) :
    sliceRequest i lp f s = sendCmp i lp f stUnsup (protoError lp (bump .cohViolS i u)) := by
  subst hu
  simp only [sliceRequest, hk, hw, Bool.not_true, Bool.not_false, Bool.false_eq_true, if_false, if_true]

theorem sliceRequest_of_closed (hu : u = bumpC .lookups i 0 1 (ctxOf s f) s) (hk : hchkOk f = true) (hw : cmWellFormed f = true)
    (h : u.dev.st = .hibernate ∨ (slOf u i).lost.getLsbD lp = true) : sliceRequest i lp f s = sendCmp i lp f stUnavail u := by
  have hclosed : (u.dev.st == .hibernate || (slOf u i).lost.getLsbD lp) = true := by
    simpa only [Bool.or_eq_true, beq_iff_eq] using h
  subst hu
  simp only [sliceRequest, hk, hw, hclosed, Bool.not_true, Bool.false_eq_true, if_false, if_true]

/-- What a refused request leaves: the refusal is counted and the requester told (R467). -/
def refused (i lp : Nat) (f : Frame) (rs : Handle) (v : State) : State :=
  let t := bumpC .refusals (hIdx f.binding) 0 1 (ctxOf v f) v
  sendCmp i lp f stFault (if isWrite f && fromCxl t f && !isAtomic f then addNotice f.binding .refused rs 0 t else t)

/-- What a request that its gate passed does: it takes a tracker, runs or waits behind its line's flow, or waits at the crossbar (R291, R293). -/
def admitted (i lp : Nat) (f : Frame) (v : State) : State :=
  match freeTrk v i with
  | none => noteFull i (raiseX (.port lp) (.slice i) f (frameLen f) 0 v)
  | some k =>
    let t := noteFull i (modTrk i k (fun _ => { used := true, line := lineOf (fAddr f), lp := lp, f := f, phase := if (busyTrk v i (lineOf (fAddr f))).isSome then .conflict else .run, bulk := false, since := now v }) v)
    if (busyTrk v i (lineOf (fAddr f))).isSome then bump .conflicts i (modSl i (fun x => { x with conflicts := x.conflicts ++ [(lineOf (fAddr f), k)] }) t)
    else pump i (makeReady i k t)

section
variable (hu : u = bumpC .lookups i 0 1 (ctxOf s f) s) (hk : hchkOk f = true) (hw : cmWellFormed f = true) (hst : u.dev.st ≠ .hibernate)
  (hlost : (slOf u i).lost.getLsbD lp = false)
include hu hk hw hst hlost

theorem sliceRequest_of_noncoherent (hc : coherentLine u (lineOf (fAddr f)) = false) (ha : isAtomic f = false) :
    sliceRequest i lp f s = sendCmp i lp f stUnsup u := by
  subst hu
  simp only [sliceRequest, hk, hw, beq_false_of_ne hst, hlost, hc, ha, Bool.not_true, Bool.not_false, Bool.or_self, Bool.and_self, Bool.false_eq_true, if_false, if_true]

variable (hc : coherentLine u (lineOf (fAddr f)) = true) (hr : remoteLp u (lineOf (fAddr f)) = none)
include hc hr

theorem sliceRequest_of_passed (hg : gateCheck i f u = (.pass, v)) : sliceRequest i lp f s = admitted i lp f v := by
  subst hu
  unfold sliceRequest admitted
  -- the search among 2,048 trackers is opaque here: nothing turns on how it finds one
  generalize freeTrk = free
  simp only [hk, hw, beq_false_of_ne hst, hlost, hc, hr, hg, Bool.not_true, Bool.or_self, Bool.false_and, Option.isSome_none, Bool.false_eq_true, if_false] <;> rfl

theorem sliceRequest_of_refused {rs : Handle} (hg : gateCheck i f u = (.refuse rs, v)) : sliceRequest i lp f s = refused i lp f rs v := by
  subst hu
  simp only [sliceRequest, hk, hw, beq_false_of_ne hst, hlost, hc, hr, hg, Bool.not_true, Bool.or_self, Bool.false_and, Option.isSome_none, Bool.false_eq_true, if_false]
  rfl

end

theorem admitted_of_running {k : Nat} (hf : freeTrk v i = some k) (hb : busyTrk v i (lineOf (fAddr f)) = none) :
    admitted i lp f v = pump i (makeReady i k (noteFull i (modTrk i k (fun _ => { used := true, line := lineOf (fAddr f), lp := lp, f := f, phase := .run, bulk := false, since := now v }) v))) := by
  unfold admitted
  generalize freeTrk = free at hf ⊢
  simp only [hf, hb, Option.isSome_none, Bool.false_eq_true, if_false]

theorem admitted_of_conflict {k b : Nat} (hf : freeTrk v i = some k) (hb : busyTrk v i (lineOf (fAddr f)) = some b) :
    admitted i lp f v = bump .conflicts i (modSl i (fun x => { x with conflicts := x.conflicts ++ [(lineOf (fAddr f), k)] })
      (noteFull i (modTrk i k (fun _ => { used := true, line := lineOf (fAddr f), lp := lp, f := f, phase := .conflict, bulk := false, since := now v }) v))) := by
  unfold admitted
  generalize freeTrk = free at hf ⊢
  simp only [hf, hb, Option.isSome_some, if_true]

theorem admitted_of_full (hf : freeTrk v i = none) : admitted i lp f v = noteFull i (raiseX (.port lp) (.slice i) f (frameLen f) 0 v) := by
  unfold admitted
  generalize freeTrk = free at hf ⊢
  simp only [hf]

theorem refused_of_read {rs : Handle} (hw : isWrite f = false) : refused i lp f rs v = sendCmp i lp f stFault (bumpC .refusals (hIdx f.binding) 0 1 (ctxOf v f) v) := by
  simp [refused, hw]

/-! ### Notices of agents -/

section
variable {key : Nat} (hu : u = bumpC .lookups i 0 1 (ctxOf s f) s) (hk : hchkOk f = true) (hw : cmWellFormed f = true) (hlost : (slOf u i).lost.getLsbD lp = false)
include hu hk hw hlost

/-- A notice of a line that is not recorded: a write-back is a violation, an eviction is stale (R313, R315). -/
theorem sliceNotice_of_unrecorded (hd : dirKey u i (lineOf (fAddr f)) = none) :
    sliceNotice i lp f s = if f.opcode.toNat == 0x10 then sendCmp i lp f stUnsup (agentViolation lp (bump .cohViolS i u)) else sendCmp i lp f stOK (bump .stale i u) := by
  subst hu
  simp only [sliceNotice, hk, hw, hlost, hd, Bool.not_true, Bool.false_eq_true, if_false]

variable (hd : dirKey u i (lineOf (fAddr f)) = some key)
include hd

theorem sliceNotice_of_owned_eviction (hop : f.opcode = 0x11) (ho : recordsOwner u i key lp = true) :
    sliceNotice i lp f s = sendCmp i lp f stOK (removeAgent i key lp (markNoticed i lp (lineOf (fAddr f)) u)) := by
  subst hu
  simp [sliceNotice, hk, hw, hlost, hd, hop, ho]

theorem sliceNotice_of_shared_eviction (hop : f.opcode = 0x12) (hco : (dirAt u i key).coarse = false) (hs : recordsAgent (dirAt u i key) lp = true)
    (ho : recordsOwner u i key lp = false) : sliceNotice i lp f s = sendCmp i lp f stOK (removeAgent i key lp (markNoticed i lp (lineOf (fAddr f)) u)) := by
  subst hu
  simp [sliceNotice, hk, hw, hlost, hd, hop, hco, hs, ho]

theorem sliceNotice_of_write_back (hop : f.opcode = 0x10) (ho : recordsOwner u i key lp = true)
    (ht : takeDirty (lineOf (fAddr f)) (lineFrom f.data) (f.status == stPoison) u = (false, v)) :
    sliceNotice i lp f s = sendCmp i lp f stOK (removeAgent i key lp (markNoticed i lp (lineOf (fAddr f)) v)) := by
  subst hu
  simp [sliceNotice, hk, hw, hlost, hd, hop, ho, ht]

end

/-! ### Snoop answers -/

section
variable (hu : u = bumpC .lookups i 0 1 (ctxOf s f) s) (hk : hchkOk f = true) (hw : cmWellFormed f = true) (htag : f.tag.toNat < 0x800)
include hu hk hw htag

theorem sliceAnswer_of_unawaited (hd : dueOf u i f.tag.toNat lp = none) :
    sliceAnswer i lp f s = if isCxl u lp = true then violation lp 3 u else protoError lp u := by
  subst hu
  simp only [sliceAnswer, hk, hw, Nat.not_le.mpr htag, hd, Bool.not_true, Bool.false_eq_true, if_false, decide_false, Bool.false_and]

theorem sliceAnswer_of_awaited {d : Due} (hd : dueOf u i f.tag.toNat lp = some d) (hin : now u < d.deadline) :
    sliceAnswer i lp f s = pump i (applyAnswer i f.tag.toNat lp f.opcode.toNat f.data (f.status == stPoison) u) := by
  subst hu
  simp only [sliceAnswer, hk, hw, Nat.not_le.mpr htag, hd, Bool.not_true, Bool.false_eq_true, if_false, decide_false, Bool.false_and, ge_iff_le, Nat.not_le.mpr hin]

end

theorem snoopExpired_of_late {k : Nat} {d : Due} (hd : dueOf s i k lp = some d) (hlate : d.deadline < now s) :
    snoopExpired i lp k s = pump i (applyAnswer i k lp 0x96 [] false (countTimeout i lp s)) := by
  simp [snoopExpired, hd, hlate]

theorem snoopExpired_of_in_time {k : Nat} {d : Due} (hd : dueOf s i k lp = some d) (hin : now s ≤ d.deadline) : snoopExpired i lp k s = s := by
  simp [snoopExpired, hd, Nat.not_lt.mpr hin]

theorem snoopExpired_of_none {k : Nat} (hd : dueOf s i k lp = none) : snoopExpired i lp k s = s := by
  simp [snoopExpired, hd]

end
end Sys2Proof.Machine

namespace Sys2Proof.Proofs
open Sys2Proof Sys2Proof.Machine

/-- Settles O58: a request at a slice is checked in the order of R291 to R293, and one that the gate passes takes a tracker or waits. -/
theorem brockRequests : Obligations.BrockRequests := by
  intro i lp f s u l hu hl
  subst hl
  have hrun {t : State} (h : sliceRequest i.val lp.val f s = t) : exec (.brockRequest i lp f) s = .next (settle (pump i.val t)) :=
    exec_eq_of rfl (congrArg (pump i.val) h)
  exact ⟨fun hk => hrun (sliceRequest_of_bad_header hu hk), fun hk hw => hrun (sliceRequest_of_malformed hu hk hw), fun hk hw h => hrun (sliceRequest_of_closed hu hk hw h),
    fun hk hw hst hlost hc ha => hrun (sliceRequest_of_noncoherent hu hk hw hst hlost hc ha),
    fun v k hk hw hst hlost hc hr hg hf hb => hrun ((sliceRequest_of_passed hu hk hw hst hlost hc hr hg).trans (admitted_of_running hf hb)),
    fun v hk hw hst hlost hc hr hg hf _ => hrun ((sliceRequest_of_passed hu hk hw hst hlost hc hr hg).trans (admitted_of_full hf)),
    fun v rs hk hw hst hlost hc hr hg hwr => hrun ((sliceRequest_of_refused hu hk hw hst hlost hc hr hg).trans (refused_of_read hwr)),
    fun v k b hk hw hst hlost hc hr hg hf hb => hrun ((sliceRequest_of_passed hu hk hw hst hlost hc hr hg).trans (admitted_of_conflict hf hb))⟩

theorem sliceNotice_cases (i : SliceId) (lp : LpId) (f : Frame) (s u : State) (l : Nat) (hu : u = bumpC .lookups i.val 0 1 (ctxOf s f) s) (hl : l = lineOf (fAddr f))
    (hk : hchkOk f = true) (hw : cmWellFormed f = true) (hlost : (slOf u i.val).lost.getLsbD lp.val = false) :
    (∀ k, f.opcode = 0x11 → dirKey u i.val l = some k → recordsOwner u i.val k lp.val = true → exec (.evictE i lp f) s = .next (settle (pump i.val (sendCmp i.val lp.val f stOK (removeAgent i.val k lp.val (markNoticed i.val lp.val l u))))))
    ∧ (f.opcode = 0x11 → dirKey u i.val l = none → exec (.evictE i lp f) s = .next (settle (pump i.val (sendCmp i.val lp.val f stOK (bump .stale i.val u)))))
    ∧ (∀ k, f.opcode = 0x12 → dirKey u i.val l = some k → (dirAt u i.val k).coarse = false → recordsAgent (dirAt u i.val k) lp.val = true → recordsOwner u i.val k lp.val = false →
        exec (.evictS i lp f) s = .next (settle (pump i.val (sendCmp i.val lp.val f stOK (removeAgent i.val k lp.val (markNoticed i.val lp.val l u))))))
    ∧ (f.opcode = 0x12 → dirKey u i.val l = none → exec (.evictS i lp f) s = .next (settle (pump i.val (sendCmp i.val lp.val f stOK (bump .stale i.val u)))))
    ∧ (f.opcode = 0x10 → dirKey u i.val l = none → exec (.wbM i lp f) s = .next (settle (pump i.val (sendCmp i.val lp.val f stUnsup (agentViolation lp.val (bump .cohViolS i.val u))))))
    ∧ (∀ k v, f.opcode = 0x10 → dirKey u i.val l = some k → recordsOwner u i.val k lp.val = true → takeDirty l (lineFrom f.data) (f.status == stPoison) u = (false, v) →
        exec (.wbM i lp f) s = .next (settle (pump i.val (sendCmp i.val lp.val f stOK (removeAgent i.val k lp.val (markNoticed i.val lp.val l v)))))) := by
  subst hl
  have hclean {t : State} (hop : f.opcode = 0x11) (h : sliceNotice i.val lp.val f s = t) : exec (.evictE i lp f) s = .next (settle (pump i.val t)) :=
    exec_eq_of rfl (by rw [if_pos (by rw [hop]; rfl), h])
  have hshared {t : State} (hop : f.opcode = 0x12) (h : sliceNotice i.val lp.val f s = t) : exec (.evictS i lp f) s = .next (settle (pump i.val t)) :=
    exec_eq_of rfl (by rw [if_pos (by rw [hop]; rfl), h])
  have hdirty {t : State} (hop : f.opcode = 0x10) (h : sliceNotice i.val lp.val f s = t) : exec (.wbM i lp f) s = .next (settle (pump i.val t)) :=
    exec_eq_of rfl (by rw [if_pos (by rw [hop]; rfl), h])
  exact ⟨fun k hop hd ho => hclean hop (sliceNotice_of_owned_eviction hu hk hw hlost hd hop ho),
    fun hop hd => hclean hop ((sliceNotice_of_unrecorded hu hk hw hlost hd).trans (if_neg (by rw [hop]; decide))),
    fun k hop hd hco hs ho => hshared hop (sliceNotice_of_shared_eviction hu hk hw hlost hd hop hco hs ho),
    fun hop hd => hshared hop ((sliceNotice_of_unrecorded hu hk hw hlost hd).trans (if_neg (by rw [hop]; decide))),
    fun hop hd => hdirty hop ((sliceNotice_of_unrecorded hu hk hw hlost hd).trans (if_pos (by rw [hop]; rfl))),
    fun k v hop hd ho ht => hdirty hop (sliceNotice_of_write_back hu hk hw hlost hd hop ho ht)⟩

/-- Settles O59: notices by what the directory records, answers by what the flow awaits. -/
theorem brockNoticesAndSnoopAnswers : Obligations.BrockNoticesAndSnoopAnswers := by
  refine ⟨sliceNotice_cases, fun i lp s u => ?_⟩
  have hanswer {f : Frame} {t : State} (h : sliceAnswer i.val lp.val f s = t) : exec (.snoopAnswer i lp f) s = .next (settle (pump i.val t)) :=
    exec_eq_of rfl (congrArg (pump i.val) h)
  have hexpired {k : Fin 2048} {t : State} (h : snoopExpired i.val lp.val k.val s = t) : exec (.snoopTimeout i lp k) s = .next (settle (pump i.val t)) :=
    exec_eq_of rfl (congrArg (pump i.val) h)
  exact ⟨fun f hu hk hw ht hd => hanswer (sliceAnswer_of_unawaited hu hk hw ht hd), fun f d hu hk hw ht hd hin => hanswer (sliceAnswer_of_awaited hu hk hw ht hd hin),
    fun k d hd hl => hexpired (snoopExpired_of_late hd hl), fun k d hd hin => hexpired (snoopExpired_of_in_time hd hin), fun k hd => hexpired (snoopExpired_of_none hd)⟩

end Sys2Proof.Proofs

end

section
/-! The PE endpoint's registers and resets, and epoch events (O23, O24, O43). -/

namespace Sys2Proof.Machine

section
variable {s : State}

/-! ### Epochs -/

theorem epochBoundary_of_early (h : now s < nextBoundary s) : epochBoundary s = s := by
  simp [epochBoundary, h]

theorem epochBoundary_of_due (hp : s.hoard.pendingPeriod = none) (h : nextBoundary s ≤ now s) :
    epochBoundary s = openEpoch (numberAt s (nextBoundary s)) (nextBoundary s) s := by
  simp only [epochBoundary, Nat.not_lt.mpr h, if_false, hp]

/-- A change of period that falls due by the boundary applies first (R396). -/
theorem epochBoundary_of_change {p c : Nat} {u : State} (hp : s.hoard.pendingPeriod = some (p, c)) (hc : c ≤ nextBoundary s) (h : nextBoundary s ≤ now s)
    (hu : u = { s with hoard := { s.hoard with period := p, base := c, pendingPeriod := none } }) :
    epochBoundary s = openEpoch (numberAt u (nextBoundary s)) (nextBoundary s) u := by
  subst hu
  simp only [epochBoundary, Nat.not_lt.mpr h, if_false, hp, hc, if_true, modHoard]

theorem epochFlushDone_of_none {l : List Nat} (h : s.hoard.flushing = none) : epochFlushDone l s = s := by
  simp [epochFlushDone, h]

theorem epochFlushDone_of_answered {f : Flush} (h : s.hoard.flushing = some f) (hst : f.stage = 3) (hl : flushesLeft s f.boundary [] = false) :
    epochFlushDone [] s = finishFlush f s := by
  simp [epochFlushDone, h, hst, hl]

theorem ackPosted_of_live {b : Handle} {x : Binding} {e : Nat} (h : liveBind s b = some x) :
    ackPosted b e s = modBind (hIdx b) (fun x => { x with posted := x.posted - 1, highEpoch := max x.highEpoch e }) s := by
  simp only [ackPosted, h]

theorem ackPosted_of_gone {b : Handle} {e : Nat} (h : liveBind s b = none) : ackPosted b e s = s := by
  simp only [ackPosted, h]

/-- The only open notice is posted where the predicate takes it. -/
theorem postOpen_of_single {n : Notice} {p : Notice → Bool} (h : s.ten.open_ = [n]) :
    postOpen p s = if p n then postNotice n { s with ten := { s.ten with open_ := [] } } else { s with ten := { s.ten with open_ := [n] } } := by
  cases hp : p n <;> simp [postOpen, h, hp, modTen]

/-! ### The endpoint's registers -/

theorem registerWrite_bar2 {off : Nat} {v : BitVec 32} (hup : peUp s = true) (ha : off % 4 = 0) :
    registerWrite true off v s = if off < 0x2000000 then modMbx (fun m => { m with bar2 := memWrite m.bar2 off (leBytes 4 v.toNat) }) s else s := by
  simp [registerWrite, hup, ha]

theorem registerWrite_bar0 {off : Nat} {v : BitVec 32} (hup : peUp s = true) (ha : off % 4 = 0) : registerWrite false off v s = bar0Write off v s := by
  simp [registerWrite, hup, ha]

theorem unmask_of_quiet {k : Nat} (h : s.mbx.pba.getLsbD k = false) : unmask k s = modMbx (fun m => { m with masked := m.masked &&& ~~~(1#64 <<< k) }) s := by
  have hp : (modMbx (fun m => { m with masked := m.masked &&& ~~~(1#64 <<< k) }) s).mbx.pba.getLsbD k = false := h
  simp only [unmask, hp, Bool.false_eq_true, if_false]

/-- A vector that was pending when it is unmasked is sent (R506). -/
theorem unmask_of_pending {k : Nat} (hk : k < 64) (h : s.mbx.pba.getLsbD k = true) :
    unmask k s = emit (.msix k) { s with mbx := { s.mbx with masked := s.mbx.masked &&& ~~~(1#64 <<< k), pba := s.mbx.pba &&& ~~~(1#64 <<< k) } } := by
  have hp : (modMbx (fun m => { m with masked := m.masked &&& ~~~(1#64 <<< k) }) s).mbx.pba.getLsbD k = true := h
  have hm : (s.mbx.masked &&& ~~~(1#64 <<< k)).getLsbD k = false := by simp [hk]
  simp only [unmask, hp, if_true]
  simp only [msix, modMbx, hm, Bool.false_eq_true, if_false]

end
end Sys2Proof.Machine

namespace Sys2Proof.Proofs
open Sys2Proof Sys2Proof.Machine

/-- Settles O43: an epoch opens at its boundary, a flush ends when it is answered, and a notice goes after 10 µs. -/
theorem epochEvents : Obligations.EpochEvents := by
  intro s hfw hst
  have hgate : (fwRuns s && s.dev.st != .hibernate) = true := by simp [hfw, hst]
  have hepoch {t : State} (h : epochBoundary s = t) : exec .epochBoundary s = .next (settle t) := exec_eq_of rfl ((if_pos hgate).trans h)
  have hflush {l : List LpId} {t : State} (h : epochFlushDone (l.map (·.val)) s = t) : exec (.epochFlushDone l) s = .next (settle t) := exec_eq_of rfl ((if_pos hgate).trans h)
  exact ⟨fun hp h => hepoch (epochBoundary_of_due hp h), fun p c u hp hc h hu => hepoch (epochBoundary_of_change hp hc h hu), fun h => hepoch (epochBoundary_of_early h),
    fun hn l => hflush (epochFlushDone_of_none hn), fun f hf h3 hl => hflush (epochFlushDone_of_answered hf h3 hl), fun b x e h => exec_eq_of rfl (ackPosted_of_live h),
    fun b e h => exec_eq_of rfl (ackPosted_of_gone h), fun n hn hd => exec_eq_of rfl ((postOpen_of_single hn).trans (if_pos (by simp [hd]))),
    fun n hn hd => exec_eq_of rfl ((postOpen_of_single hn).trans (if_neg (by simp [hd])))⟩

/-- Settles O24: what each reset or loss of the endpoint takes with it outside Off. -/
theorem endpointResets : Obligations.EndpointResets := by
  intro s hst
  exact ⟨exec_eq_of rfl (if_neg hst), exec_eq_of rfl (if_neg hst), exec_eq_of rfl (if_neg hst), fun level => exec_eq_of rfl (if_neg hst)⟩

/-- Settles O23: reads that clear or latch, and writes, of the endpoint's registers while it is up. -/
theorem endpointReadsAndWrites : Obligations.EndpointReadsAndWrites := by
  refine ⟨fun s hup => ⟨exec_eq_of rfl (if_pos hup), exec_eq_of rfl (if_pos hup), exec_eq_of rfl (if_pos hup), exec_eq_of rfl (if_pos hup)⟩, fun s hup => ?_⟩
  have hwrite {b : Bool} {off : Nat} {v : BitVec 32} {t : State} (h : registerWrite b off v s = t) : exec (.registerWrite b off v) s = .next (settle t) := exec_eq_of rfl h
  refine ⟨fun v => exec_eq_of rfl ((if_pos hup).trans ?_), fun off v ha hin => hwrite ((registerWrite_bar2 hup ha).trans (if_pos hin)),
    fun off v ha hout => hwrite ((registerWrite_bar2 hup ha).trans (if_neg (Nat.not_lt.mpr hout))), fun v hv => hwrite ((registerWrite_bar0 hup rfl).trans ?_),
    fun v hv => hwrite ((registerWrite_bar0 hup rfl).trans ?_), fun v => hwrite ((registerWrite_bar0 hup rfl).trans ?_),
    fun k hk => exec_eq_of rfl ((if_pos hup).trans (unmask_of_pending k.isLt hk)), fun k hk => exec_eq_of rfl ((if_pos hup).trans (unmask_of_quiet hk))⟩
  · simp only [modMbx, bne_iff_ne]
  · exact if_pos hv
  · exact if_pos hv
  · rfl

end Sys2Proof.Proofs

end

section
/-! Binding pages and debug accesses (R410, R462 to R465, R490, R491, R531, R532). -/

namespace Sys2Proof.Machine

section
variable {r : PageRef} {s : State} {i : Nat}

/-! ### The paths of a page access -/

theorem onPage_of_miss {posted : Bool} {miss : State → State} {serve : Nat → State → State} (hrun : settRuns s = true) (hup : lpUp s r.lp.val = true)
    (hpage : pageBinding s r.lp.val r.pasid.toNat r.page = none) : onPage r posted miss serve s = miss s := by
  simp [onPage, hrun, hup, hpage]

theorem onPage_of_gone {posted : Bool} {miss : State → State} {serve : Nat → State → State} (hrun : settRuns s = true) (hup : lpUp s r.lp.val = true)
    (htakes : takesRequests s = false) (hpage : pageBinding s r.lp.val r.pasid.toNat r.page = some i) : onPage r posted miss serve s = pageGone i posted s := by
  simp [onPage, hrun, hup, hpage, htakes]

theorem onPage_of_down {posted : Bool} {miss : State → State} {serve : Nat → State → State} (hup : lpUp s r.lp.val = false) : onPage r posted miss serve s = s := by
  simp [onPage, hup]

/-! ### What a binding's page serves -/

theorem writeCons_of_taken {v : BitVec 32} (h : ((tget s.ten.rings i).prod - v).toNat ≤ 128) :
    writeCons i v s = modTen (fun t => { t with rings := tset t.rings i { tget s.ten.rings i with cons := v } }) s :=
  if_neg (Nat.not_lt.mpr h)

theorem tenDoorbell_of_free {v : BitVec 32} (hv : v.getLsbD 0 = true) (hdb : (tget s.ten.mbxs (mbxIndex s i)).db = false) (hdone : (tget s.ten.mbxs (mbxIndex s i)).done = false) :
    tenDoorbell i v s = modCmd (fun c => { c with tenQueue := c.tenQueue ++ [mbxIndex s i] }) (modMail (mbxIndex s i) (fun m => { m with db := true, origin := handleOf s 1 i }) s) := by
  simp only [tenDoorbell, hv, hdb, hdone, Bool.not_true, Bool.or_self, Bool.false_eq_true, if_false]

theorem tenDoorbell_of_busy {v : BitVec 32} (hv : v.getLsbD 0 = true) (hbusy : ((tget s.ten.mbxs (mbxIndex s i)).db || (tget s.ten.mbxs (mbxIndex s i)).done) = true) :
    tenDoorbell i v s = bumpC .tenIgn (mbxIndex s i) 0 1 {} (modMail (mbxIndex s i) (fun m => { m with ignored := m.ignored + 1 }) s) := by
  simp only [tenDoorbell, hv, hbusy, Bool.not_true, Bool.false_eq_true, if_false, if_true]

theorem pageRead_of_served {off len : Nat} (h : 64 ≤ off ∨ (bindOf s i).posted = 0) :
    pageRead i .host off len s = emit (.page (((pageBytes s i).drop off).take len)) s := by
  have hserve : (decide (off < 64) && decide ((bindOf s i).posted ≠ 0)) = false := by
    rcases h with h | h <;> simp [h]
  simp only [pageRead, hserve, Bool.false_eq_true, if_false, answerPage]

theorem pageRead_of_waiting {off len : Nat} (hoff : off < 64) (h : (bindOf s i).posted ≠ 0) :
    pageRead i .host off len s = modTen (fun t => { t with pageReads := t.pageReads ++ [{ idx := i, who := .host, off := off, len := len }] }) s := by
  simp [pageRead, hoff, h]

theorem messageWrite_of_alone {data : Bytes} (h : bitOf (bindOf s i).peer 15 = false) : messageWrite i data s = bump .disMsg 0 s := by
  simp only [messageWrite, h, Bool.not_false, if_true]

theorem messageWrite_of_peer {data : Bytes} {f : Frame} (h : bitOf (bindOf s i).peer 15 = true)
    (hf : f = sealHdr { opcode := 0x01, prio := BitVec.ofNat 3 (tenantOf s (bindOf s i).tenant).prio, chan := 7, cls := clsMG, did := BitVec.ofNat 12 (bindOf s i).peer, sid := BitVec.ofNat 12 (didOf s (bindOf s i).lp), binding := handleOf s 1 i, length := BitVec.ofNat 16 data.length, data := data }) :
    messageWrite i data s = meterAndShape (bindOf s i).lp f (frameLen f) 0 s := by
  subst hf
  simp only [messageWrite, h, Bool.not_true, Bool.false_eq_true, if_false]

/-- The word at 0x8C is the binding's interrupt enable. -/
theorem pageWrite_irq {v : BitVec 32} {posted : Bool} : pageWrite i 0x8C (leBytes 4 v.toNat) posted s = modBind i (fun b => { b with irq := v.getLsbD 0 }) s := by
  have hlen : (leBytes 4 v.toNat).length / 4 = 1 := by rw [length_leBytes]
  have hword : BitVec.ofNat 32 (fieldAt (leBytes 4 v.toNat) (4 * 0) 4) = v := by
    have hv : v.toNat < 256 ^ 4 := v.isLt
    rw [Nat.mul_zero, fieldAt_leBytes, Nat.mod_eq_of_lt hv, BitVec.ofNat_toNat, BitVec.setWidth_eq]
  simp only [pageWrite, hlen, List.range_one, List.foldl_cons, List.foldl_nil, hword]
  rfl

end

/-! ### Debug accesses -/

section
variable {m : DebugMaster} {t : DebugTarget} {w : Option Line} {s : State}

theorem debugAccess_of_dead (h : debugLives m s = false) : debugAccess m t w s = s := by
  simp [debugAccess, h]

theorem debugAccess_of_locked (h : debugLives m s = true) (hl : lockedPage (haltCore m s) t = true) (hu : bitOf (unlockScope (haltCore m s)) 0 = false) :
    debugAccess m t w s = if w.isSome then debugRefuse t (haltCore m s) else emit (.debug (some (BitVec.allOnes 512))) (debugRefuse t (haltCore m s)) := by
  simp only [debugAccess, h, hl, hu, Bool.not_true, Bool.not_false, Bool.and_self, Bool.false_eq_true, if_false, if_true]

theorem debugAccess_of_open (h : debugLives m s = true) (ho : lockedPage (haltCore m s) t = false ∨ bitOf (unlockScope (haltCore m s)) 0 = true) :
    debugAccess m t w s = debugOpen t w (haltCore m s) := by
  have hopen : (lockedPage (haltCore m s) t && !bitOf (unlockScope (haltCore m s)) 0) = false := by
    rcases ho with ho | ho <;> simp [ho]
  simp only [debugAccess, h, hopen, Bool.not_true, Bool.false_eq_true, if_false]

/-- The memory-access port halts no core. -/
theorem debugAccess_jtag_of_open (h : debugLives .jtag s = true) (ho : lockedPage s t = false ∨ bitOf (unlockScope s) 0 = true) :
    debugAccess .jtag t w s = debugOpen t w s := debugAccess_of_open h ho

theorem debugOpen_hbm_write {k : Fin 4} {a : Nat} {d : Line} : debugOpen (.hbm k a) (some d) s = hbmWrite k.val a d s := by
  unfold debugOpen
  rfl

/-- The read is kept behind a name, so that no check of the proof evaluates it. -/
theorem debugOpen_hbm_read {k : Fin 4} {a : Nat} (ht : t = .hbm k a) (hw : w = none) :
    debugOpen t w s = emit (.debug (some (hbmRead k.val a s).1)) (hbmRead k.val a s).2 := by
  obtain ⟨read, hread⟩ : ∃ read, read = hbmRead := ⟨_, rfl⟩
  unfold debugOpen
  rw [← hread]
  subst ht hw
  rfl

theorem debugOpen_fabric_write {a g : Nat} {d : Line} {v : State} (hg : debugGate s a = some g) (hc : gateCheck g (memFrame s (a / 64) (some (d, false)) 0 0) s = (.pass, v)) :
    debugOpen (.fabric a) (some d) s = fabricWrite a d v := by
  unfold debugOpen
  generalize debugGate = gate at hg ⊢
  simp only [hg, Option.map_some, hc]

theorem debugOpen_fabric_read {a g : Nat} {v : State} (hg : debugGate s a = some g) (hc : gateCheck g (memFrame s (a / 64) none 0 0) s = (.pass, v)) :
    debugOpen (.fabric a) none s = emit (.debug (some (fabricRead a v).1)) (fabricRead a v).2 := by
  unfold debugOpen
  generalize debugGate = gate at hg ⊢
  simp only [hg, Option.map_none, hc]

theorem debugOpen_fabric_read_of_no_gate {a : Nat} (hg : debugGate s a = none) : debugOpen (.fabric a) none s = emit (.debug none) s := by
  unfold debugOpen
  generalize debugGate = gate at hg ⊢
  simp [hg]

end
end Sys2Proof.Machine

namespace Sys2Proof.Proofs
open Sys2Proof Sys2Proof.Machine

theorem bindingPages_served (r : PageRef) (s : State) (i : Nat) (hup : lpUp s r.lp.val = true) (ht : takesRequests s = true) (hp : pageBinding s r.lp.val r.pasid.toNat r.page = some i) :
    (∀ v, ((tget s.ten.rings i).prod - v).toNat ≤ 128 → exec (.mbxNtcConsWrite r v) s = .next (settle { s with ten := { s.ten with rings := tset s.ten.rings i { tget s.ten.rings i with cons := v } } }))
    ∧ (∀ v, v.getLsbD 0 = true → (tget s.ten.mbxs (mbxIndex s i)).db = false → (tget s.ten.mbxs (mbxIndex s i)).done = false →
        exec (.mbxTenDbWrite r v) s = .next (settle { s with ten := { s.ten with mbxs := tmod s.ten.mbxs (mbxIndex s i) (fun m => { m with db := true, origin := handleOf s 1 i }) }, cmd := { s.cmd with tenQueue := s.cmd.tenQueue ++ [mbxIndex s i] } }))
    ∧ (∀ v, v.getLsbD 0 = true → ((tget s.ten.mbxs (mbxIndex s i)).db || (tget s.ten.mbxs (mbxIndex s i)).done) = true →
        exec (.mbxTenDbWrite r v) s = .next (settle (bumpC .tenIgn (mbxIndex s i) 0 1 {} { s with ten := { s.ten with mbxs := tmod s.ten.mbxs (mbxIndex s i) (fun m => { m with ignored := m.ignored + 1 }) } })))
    ∧ (∀ v, v.getLsbD 0 = true → exec (.mbxTenDoneClear r v) s = .next (settle { s with ten := { s.ten with mbxs := tmod s.ten.mbxs (mbxIndex s i) (fun m => { m with done := false }) } }))
    ∧ (∀ off, (bindOf s i).posted = 0 → exec (.durableEpochBlockRead r off) s = .next (settle (emit (.page (((pageBytes s i).drop off).take (64 - off))) s)))
    ∧ (∀ off, off < 64 → (bindOf s i).posted ≠ 0 → exec (.durableEpochBlockRead r off) s = .next (settle { s with ten := { s.ten with pageReads := s.ten.pageReads ++ [{ idx := i, who := .host, off := off, len := 64 - off }] } }))
    ∧ (∀ data, bitOf (bindOf s i).peer 15 = false → exec (.messageWindowWrite r data) s = .next (settle (bump .disMsg 0 s)))
    ∧ (∀ data f, bitOf (bindOf s i).peer 15 = true →
        f = sealHdr { opcode := 0x01, prio := BitVec.ofNat 3 (tenantOf s (bindOf s i).tenant).prio, chan := 7, cls := clsMG, did := BitVec.ofNat 12 (bindOf s i).peer, sid := BitVec.ofNat 12 (didOf s (bindOf s i).lp), binding := handleOf s 1 i, length := BitVec.ofNat 16 data.length, data := data } →
        exec (.messageWindowWrite r data) s = .next (settle (meterAndShape (bindOf s i).lp f (frameLen f) 0 s)))
    ∧ (∀ off len, 64 ≤ off → exec (.bindingPageAccess r (.read off len)) s = .next (settle (emit (.page (((pageBytes s i).drop off).take (min len (16384 - off)))) s)))
    ∧ (∀ v posted, exec (.bindingPageAccess r (.write 0x8C v posted)) s = .next (settle { s with ten := { s.ten with bindings := tmod s.ten.bindings i (fun b => { b with irq := v.getLsbD 0 }) } })) := by
  have hon (posted : Bool) (miss : State → State) (serve : Nat → State → State) : onPage r posted miss serve s = serve i s := onPage_of_binding hup ht hp posted miss serve
  refine ⟨fun v h => exec_eq_of rfl ((hon _ _ _).trans (writeCons_of_taken h)), fun v hv hdb hd => exec_eq_of rfl ((hon _ _ _).trans (tenDoorbell_of_free hv hdb hd)),
    fun v hv hb => exec_eq_of rfl ((hon _ _ _).trans (tenDoorbell_of_busy hv hb)), fun v hv => exec_eq_of rfl ((hon _ _ _).trans (if_pos hv)),
    fun off h => exec_eq_of rfl ((hon _ _ _).trans (pageRead_of_served (.inr h))), fun off ho h => exec_eq_of rfl ((hon _ _ _).trans (pageRead_of_waiting ho h)),
    fun data h => exec_eq_of rfl ((hon _ _ _).trans (messageWrite_of_alone h)), fun data f h hf => exec_eq_of rfl ((hon _ _ _).trans (messageWrite_of_peer h hf)),
    fun off len ho => exec_eq_of rfl ((hon _ _ _).trans (pageRead_of_served (.inl ho))), fun v posted => exec_eq_of rfl ((hon _ _ _).trans pageWrite_irq)⟩

/-- Settles O25: an access to a binding's page by the page's binding, the port and the device's state. -/
theorem bindingPages : Obligations.BindingPages := by
  refine ⟨bindingPages_served, fun r s => ⟨fun hrun hup hp => ?_, fun i hrun hup ht hp => ?_, fun hup a => ?_⟩⟩
  · have hmiss (posted : Bool) (miss : State → State) (serve : Nat → State → State) : onPage r posted miss serve s = miss s := onPage_of_miss hrun hup hp
    exact ⟨fun v => exec_eq_of rfl (hmiss _ _ _), fun v => exec_eq_of rfl (hmiss _ _ _), fun data => exec_eq_of rfl (hmiss _ _ _),
      fun off len hc => exec_eq_of rfl ((hmiss _ _ _).trans (if_neg (by simp [hc]))), fun off len hc => exec_eq_of rfl ((hmiss _ _ _).trans (if_pos hc))⟩
  · exact ⟨fun v => exec_eq_of rfl (onPage_of_gone hrun hup ht hp), fun off len => exec_eq_of rfl (onPage_of_gone hrun hup ht hp)⟩
  · cases a with
    | read off len => exact exec_eq_of rfl (onPage_of_down hup)
    | write off v posted => exact exec_eq_of rfl (onPage_of_down hup)

/-- Settles O35: a locked page refuses, and any other access goes to its stack or through its gate. -/
theorem debugAccesses : Obligations.DebugAccesses := by
  intro m t s
  have hrun {m : DebugMaster} {w : Option Line} {u : State} (h : debugAccess m t w s = u) : exec (.debugAccess m t w) s = .next (settle u) := exec_eq_of rfl h
  have hopen {w : Option Line} {u : State} (h : debugLives .jtag s = true) (ho : lockedPage s t = false ∨ bitOf (unlockScope s) 0 = true) (hw : debugOpen t w s = u) :
      exec (.debugAccess .jtag t w) s = .next (settle u) := hrun ((debugAccess_jtag_of_open h ho).trans hw)
  refine ⟨fun w h => hrun (debugAccess_of_dead h), fun h hl hu => hrun (debugAccess_of_locked h hl hu), fun d h hl hu => hrun (debugAccess_of_locked h hl hu),
    fun n u h hu hl hn => ?_, fun k a d h ht ho => hopen h ho (ht ▸ debugOpen_hbm_write), fun k a h ht ho => hopen h ho (debugOpen_hbm_read ht rfl),
    fun a d g v h ht ho hg hc => hopen h ho (ht ▸ debugOpen_fabric_write hg hc), fun a g v h ht ho hg hc => hopen h ho (ht ▸ debugOpen_fabric_read hg hc),
    fun a h ht ho hg => hopen h ho (ht ▸ debugOpen_fabric_read_of_no_gate hg)⟩
  subst hu
  exact hrun (debugAccess_of_locked h hl hn)

end Sys2Proof.Proofs

end

section
/-! The interrupt controller's sources, the heartbeat and its watchdog (R662 to R679). -/

namespace Sys2Proof.Machine

section
variable {src : Nat} {s : State}

/-! ### Edges, claims, completions and configuration -/

theorem sourceEdge_of_edge (hrun : settRuns s = true) (hl : levelSrc s src = false) : sourceEdge src s = sicEdge src s := by
  simp only [sourceEdge, hrun, hl, Bool.not_true, Bool.false_eq_true, if_false]

theorem sourceEdge_of_level (hrun : settRuns s = true) (hl : levelSrc s src = true) : sourceEdge src s = sicLevel src (lineLevel s src) s := by
  simp only [sourceEdge, hrun, hl, Bool.not_true, Bool.false_eq_true, if_false, if_true]

theorem sicEdge_of_uncoalesced (hc : sicField (tget s.sic.srcs src).word 16 8 ≤ 1) (ht : sicField (tget s.sic.srcs src).word 24 16 = 0) :
    sicEdge src s = sicPend src ((tget s.sic.srcs src).held + 1) s := by
  simp [sicEdge, hc, ht]

theorem sicEdge_of_reached (hc : 1 < sicField (tget s.sic.srcs src).word 16 8) (hr : sicField (tget s.sic.srcs src).word 16 8 ≤ (tget s.sic.srcs src).held + 1) :
    sicEdge src s = sicPend src ((tget s.sic.srcs src).held + 1) s := by
  simp [sicEdge, hc, hr, Nat.not_le.mpr hc]

/-- The first held edge starts the coalescing time (R678). -/
theorem sicEdge_of_first_held (hr : (tget s.sic.srcs src).held + 1 < sicField (tget s.sic.srcs src).word 16 8) (ht : sicField (tget s.sic.srcs src).word 24 16 ≠ 0)
    (hh : (tget s.sic.srcs src).held = 0) :
    sicEdge src s = modSrc src (fun c => { c with held := c.held + 1, firstHeld := now s, due := now s + sicField (tget s.sic.srcs src).word 24 16 * 1000 }) s := by
  have huncoal : (decide (sicField (tget s.sic.srcs src).word 16 8 ≤ 1) && sicField (tget s.sic.srcs src).word 24 16 == 0) = false := by simp [ht]
  have hreached : (decide (1 < sicField (tget s.sic.srcs src).word 16 8) && decide ((tget s.sic.srcs src).held + 1 ≥ sicField (tget s.sic.srcs src).word 16 8)) = false := by
    simp [Nat.not_le.mpr hr]
  simp only [sicEdge, huncoal, hreached, Bool.false_eq_true, if_false]
  simp only [hh, ht, if_true, if_false]

theorem sicClaim_of_committed {p : Fin 2} (h : (sicPairOf s p.val).committed = some src) :
    sicClaim p s = emit (.regRead (src + 65536 * (tget s.sic.srcs src).merged)) (modSrc src (fun c => { c with active := some p, pend := false, merged := 0 }) (setSicPair p.val none s)) := by
  simp only [sicClaim, h]

theorem sicClaim_of_none {p : Fin 2} (h : (sicPairOf s p.val).committed = none) : sicClaim p s = s := by
  simp only [sicClaim, h]

/-- Whether a source follows a line is its number's and its word's alone. -/
theorem levelSrc_modSrc {g : SicSrc → SicSrc} (hg : (g (tget s.sic.srcs src)).word = (tget s.sic.srcs src).word) : levelSrc (modSrc src g s) src = levelSrc s src := by
  simp only [levelSrc, modSrc_srcs, tget_tmod_self, hg]

theorem sicComplete_of_active {p : Fin 2} (ha : (tget s.sic.srcs src).active = some p) :
    sicComplete p src s = if levelSrc s src then sicLevel src (tget s.sic.srcs src).line (modSrc src (fun c => { c with active := none }) s) else modSrc src (fun c => { c with active := none }) s := by
  have hl : levelSrc (modSrc src (fun c => { c with active := none }) s) src = levelSrc s src := levelSrc_modSrc rfl
  simp only [sicComplete, ha, bne_self_eq_false, Bool.false_eq_true, if_false, hl]

theorem sicConfig_of_refused {w : BitVec 64} (hl : sicField w 5 1 = 1) (hc : 1 < sicField w 16 8 ∨ sicField w 24 16 ≠ 0) : sicConfig src w s = s := by
  have hbad : (!settRuns s || (sicField w 5 1 == 1 && (decide (sicField w 16 8 > 1) || sicField w 24 16 != 0))) = true := by
    rcases hc with hc | hc <;> simp [hl, hc]
  simp only [sicConfig, hbad, if_true]

theorem sicConfig_of_edge {w : BitVec 64} (hrun : settRuns s = true) (hw : sicField w 5 1 = 0)
    (hl : levelSrc (modSrc src (fun c => { c with word := (w &&& sicWritable) ||| (c.word &&& 0x3F0000000000) }) s) src = false) :
    sicConfig src w s = modSrc src (fun c => { c with word := (w &&& sicWritable) ||| (c.word &&& 0x3F0000000000) }) s := by
  simp only [sicConfig, hrun, hw, Bool.not_true, Bool.false_or, show (0 == 1) = false from rfl, Bool.false_and, Bool.false_eq_true, if_false, hl]

theorem coalesceEnd_of_idle (h : (tget s.sic.srcs src).held = 0) : coalesceEnd src s = s := by
  simp [coalesceEnd, h]

theorem coalesceEnd_of_early (h : now s < (tget s.sic.srcs src).due) : coalesceEnd src s = s := by
  simp [coalesceEnd, Nat.not_le.mpr h]

theorem coalesceEnd_of_due (hrun : settRuns s = true) (hh : (tget s.sic.srcs src).held ≠ 0) (hd : (tget s.sic.srcs src).due ≠ 0) (ht : (tget s.sic.srcs src).due ≤ now s) :
    coalesceEnd src s = sicPend src (tget s.sic.srcs src).held s := by
  simp [coalesceEnd, hrun, hh, hd, ht]

/-! ### The heartbeat -/

theorem kick_of_beating (hrun : settRuns s = true) (hb : s.hb.running = true) (hstop : s.hb.stopAt = none) (hstall : s.hb.stallAt = none) (hnear : now s ≠ s.hb.lastKick + 1000000) :
    kick s = modHb (fun h => { h with lastKick := now s }) s := by
  simp [kick, hrun, hb, hstop, hstall, hnear]

/-- A kick within 500 µs of a stall without a handover ends the stall (R665). -/
theorem kick_of_stalled {a : Nat} (hrun : settRuns s = true) (hb : s.hb.running = true) (hstop : s.hb.stopAt = none) (hstall : s.hb.stallAt = some a)
    (hover : s.hb.handover = false) (hin : now s < a + 500000) :
    kick s = modHb (fun h => { h with lastKick := now s, stallAt := none, handover := false, lockstep := false }) s := by
  have hwait : kickWait s = 500000 := by simp [kickWait, hover]
  simp only [kick, hrun, hb, hstop, hstall, hover, hwait, Option.isSome_none, Bool.not_true, Bool.or_self, Bool.false_eq_true, if_false, gt_iff_lt, Nat.not_lt.mpr hin.le, hin.ne,
    Bool.not_false, if_true]

theorem hbeatPeriod_of_rise (hrun : settRuns s = true) (hb : s.hb.running = true) (hl : s.hb.level = false) (ht : now s % 1000000 = 0) :
    hbeatPeriod s = modHb (fun h => { h with level := true, count := h.count + 1 }) s := by
  simp [hbeatPeriod, hrun, hb, hl, ht]

theorem hbeatPeriod_of_fall (hrun : settRuns s = true) (hb : s.hb.running = true) (hl : s.hb.level = true) (ht : now s % 1000000 = 500000) :
    hbeatPeriod s = modHb (fun h => { h with level := false }) s := by
  simp [hbeatPeriod, hrun, hb, hl, ht]

theorem hbeatPeriod_of_stopped (hb : s.hb.running = false) : hbeatPeriod s = s := by
  simp [hbeatPeriod, hb]

theorem dropUpdate_of_none (hu : s.sec.updating = false) (ht : s.sec.takeover = 0) : dropUpdate s = s := by
  simp [dropUpdate, abandonUpdate, hu, ht]

section
variable (hrun : settRuns s = true) (hb : s.hb.running = true) (hstop : s.hb.stopAt = none) (hstall : s.hb.stallAt = none) (hp : s.sec.paused = false)
  (hlate : s.hb.lastKick + 1000000 ≤ now s)
include hrun hb hstop hstall hp hlate

theorem firmwareStall_of_healthy (hh : s.hb.standbyHealthy = true) : firmwareStall s = handOverPair false (dropUpdate s) := by
  simp [firmwareStall, hrun, hb, hstop, hstall, hp, hlate, hh]

theorem firmwareStall_of_alone (hh : s.hb.standbyHealthy = false) :
    firmwareStall s = modHb (fun h => { h with stallSeen := true, stallAt := some (now s), handover := false, lockstep := false }) s := by
  simp [firmwareStall, hrun, hb, hstop, hstall, hp, hlate, hh]

end

theorem firmwareStall_of_early (hp : s.sec.paused = false) (h : now s < s.hb.lastKick + 1000000) : firmwareStall s = s := by
  simp [firmwareStall, hp, Nat.not_le.mpr h]

theorem hbeatStop_of_due {a : Nat} (hrun : settRuns s = true) (hstall : s.hb.stallAt = some a) (hstop : s.hb.stopAt = none) (hover : s.hb.handover = false) (hdue : a + 500000 ≤ now s) :
    hbeatStop s = modHb (fun h => { h with running := false, level := false, stopAt := some (now s) }) s := by
  simp [hbeatStop, kickWait, hrun, hstall, hstop, hover, hdue]

theorem watchdogDue_of_early {a : Nat} (h : s.hb.stopAt = some a) (hn : now s < a + 20000000) : watchdogDue s = s := by
  simp [watchdogDue, h, Nat.not_le.mpr hn]

theorem watchdogDue_of_due {a : Nat} (h : s.hb.stopAt = some a) (hn : a + 20000000 ≤ now s) : watchdogDue s = watchdogStart s := by
  simp [watchdogDue, h, hn]

theorem lockstepError_of_standby {p : Fin 2} (hrun : settRuns s = true) (hk : kDone s 8 = true) (hp : p ≠ s.hb.activePair) (hu : s.sec.updating = false) (ht : s.sec.takeover = 0) :
    lockstepError p.val s = raise { code := 0x0103, cls := .degraded, block := pairBlock p.val } (modHb (fun h => { h with standbyHealthy := false, reloadAt := some (now s + 240000000) }) s) := by
  have hne : p.val ≠ s.hb.activePair.val := fun h => hp (Fin.ext h)
  simp [lockstepError, lockStandby, hrun, hk, hne, dropUpdate_of_none hu ht]

theorem lockstepError_of_active {p : Fin 2} (hrun : settRuns s = true) (hk : kDone s 8 = true) (hp : p = s.hb.activePair) : lockstepError p.val s = lockActive s := by
  simp [lockstepError, hrun, hk, hp]

theorem standbyReload_of_powered {t : Nat} (hrun : settRuns s = true) (hr : s.hb.reloadAt = some t) (hp : pairPowered s (1 - s.hb.activePair.val) = true) :
    standbyReload s = modSec (fun y => { y with fwStandby := s.sec.fwActive }) (modHb (fun h => { h with standbyHealthy := true, reloadAt := none }) s) := by
  simp only [standbyReload, hrun, hr, hp, Option.isSome_some, Bool.and_self, if_true]

end
end Sys2Proof.Machine

namespace Sys2Proof.Proofs
open Sys2Proof Sys2Proof.Machine

/-- Settles O45: edges held and pending, claims, completions and configuration of sources while the Sett runs. -/
theorem interruptController : Obligations.InterruptController := by
  intro s hrun
  exact ⟨fun src hl hc ht => exec_eq_of rfl ((sourceEdge_of_edge hrun hl).trans (sicEdge_of_uncoalesced hc ht)),
    fun src hl hc hr => exec_eq_of rfl ((sourceEdge_of_edge hrun hl).trans (sicEdge_of_reached hc hr)),
    fun src hl hr ht hh => exec_eq_of rfl ((sourceEdge_of_edge hrun hl).trans (sicEdge_of_first_held hr ht hh)),
    fun src hl => exec_eq_of rfl (sourceEdge_of_level hrun hl), fun src p h => exec_eq_of rfl (sicClaim_of_committed h), fun p h => exec_eq_of rfl (sicClaim_of_none h),
    fun src p ha hl => exec_eq_of rfl ((sicComplete_of_active ha).trans (if_neg (by simp [hl]))), fun src p ha hl => exec_eq_of rfl ((sicComplete_of_active ha).trans (if_pos hl)),
    fun src w hw hc => exec_eq_of rfl (sicConfig_of_refused hw hc), fun src w hw hl => exec_eq_of rfl (sicConfig_of_edge hrun hw hl), exec_eq_of rfl (if_pos hrun),
    fun src h => exec_eq_of rfl (coalesceEnd_of_idle h), fun src hh hd ht => exec_eq_of rfl (coalesceEnd_of_due hrun hh hd ht), fun src h => exec_eq_of rfl (coalesceEnd_of_early h)⟩

/-- Settles O48: kicks, HBEAT, stalls, the watchdog and lockstep errors while the Sett runs. -/
theorem heartbeatAndWatchdog : Obligations.HeartbeatAndWatchdog := by
  intro s hrun
  exact ⟨fun hb hstop hstall hn => exec_eq_of rfl (kick_of_beating hrun hb hstop hstall hn), fun a hb hstop hstall ho hn => exec_eq_of rfl (kick_of_stalled hrun hb hstop hstall ho hn),
    fun hb hl ht => exec_eq_of rfl (hbeatPeriod_of_rise hrun hb hl ht), fun hb hl ht => exec_eq_of rfl (hbeatPeriod_of_fall hrun hb hl ht), fun hb => exec_eq_of rfl (hbeatPeriod_of_stopped hb),
    fun hb hstop hstall hp hu ht hl hh => exec_eq_of rfl ((firmwareStall_of_healthy hrun hb hstop hstall hp hl hh).trans (by rw [dropUpdate_of_none hu ht]; rfl)),
    fun hb hstop hstall hp hl hh => exec_eq_of rfl (firmwareStall_of_alone hrun hb hstop hstall hp hl hh), fun hp h => exec_eq_of rfl (firmwareStall_of_early hp h),
    fun a hstall hstop ho hd => exec_eq_of rfl (hbeatStop_of_due hrun hstall hstop ho hd), fun a h hn => exec_eq_of rfl (watchdogDue_of_early h hn),
    fun a h hn => exec_eq_of rfl (watchdogDue_of_due h hn), fun p hk hp hu ht => exec_eq_of rfl (lockstepError_of_standby hrun hk hp hu ht),
    fun p hk hp => exec_eq_of rfl (lockstepError_of_active hrun hk hp), fun t hr hp => exec_eq_of rfl (standbyReload_of_powered hrun hr hp)⟩

end Sys2Proof.Proofs

end

section
/-! Power of CXL links, lane margining, relocation and bandwidth windows (R40, R76, R88 to R90, R365, R591, R688). -/

namespace Sys2Proof.Machine

section
variable {n p : Nat} {s : State}

/-! ### L1 and CLKREQ_N -/

theorem hasClkreq_even : hasClkreq s (2 * p) = isCxl s (2 * p) := by
  simp [hasClkreq]

theorem clkreqChange_of_idle {level : Bool} (h : isCxl s (2 * p) = false ∨ (lpOf s (2 * p)).l1 = false ∨ (lpOf s (2 * p)).l11En = false) :
    clkreqChange p level s = modPort p (fun x => { x with clkreqLow := !level }) s := by
  have hlp : lpOf (modPort p (fun x => { x with clkreqLow := !level }) s) (2 * p) = lpOf s (2 * p) := rfl
  have hcxl : isCxl (modPort p (fun x => { x with clkreqLow := !level }) s) (2 * p) = isCxl s (2 * p) := rfl
  have hidle : (isCxl s (2 * p) && (lpOf s (2 * p)).l11En && (lpOf s (2 * p)).l1) = false := by
    rcases h with h | h | h <;> simp [h]
  simp only [clkreqChange, hasClkreq_even, hlp, hcxl, hidle, Bool.not_false, if_true]

/-- In L1 with L1.1 enabled a low level wakes the link and a high one enters L1.1 (R90). -/
theorem clkreqChange_of_l1 {level : Bool} (hc : isCxl s (2 * p) = true) (hl1 : (lpOf s (2 * p)).l1 = true) (hen : (lpOf s (2 * p)).l11En = true) :
    clkreqChange p level s = let t := modPort p (fun x => { x with clkreqLow := !level }) s
      if level then modPort p (fun x => { x with clkreqOut := false }) (modLp (2 * p) (fun l => { l with l11 := true }) t) else wakeDl (2 * p) t := by
  have hlp : lpOf (modPort p (fun x => { x with clkreqLow := !level }) s) (2 * p) = lpOf s (2 * p) := rfl
  have hcxl : isCxl (modPort p (fun x => { x with clkreqLow := !level }) s) (2 * p) = isCxl s (2 * p) := rfl
  have hasleep : (isCxl s (2 * p) && (lpOf s (2 * p)).l11En && (lpOf s (2 * p)).l1) = true := by simp [hc, hl1, hen]
  simp only [clkreqChange, hasClkreq_even, hlp, hcxl, hasleep, Bool.not_true, Bool.false_eq_true, if_false]
  cases level <;> rfl

theorem aspmL1_of_den {e : Bool} (hc : isCxl s n = false) : aspmL1 n e s = s := by
  simp [aspmL1, hc]

theorem aspmL1_of_quiet (hc : isCxl s n = true) (hup : lpUp s n = true) (hh : isHost s n = false) (hl1 : (lpOf s n).l1 = false) (hq : cxlQuiet s n = true) :
    aspmL1 n true s = enterL1 n s := by
  simp [aspmL1, hc, hup, hh, hl1, hq]

theorem aspmL1_of_busy (hc : isCxl s n = true) (hup : lpUp s n = true) (hq : cxlQuiet s n = false) : aspmL1 n true s = s := by
  simp [aspmL1, hc, hup, hq]

theorem aspmL1_of_exit (hc : isCxl s n = true) (hup : lpUp s n = true) : aspmL1 n false s = wakeDl n s := by
  simp [aspmL1, hc, hup]

theorem enterL1_l1 : (lpOf (enterL1 n s) n).l1 = true := by
  have hport (g : PortSt → PortSt) (t : State) : lpOf (modPort (n / 2) g t) n = lpOf t n := rfl
  unfold enterL1
  dsimp only
  split
  · rw [hport]
    exact congrArg LpSt.l1 (modLp_lpOf_self n _ s)
  · exact congrArg LpSt.l1 (modLp_lpOf_self n _ s)

/-! ### Lane margining -/

theorem laneMargining_start_of_den {k : Fin 8} (hc : isCxl s n = false) : laneMargining n (.start k) s = s := by
  simp [laneMargining, hc]

theorem laneMargining_start {k : Fin 8} (hc : isCxl s n = true) (hl : linkLive s n = true) (hk : k.val < (lanesOf s n).length) :
    laneMargining n (.start k) s = let t := emit (.margin n (4 * n + k.val) (engineHolder s (dieOf n)).isNone) s
      if (engineHolder s (dieOf n)).isNone then (openSession (.firmware (BitVec.ofNat 8 (n / 2))) (.margin (dieOf n) n (4 * n + k.val)) 0 t).2 else t := by
  have hguard : (!isCxl s n || !linkLive s n || decide ((lanesOf s n).length ≤ k.val)) = false := by simp [hc, hl, hk]
  simp only [laneMargining, hguard, Bool.false_eq_true, if_false]

section
variable {k d l : Nat} {x : Session} (hs : s.ten.sessions = [(k, x)]) (hx : x.live = true) (hr : x.res = .margin d n l)
include hs hx hr

/-- The port's session is the one that its margining acts on. -/
theorem laneMargining_stop_of_session : laneMargining n .stop s = endSession k s := by
  simp [laneMargining, hs, hx, hr]

theorem laneMargining_step_of_session (v g : Bool) (m : Nat) : laneMargining n (.step v g m) s = emit (.marginErrors n l (drawFree s).1) (drawFree s).2 := by
  simp [laneMargining, hs, hx, hr]

end

theorem laneMargining_stop_of_none (hs : s.ten.sessions = []) : laneMargining n .stop s = s := by
  simp [laneMargining, hs]

/-! ### A start's wait for a CXL port -/

theorem cxlStartTimeout_of_due (hp : startingPorts s = [p]) (hc : isCxl s (2 * p) = true) (he : lpExists s (2 * p) = true) (hl : linkLive s (2 * p) = false)
    (hdue : tget s.start.waveEnd p + 250000000 ≤ now s) : cxlStartTimeout p s = startFailed p s := by
  have hdown : ([2 * p, 2 * p + 1].filter (lpExists s)).all (linkLive s) = false := by
    simp [List.filter_cons, he, hl]
  have hcontains : (startingPorts s).contains p = true := by simp [hp]
  simp only [cxlStartTimeout, hcontains, hc, hdown, hdue, decide_true, Bool.not_false, Bool.and_self, if_true]

theorem cxlStartTimeout_of_early (h : now s < tget s.start.waveEnd p + 250000000) : cxlStartTimeout p s = s := by
  simp [cxlStartTimeout, Nat.not_le.mpr h]

/-! ### Relocation -/

section
variable {k r t : Nat}

theorem relocStep_of_first (h : (dreyOf s k).moving = some (r, t, 1)) : relocStep k s = modDrey k (fun d => { d with moving := some (r, t, 2) }) (retireDrey k t s) := by
  simp only [relocStep, h]

theorem relocStep_of_second (h : (dreyOf s k).moving = some (r, t, 2)) : relocStep k s = modDrey k (fun d => { d with moving := some (r, t, 3) }) s := by
  simp only [relocStep, h]

theorem relocStep_of_third {u : State} (h : (dreyOf s k).moving = some (r, t, 3)) (hu : u = (if r < 32 then recoverRegion k r s else s)) :
    relocStep k s = wakeStack k (fun u => u.phase == .waitRegion) (bump .regionsRetired k
      (modDrey k (fun d => { d with moving := some (r, t, 4), regions := tset (tset d.regions r { st := 3, mapped := t + 1 }) t { st := 4, mapped := 0 } }) u)) := by
  simp only [relocStep, h, hu]

theorem relocStep_of_fourth (h : (dreyOf s k).moving = some (r, t, 4)) (hq : (dreyOf s k).moveQueue = []) : relocStep k s = modDrey k (fun d => { d with moving := none }) s := by
  have hq' : (dreyOf (modDrey k (fun d => { d with moving := none }) s) k).moveQueue = [] := by
    rw [modDrey_dreyOf_self]
    exact hq
  simp only [relocStep, h, hq']

theorem relocStep_of_none (h : (dreyOf s k).moving = none) : relocStep k s = s := by
  simp only [relocStep, h]

end

/-! ### Bandwidth windows -/

theorem bwEnd_of_due (hw : (tget s.ctr.mons n).window ≠ 0) (h : ((tget s.ctr.mons n).start / (tget s.ctr.mons n).window + 1) * (tget s.ctr.mons n).window ≤ now s) :
    bwEnd n s = modMon n (bwClose (((tget s.ctr.mons n).start / (tget s.ctr.mons n).window + 1) * (tget s.ctr.mons n).window) false) s := by
  simp only [bwEnd, hw, if_false, Nat.not_lt.mpr h]

theorem bwEnd_of_early (hw : (tget s.ctr.mons n).window ≠ 0) (h : now s < ((tget s.ctr.mons n).start / (tget s.ctr.mons n).window + 1) * (tget s.ctr.mons n).window) : bwEnd n s = s := by
  simp only [bwEnd, hw, if_false, h, if_true]

end
end Sys2Proof.Machine

namespace Sys2Proof.Proofs
open Sys2Proof Sys2Proof.Machine

theorem cxlLinkPower_cases (s : State) :
    (∀ (p : PortId) l, (isCxl s (2 * p.val) = false ∨ (lpOf s (2 * p.val)).l1 = false ∨ (lpOf s (2 * p.val)).l11En = false) → exec (.clkreqNChange p l) s = .next (settle (modPort p.val (fun x => { x with clkreqLow := !l }) s)))
    ∧ (∀ p : PortId, isCxl s (2 * p.val) = true → (lpOf s (2 * p.val)).l1 = true → (lpOf s (2 * p.val)).l11En = true →
        exec (.clkreqNChange p false) s = .next (settle (wakeDl (2 * p.val) (modPort p.val (fun x => { x with clkreqLow := true }) s)))
        ∧ exec (.clkreqNChange p true) s = .next (settle (modPort p.val (fun x => { x with clkreqOut := false }) (modLp (2 * p.val) (fun l => { l with l11 := true }) (modPort p.val (fun x => { x with clkreqLow := false }) s)))))
    ∧ (∀ (lp : LpId) e, isCxl s lp.val = false → exec (.aspmL1Request lp e) s = .next (settle s) ∧ ∀ k, exec (.laneMargining lp (.start k)) s = .next (settle s)) := by
  have hclk {p : PortId} {l : Bool} {t : State} (h : clkreqChange p.val l s = t) : exec (.clkreqNChange p l) s = .next (settle t) := exec_eq_of rfl h
  exact ⟨fun p l h => hclk (clkreqChange_of_idle h), fun p hc hl1 hen => ⟨hclk (clkreqChange_of_l1 hc hl1 hen), hclk (clkreqChange_of_l1 hc hl1 hen)⟩,
    fun lp e hc => ⟨exec_eq_of rfl (aspmL1_of_den hc), fun k => exec_eq_of rfl (laneMargining_start_of_den hc)⟩⟩

theorem relocation_cases (s : State) (hrun : settRuns s = true) :
    (∀ a, exec (.dynamicAddressAssignment a) s = .next (settle { s with i3c := { s.i3c with dynAddr := some a } }))
    ∧ (∀ (k : Fin 4) r t, (dreyOf s k.val).moving = some (r, t, 1) → exec (.relocationStepDone k) s = .next (settle (modDrey k.val (fun d => { d with moving := some (r, t, 2) }) (retireDrey k.val t s))))
    ∧ (∀ (k : Fin 4) r t, (dreyOf s k.val).moving = some (r, t, 2) → exec (.relocationStepDone k) s = .next (settle (modDrey k.val (fun d => { d with moving := some (r, t, 3) }) s)))
    ∧ (∀ (k : Fin 4) r t u, (dreyOf s k.val).moving = some (r, t, 3) → u = (if r < 32 then recoverRegion k.val r s else s) → exec (.relocationStepDone k) s = .next (settle (wakeStack k.val (fun u => u.phase == .waitRegion) (bump .regionsRetired k.val
        (modDrey k.val (fun d => { d with moving := some (r, t, 4), regions := tset (tset d.regions r { st := 3, mapped := t + 1 }) t { st := 4, mapped := 0 } }) u)))))
    ∧ (∀ (k : Fin 4) r t, (dreyOf s k.val).moving = some (r, t, 4) → (dreyOf s k.val).moveQueue = [] → exec (.relocationStepDone k) s = .next (settle (modDrey k.val (fun d => { d with moving := none }) s)))
    ∧ (∀ (k : Fin 4), (dreyOf s k.val).moving = none → exec (.relocationStepDone k) s = .next (settle s)) := by
  have hreloc {k : Fin 4} {t : State} (h : relocStep k.val s = t) : exec (.relocationStepDone k) s = .next (settle t) := exec_eq_of rfl ((if_pos hrun).trans h)
  exact ⟨fun a => exec_eq_of rfl (if_pos hrun), fun k r t h => hreloc (relocStep_of_first h), fun k r t h => hreloc (relocStep_of_second h),
    fun k r t u h hu => hreloc (relocStep_of_third h hu), fun k r t h hq => hreloc (relocStep_of_fourth h hq), fun k h => hreloc (relocStep_of_none h)⟩

/-- Settles O51: L1 and CLKREQ_N, lane margining, a start's wait, relocation and bandwidth windows. -/
theorem cxlLinkPowerRelocationAndWindows : Obligations.CxlLinkPowerRelocationAndWindows := by
  refine ⟨fun s => ?_, relocation_cases, fun lp s _ hw => ⟨fun h => exec_eq_of rfl (bwEnd_of_due hw h), fun h => exec_eq_of rfl (bwEnd_of_early hw h)⟩⟩
  obtain ⟨hidle, hl1, hden⟩ := cxlLinkPower_cases s
  refine ⟨hidle, hl1, hden, fun lp hc hup hh hl1 hq => exec_eq_of rfl (aspmL1_of_quiet hc hup hh hl1 hq), fun lp hc hup _ hq => exec_eq_of rfl (aspmL1_of_busy hc hup hq),
    fun n => enterL1_l1, fun lp hc hup => exec_eq_of rfl (aspmL1_of_exit hc hup), fun lp k hc hl hk hn => exec_eq_of rfl ((laneMargining_start hc hl hk).trans ?_),
    fun lp k h hc hl hk hn => exec_eq_of rfl ((laneMargining_start hc hl hk).trans ?_),
    fun lp k x d l hs hx hr => ⟨exec_eq_of rfl (laneMargining_stop_of_session hs hx hr), fun v g m => exec_eq_of rfl (laneMargining_step_of_session hs hx hr v g m)⟩,
    fun lp hs => exec_eq_of rfl (laneMargining_stop_of_none hs), fun p hp hc he hl hd => exec_eq_of rfl (cxlStartTimeout_of_due hp hc he hl hd),
    fun p h => exec_eq_of rfl (cxlStartTimeout_of_early h)⟩
  · simp only [hn, Option.isNone_none, if_true]
  · simp only [hn, Option.isNone_some, Bool.false_eq_true, if_false]

end Sys2Proof.Proofs

end
